-- ==== Sys2Proof/Word.lean ====
section
/-! DEFINITION. Word types of the SZ8: register words, bytes, coordinate addresses, and their plainest
arithmetic. -/

namespace Sys2Proof

/-- A 32-bit register word. -/
abbrev Word := BitVec 32

/-- One byte of a packet, message or memory. -/
abbrev Byte := BitVec 8

/-- A 40-bit coordinate address: SITE, POD, X, Y, Z, 8 bits each (R48). -/
abbrev Coord := BitVec 40

/-- An instant of international atomic time, in nanoseconds. -/
abbrev Instant := Nat

/-- A sparse table: key and value pairs, keys strictly rising, no value equal to what an unlisted key reads as. -/
abbrev Cells (α : Type) := List (Nat × α)

end Sys2Proof
end

