-- ==== Sys2Proof/Types/Event.lean ====
section
/-! DEFINITION. The event codes of the SZ8, from the events tables of every chapter (R577), with severities and planes. -/

namespace Sys2Proof

/-- Event severities, in rising order (R572). -/
inductive Sev where
  | info | warn | fault | fatal
  deriving DecidableEq, Repr, Inhabited

/-- The three planes (R25), numbered as byte 35 of an event record (R572). -/
inductive Plane where
  | data | control | management
  deriving DecidableEq, Repr, Inhabited

/-- The event codes, in the order of the event code catalogue (R577). -/
inductive Ev where
  /-- FAB_CRC (INFO): A flit fails CRC -/
  | fabCrc
  /-- FAB_RETRAIN (WARN): A port starts a retrain -/
  | fabRetrain
  /-- FAB_LANE_SPARED (WARN): A spare lane takes a lane's place -/
  | fabLaneSpared
  /-- FAB_PORT_DOWN (FAULT): A port fails its third retrain attempt -/
  | fabPortDown
  /-- FAB_HDR_BAD (WARN): Check 1 of R81 fails, including a reserved SITE (R48); a NACK carries a reserved reason; or a packet is discarded under R83 or R87 -/
  | fabHdrBad
  /-- FAB_TRANSIT (WARN): R67 -/
  | fabTransit
  /-- FAB_CTRL_DENIED (WARN): R49 -/
  | fabCtrlDenied
  /-- FAB_NO_JOB (WARN): R81, checks 5, 8 and 9 -/
  | fabNoJob
  /-- FAB_NO_XLATE (WARN): R81, checks 5, 8 and 9 -/
  | fabNoXlate
  /-- FAB_LOOP (WARN): R81, checks 5, 8 and 9 -/
  | fabLoop
  /-- FAB_RANK_RANGE (WARN): R47 -/
  | fabRankRange
  /-- FAB_GEN_STALE (INFO): R92 -/
  | fabGenStale
  /-- FAB_UNREACH (WARN): R94 -/
  | fabUnreach
  /-- FAB_LEAF_SUPPRESS (INFO): R99 -/
  | fabLeafSuppress
  /-- POOL_PARITY (WARN): R110 -/
  | poolParity
  /-- POOL_SHARE_BAD (FATAL): R112 -/
  | poolShareBad
  /-- POOL_STAGE_SPILL (WARN): R117 -/
  | poolStageSpill
  /-- MEM_LAYOUT_BAD (FATAL): R123, R125 or R128 -/
  | memLayoutBad
  /-- MEM_RTX_FULL (WARN): R126 -/
  | memRtxFull
  /-- MEM_REREAD_OK (INFO): R129, second read passed -/
  | memRereadOk
  /-- MEM_CHECK_FAIL (WARN): R129, line lost -/
  | memCheckFail
  /-- MEM_RTX_LOST (FAULT): *Lost lines by region* -/
  | memRtxLost
  /-- MEM_SPILL_LOST (FAULT): *Lost lines by region* -/
  | memSpillLost
  /-- MEM_LEDGER_LOST (FAULT): *Lost lines by region* -/
  | memLedgerLost
  /-- MEM_TALUS_RESET (WARN): *Lost lines by region* -/
  | memTalusReset
  /-- MEM_STAGE_LOST (WARN): *Lost lines by region* -/
  | memStageLost
  /-- MEM_MIRROR_FIXED (INFO): *Lost lines by region* -/
  | memMirrorFixed
  /-- MEM_MIRROR_LOST (FAULT): *Lost lines by region* -/
  | memMirrorLost
  /-- MEM_UNIT_RETIRED (FAULT): R130 -/
  | memUnitRetired
  /-- MEM_REMAP_FULL (FAULT): R132 -/
  | memRemapFull
  /-- MEM_TRAIN_FAIL (FATAL): R139 -/
  | memTrainFail
  /-- COL_NO_CONTEXT (WARN): COL_START finds no free context (R157) -/
  | colNoContext
  /-- COL_ABORT (WARN): An attempt is aborted (R181) -/
  | colAbort
  /-- COL_FAILED (WARN): An instance ends with FAILED_ATTEMPTS, FAILED_EMPTY or FAILED_EXCL -/
  | colFailed
  /-- COL_NOT_STARTED (WARN): An instance ends with NOT_STARTED -/
  | colNotStarted
  /-- COL_PATH_DOWN (WARN): R186 -/
  | colPathDown
  /-- COL_ORPHANED (WARN): R185 -/
  | colOrphaned
  /-- COL_STALE (INFO): R168, older attempt -/
  | colStale
  /-- COL_STRAY (WARN): R168; a reserved CTYPE; a message other than a DEMAND for a communicator that is not open; or any collective message to a slot in Col mode (R172) -/
  | colStray
  /-- COL_IN_DISCARD (INFO): R171 -/
  | colInDiscard
  /-- COL_PEND_DROP (WARN): R172 -/
  | colPendDrop
  /-- COL_NONFINITE (INFO): A result chunk holds a NaN or an infinity -/
  | colNonfinite
  /-- COL_SATURATE (INFO): R175 or R176 -/
  | colSaturate
  /-- CODEC_DAMAGED (WARN): A block fails a check of R208 -/
  | codecDamaged
  /-- CODEC_UNRECOVERABLE (FAULT): R209 -/
  | codecUnrecoverable
  /-- CODEC_RECODE (WARN): The packer's check decode fails once (R207) -/
  | codecRecode
  /-- CODEC_RECODE_FAIL (FAULT): The check decode fails twice (R207) -/
  | codecRecodeFail
  /-- CODEC_LAG (INFO): R212 -/
  | codecLag
  /-- CODEC_NONFINITE (INFO): A nonfinite run, value or residual element is counted -/
  | codecNonfinite
  /-- CODEC_SATURATE (INFO): An MX value saturates or overflows -/
  | codecSaturate
  /-- CODEC_TALUS_FULL (WARN): CODEC_BIND returns TALUS_FULL -/
  | codecTalusFull
  /-- MTX_DESC_BAD (FAULT): A descriptor is discarded for a bad field or shape -/
  | mtxDescBad
  /-- MTX_NO_TILE (FAULT): A descriptor is discarded for want of a tile -/
  | mtxNoTile
  /-- MTX_TASK_MOVED (INFO): R235 -/
  | mtxTaskMoved
  /-- MTX_NONFINITE (INFO): A nonfinite output element is counted -/
  | mtxNonfinite
  /-- MTX_RANK_DEFICIENT (INFO): R248 -/
  | mtxRankDeficient
  /-- MTX_RESEED (INFO): A marked column is generated again (R251) -/
  | mtxReseed
  /-- MTX_SENTINEL_MISMATCH (WARN): A re-executed task differs from the original, as *Partitions, Drift and Unit Health* describes -/
  | mtxSentinelMismatch
  /-- SCH_POL_DROP (INFO): A policer discards a packet; at most once per second per policer -/
  | schPolDrop
  /-- SCH_SYS_POL_DROP (WARN): The system policer discards a packet; at most once per second -/
  | schSysPolDrop
  /-- SCH_REL_DROP (INFO): R266 discards queued objects -/
  | schRelDrop
  /-- SCH_RLINE_CHANGE (INFO): R_line changes (R267) -/
  | schRlineChange
  /-- LINE_UP (INFO): The line enters UP (R310) -/
  | lineUp
  /-- LINE_DOWN (FAULT): The line leaves UP -/
  | lineDown
  /-- LINE_LOS (FAULT): Entry into DOWN_LOS -/
  | lineLos
  /-- LINE_LOF (FAULT): Entry into DOWN_LOF from RX_UP or UP -/
  | lineLof
  /-- LINE_OOF (WARN): Entry into OOF; at most once per second -/
  | lineOof
  /-- LINE_BDI (WARN): UP to RX_UP by the peer's BDI -/
  | lineBdi
  /-- LINE_LANE_ID (WARN): R306 -/
  | lineLaneId
  /-- LINE_UNCORR (WARN): An uncorrected frame; at most once per second -/
  | lineUncorr
  /-- LINE_PATH_ERR (WARN): R312 -/
  | linePathErr
  /-- LINE_RESYNC (INFO): A resync; at most once per second -/
  | lineResync
  /-- LINE_RTX_LOST (WARN): R330 -/
  | lineRtxLost
  /-- LINE_TRIB_DROP (INFO): R319 -/
  | lineTribDrop
  /-- LINE_AIS_TX (WARN): The channel starts sending LINE_AIS (R313) -/
  | lineAisTx
  /-- LINE_AIS_RX (WARN): R316 -/
  | lineAisRx
  /-- LINE_AIS_DENIED (WARN): R314 -/
  | lineAisDenied
  /-- OPT_PLAN_BAD (FATAL): R340, or a reserved reach code -/
  | optPlanBad
  /-- OPT_MT_PASS (INFO): R359 -/
  | optMtPass
  /-- OPT_MARGIN_LOW (WARN): R359, marginal service -/
  | optMarginLow
  /-- OPT_MT_FAIL (FAULT): R359 -/
  | optMtFail
  /-- OPT_WRONG_LOCK (INFO): R344 -/
  | optWrongLock
  /-- OPT_RECAL (INFO): A recalibration action of R353 completes -/
  | optRecal
  /-- OPT_SPARE_IN (WARN): A spare-in completes -/
  | optSpareIn
  /-- OPT_SPARE_ABORT (WARN): R363 -/
  | optSpareAbort
  /-- OPT_OOK (WARN): An OOK pair is formed -/
  | optOok
  /-- OPT_NO_SPARE (FAULT): R363 -/
  | optNoSpare
  /-- OPT_COMB_FADE (WARN): R368, or the start of a take-over -/
  | optCombFade
  /-- OPT_COMB_TAKEOVER (WARN): R367 -/
  | optCombTakeover
  /-- OPT_COMB_FAIL (FAULT): R368 -/
  | optCombFail
  /-- OPT_SAFETY_TRIP (FAULT): R369 -/
  | optSafetyTrip
  /-- OPT_LASER_DISABLED (WARN): LASER_EN_N goes high -/
  | optLaserDisabled
  /-- OPT_PLAN_BLOCK (FAULT): R371 -/
  | optPlanBlock
  /-- SEC_KA_OK (INFO): A full key agreement completes -/
  | secKaOk
  /-- SEC_KA_FAIL (FAULT): R384, R387 -/
  | secKaFail
  /-- SEC_SITE_MISMATCH (FAULT): Reason 0x02 (R44) -/
  | secSiteMismatch
  /-- SEC_REKEY (INFO): An epoch is activated -/
  | secRekey
  /-- SEC_REKEY_FAIL (WARN): R389 -/
  | secRekeyFail
  /-- SEC_LIMIT_STOP (FAULT): R391 -/
  | secLimitStop
  /-- SEC_TAG_FAIL (WARN): R394 -/
  | secTagFail
  /-- SEC_EPOCH_BAD (WARN): R390, R394; at most once per second -/
  | secEpochBad
  /-- SEC_SEAL_FAIL (WARN): R385; at most once per second -/
  | secSealFail
  /-- SEC_RESUME (INFO): R404, resume succeeds -/
  | secResume
  /-- SEC_RESUME_FAIL (WARN): R404, resume fails -/
  | secResumeFail
  /-- SEC_RNG_FAIL (FAULT): R402 -/
  | secRngFail
  /-- SEC_KAT_FAIL (FAULT): R403 -/
  | secKatFail
  /-- SEC_PIPE_SPARED (WARN): The spare pipeline takes a fenced pipeline's place -/
  | secPipeSpared
  /-- PROV_DIVERGE (FAULT): R420, span digests differ -/
  | provDiverge
  /-- PROV_UNMATCHED (WARN): R420; at most once per second per communicator -/
  | provUnmatched
  /-- PROV_OVERRUN (FAULT): R424 -/
  | provOverrun
  /-- PROV_SIGN_FAIL (FAULT): R416 -/
  | provSignFail
  /-- PROV_PEER_SIG_BAD (FAULT): R419 -/
  | provPeerSigBad
  /-- PROV_HELD_DROP (WARN): R418; at most once per second -/
  | provHeldDrop
  /-- TIME_LOCK (INFO): A unit enters LOCKED -/
  | timeLock
  /-- TIME_HOLDOVER (WARN): A unit enters HOLDOVER -/
  | timeHoldover
  /-- TIME_HOLD_EXCEED (FAULT): R443 -/
  | timeHoldExceed
  /-- TIME_STEP (WARN): R440 -/
  | timeStep
  /-- TIME_JUMP (FAULT): R440 -/
  | timeJump
  /-- TIME_LOOP (FAULT): R438 -/
  | timeLoop
  /-- TIME_ASYM (WARN): R447 -/
  | timeAsym
  /-- TIME_CFG_BAD (FATAL): R437 -/
  | timeCfgBad
  /-- TIME_TRIG_LATE (WARN): R459, late; at most once per second per slot -/
  | timeTrigLate
  /-- TIME_TRIG_SKIP (WARN): R459, skipped -/
  | timeTrigSkip
  /-- TIME_PPS_BAD (WARN): R453; at most once per second -/
  | timePpsBad
  /-- TIME_CAP_LOST (INFO): R455 -/
  | timeCapLost
  /-- TIME_GTRIG (INFO): R462 -/
  | timeGtrig
  /-- PART_PATH_DOWN (FAULT): R472 -/
  | partPathDown
  /-- PART_PATH_UP (INFO): R472 -/
  | partPathUp
  /-- PART_DRIFT (WARN): A slot enters drift -/
  | partDrift
  /-- PART_DRIFT_LIMIT (FAULT): R480 -/
  | partDriftLimit
  /-- PART_RECON (INFO): A shard leaves drift by merge or anchor -/
  | partRecon
  /-- PART_RELOAD (WARN): A shard is resolved by reload -/
  | partReload
  /-- PART_STALE (WARN): R492; at most once per second per slot -/
  | partStale
  /-- PART_STALL_DROP (WARN): R473; at most once per second per slot -/
  | partStallDrop
  /-- PART_MODE_MISS (FAULT): R495 -/
  | partModeMiss
  /-- PART_LOAD_FAIL (FAULT): R508 -/
  | partLoadFail
  /-- BOOT_STRAP_BAD (WARN): R514 -/
  | bootStrapBad
  /-- BOOT_UNOWNED (WARN): R522 -/
  | bootUnowned
  /-- BOOT_FALLBACK (WARN): R523 -/
  | bootFallback
  /-- BOOT_IMAGE_FAIL (FATAL): R523 -/
  | bootImageFail
  /-- BOOT_CFG_BAD (FATAL): R526 -/
  | bootCfgBad
  /-- BOOT_STEP_LATE (WARN): R527 -/
  | bootStepLate
  /-- BOOT_SEALED (INFO): R528 -/
  | bootSealed
  /-- BOOT_HOST_EDIT (WARN): R528 -/
  | bootHostEdit
  /-- BOOT_HANG (FAULT): *Detectors* -/
  | bootHang
  /-- BOOT_CORE_HANG (WARN): *Detectors* -/
  | bootCoreHang
  /-- BOOT_CORE_SWAP (WARN): R539 -/
  | bootCoreSwap
  /-- BOOT_HUB_RESET (FAULT): *Detectors* -/
  | bootHubReset
  /-- BOOT_RECOV (WARN): A recovery starts -/
  | bootRecov
  /-- BOOT_RECOV_DONE (INFO): Step 10 of *Recovery* -/
  | bootRecovDone
  /-- BOOT_RECOV_FAIL (FAULT): R537 -/
  | bootRecovFail
  /-- BOOT_COLD (FAULT): A cold restart starts -/
  | bootCold
  /-- BOOT_IMAGE_CHANGED (FATAL): R536 -/
  | bootImageChanged
  /-- BOOT_OUT_OF_SERVICE (FATAL): R537, R540 -/
  | bootOutOfService
  /-- BOOT_DMA_BLOCK (FAULT): R541 -/
  | bootDmaBlock
  /-- BOOT_PWR_ENTER (INFO): A power state below Active is entered -/
  | bootPwrEnter
  /-- BOOT_PWR_WAKE (INFO): R544 -/
  | bootPwrWake
  /-- HOST_LINK_UP (INFO): The link trains; HOSTSTAT changes -/
  | hostLinkUp
  /-- HOST_LINK_DOWN (WARN): The link goes down, or a host-port reset occurs -/
  | hostLinkDown
  /-- HOST_LINK_DEGRADED (WARN): R551 -/
  | hostLinkDegraded
  /-- HOST_PCIE_ONLY (WARN): R550 -/
  | hostPcieOnly
  /-- HOST_VIOL (WARN): R559 -/
  | hostViol
  /-- HOST_VIOL_LOST (WARN): R560; at most once per second -/
  | hostViolLost
  /-- HOST_HDM_UNAVAIL (INFO): Row 3 of *HDM access outcomes*; at most once per second per channel -/
  | hostHdmUnavail
  /-- HOST_MBX_TIMEOUT (WARN): R565, an expiry in either direction; at most once per second per mailbox -/
  | hostMbxTimeout
  /-- HOST_MBX_DROP (INFO): R567 -/
  | hostMbxDrop
  /-- HOST_IDE_FAIL (FAULT): An IDE integrity check fails, or IDE_KM fails -/
  | hostIdeFail
  /-- EVR_RING_FULL (WARN): R579; at most once per second -/
  | evrRingFull
  /-- EVR_SEAL (INFO): A seal completes -/
  | evrSeal
  /-- EVR_SEAL_FAIL (FAULT): R592 -/
  | evrSealFail
  /-- EVR_SEAL_FULL (WARN): R591 -/
  | evrSealFull
  /-- EVR_R6_LOST (WARN): R587 -/
  | evrR6Lost
  /-- EVR_LATE (INFO): R583 -/
  | evrLate
  /-- HLTH_SUSPECT (WARN): R499 -/
  | hlthSuspect
  /-- HLTH_FENCE (FAULT): A fence takes effect -/
  | hlthFence
  /-- HLTH_BUDGET_REFUSE (WARN): R500 -/
  | hlthBudgetRefuse
  /-- HLTH_FLOOR_REFUSE (WARN): R500 -/
  | hlthFloorRefuse
  /-- HLTH_READMIT (INFO): R502 -/
  | hlthReadmit
  /-- HLTH_PERM_FENCE (FAULT): R502 -/
  | hlthPermFence
  /-- HLTH_SENTINEL (WARN): R504, streams 2 and 3 -/
  | hlthSentinel
  deriving DecidableEq, Repr, Inhabited

end Sys2Proof
end

