-- ==== Sys2Proof/Types/Jobs.lean ====
section
/-! DEFINITION. Job slots, admissions and the control requests of Multi-Site Jobs (R43–R66, R624, R625). -/

namespace Sys2Proof

/-- The envelope of a control request (R83) and the coordinate that sent it. -/
structure CtlEnv where
  src : Coord
  tag : BitVec 16
  job : BitVec 32
  deriving DecidableEq, Repr, Inhabited

/-- The JOB_ADMIT body (R50). -/
structure AdmitBody where
  jobId      : BitVec 32
  slot       : BitVec 8
  mode       : BitVec 8
  anchor     : BitVec 8
  opts       : BitVec 8
  rankCount  : BitVec 32
  driftS     : BitVec 16
  driftSteps : BitVec 16
  pepoch     : BitVec 8
  profile    : BitVec 8
  sites      : BitVec 16
  firstStep  : BitVec 32
  entries    : BitVec 32
  rsvd       : BitVec 32
  siteMask   : BitVec 64
  deriving DecidableEq, Repr, Inhabited

/-- The mode of a slot (R65). -/
inductive SlotMode where
  | free | stage | col | releasing
  deriving DecidableEq, Repr, Inhabited

/-- An admission whose peer has not answered (R53, R54): the request, who asked, and when it was forwarded. -/
structure PendAdmit where
  env     : CtlEnv
  sinceUs : Nat
  waitUs  : Nat
  deriving DecidableEq, Repr, Inhabited

/-- One job slot. -/
structure Slot where
  mode     : SlotMode := .free
  /-- The peer's slot of the same job, learned at admission (log entry 40). -/
  peerSlot : Option (Fin 16) := none
  body     : AdmitBody := default
  pend     : Option PendAdmit := none
  /-- Options in force: those of the body, or of a mode change to Stage (R494). -/
  opts     : BitVec 8 := 0
  step     : BitVec 32 := 0
  pepoch   : BitVec 8 := 0
  /-- Coordinate of the control plane that admitted the job (R471); none when it was admitted by forwarding. -/
  owner    : Option Coord := none
  /-- A stage slot's flows are stalled by loss of the line (R65, R473). -/
  stall    : Bool := false
  deriving DecidableEq, Repr, Inhabited

/-- An admission that timed out at the peer: the JOB_ID and REQ_TAG that its answer will carry (R54). -/
structure LateAdmit where
  jobId : BitVec 32
  tag   : BitVec 16
  deriving DecidableEq, Repr, Inhabited

end Sys2Proof
end

