-- ==== Sys2Proof/Types/Ctrl.lean ====
section
/-! DEFINITION. The control sequencer of a channel and its sealed configuration (Multi-Site Jobs, R43–R66; Module
Architecture, R21, R22, R26). -/

namespace Sys2Proof

/-- The sealed configuration of a channel: site numbers, the channel's own coordinate, the listed control-plane
coordinates and their rights, the relay channels upstream (R43, R49, R314). -/
structure Sealed where
  site     : BitVec 8 := 0
  peerSite : BitVec 8 := 0
  coord    : Coord := 0
  cpList   : List Coord := []
  /-- CLEN certificate bytes the channel sends in a HELLO (R383). -/
  certs    : List Byte := []
  /-- SM3 of the channel's device certificate (R426). -/
  certDigest : BitVec 256 := 0
  /-- TRUST: root digests and the deny list; CAL: signed delays in ps, TX36, TX37, RX36, RX37, TX_FAB, RX_FAB (R518). -/
  yupRoot  : BitVec 256 := 0
  ownerRoot : BitVec 256 := 0
  deny     : List (BitVec 160) := []
  cal      : List (BitVec 32) := []
  deriving DecidableEq, Repr, Inhabited

/-- A control request that a packet or a control object brought: the coordinate that sent it and its bytes (R82, R83), and its number in the
order of arrival at the sequencer (R56). -/
structure SeqReq where
  src   : Coord
  bytes : List Byte
  nr    : Nat := 0
  deriving DecidableEq, Repr, Inhabited

/-- The control sequencer of a channel. -/
structure Ctrl where
  /-- Requests steered to the sequencer and not yet taken, oldest first. -/
  seqIn   : List SeqReq := []
  /-- Requests and responses that came from the peer as control objects, oldest first. -/
  peerIn  : List SeqReq := []
  /-- Requests and answers that have arrived so far, from either side (R56). -/
  arrived : Nat := 0
  slots   : Vector Slot 16 := Vector.replicate 16 {}
  /-- Admissions that timed out at the peer (R54). -/
  late    : List LateAdmit := []
  /-- Notices in the sequencer's mailbox, oldest first, with the mailbox number (R26, R569). -/
  notices : List (Nat × Vector Word 4) := []
  deriving DecidableEq, Repr, Inhabited

end Sys2Proof
end

