-- ==== Sys2Proof/Types/Keys.lean ====
section
/-! DEFINITION. The security domain of a channel: key agreement, epochs, sealed messages, cipher pipelines (Line Encryption and
Keys, R378–R408). -/

namespace Sys2Proof

/-- KA of SEC.STAT (R405). -/
inductive KaPhase where
  | none | hello | handshake | service | rekeying | resuming | failed
  deriving DecidableEq, Repr, Inhabited

/-- A sealed tributary message's header fields and whether its GCM tag verifies (R385). -/
structure SealHdr where
  ksel   : BitVec 8
  kepoch : BitVec 8
  mseq   : BitVec 64
  tagOk  : Bool
  deriving DecidableEq, Repr, Inhabited

/-- One epoch's number and secret ES_e (R380). -/
structure Epoch where
  num    : BitVec 8
  secret : BitVec 256
  deriving DecidableEq, Repr, Inhabited

/-- The keys of one secret in both directions: K_ENC, K_MAC, K_SEAL and K_MGMT (R380). Once its successor is activated, these are all that is
kept of an epoch (R381). -/
structure EpochKeys where
  num   : BitVec 8
  txEnc : BitVec 256
  txMac : BitVec 256
  rxEnc : BitVec 256
  rxMac : BitVec 256
  rxMgt : BitVec 256
  deriving DecidableEq, Repr, Inhabited

/-- A certificate of a HELLO: its DER bytes and what they say (R383). X.509 and DER lie outside the manual, so the fields come with the
bytes: the serial number, the subject's SM2 key, the validity period as instants, and whether every signature of its chain verifies up to a
root, with the SM3 of that root (log entry 21). -/
structure Cert where
  der       : List Byte
  serial    : BitVec 160
  key       : BitVec 512
  notBefore : Instant
  notAfter  : Instant
  sigOk     : Bool
  root      : BitVec 256
  deriving DecidableEq, Repr, Inhabited

/-- A KA_HELLO body (R383): the device certificate, the Yupoust intermediate one, and the owner's where there is one. -/
structure HelloBody where
  ver    : BitVec 8
  suite  : BitVec 8
  site   : BitVec 8
  rsvd   : BitVec 8
  point  : BitVec 512
  device : Cert
  inter  : Cert
  owner  : Option Cert
  /-- S_B of a KA_HELLO_B. -/
  conf   : BitVec 256 := 0
  deriving DecidableEq, Repr, Inhabited

/-- A rekey or a full agreement in progress: the number and secret to come, once confirmed, and its instant. -/
structure NextEpoch where
  num    : BitVec 8
  secret : BitVec 256
  at_    : Instant
  deriving DecidableEq, Repr, Inhabited

/-- A rekey exchange (R389): NEW_EPOCH, both points, instant T, and how far it has come: 1 KA_REKEY sent or received,
2 KA_REKEY_B sent or received. -/
structure Rekey where
  num   : BitVec 8
  rA    : BitVec 512
  rB    : BitVec 512 := 0
  at_   : Instant
  stage : Nat := 1
  deriving DecidableEq, Repr, Inhabited

/-- The security domain. -/
structure Sec where
  phase    : KaPhase := .none
  cur      : Option Epoch := none
  /-- The keys of the previous epoch through the saddle window; its secret is erased when the successor is activated (R381). -/
  prev     : Option EpochKeys := none
  /-- K_HS and TH once HELLOs have been exchanged (R380). -/
  hs       : Option (BitVec 256 × BitVec 256) := none
  /-- Own ephemeral point of the running agreement, and the bodies of both HELLOs. -/
  ownPoint : BitVec 512 := 0
  helloA   : List Byte := []
  helloB   : List Byte := []
  next     : Option NextEpoch := none
  rekey    : Option Rekey := none
  /-- Instant T of the last change, tick of the activation, and the tick at which its saddle window closes (R390). -/
  changeAt : Instant := 0
  actMs    : Nat := 0
  saddle   : Option Nat := none
  /-- Bytes of TUs encrypted and received under the current epoch (R389, R391). -/
  txBytes  : Nat := 0
  rxBytes  : Nat := 0
  stop     : Bool := false
  rngOk    : Bool := false
  rngFailUs : Option Nat := none
  rngStop  : Bool := false
  /-- When the running agreement began, and when A may start again after an abort (R387). -/
  startedUs : Option Nat := none
  holdUs   : Option Nat := none
  rekeyFails : Nat := 0
  /-- Instant T0 that A named in KA_FINISH. -/
  t0       : Instant := 0
  /-- The message repeated every 5 ms, as TRIB 0x02 TYPE and body, and when it was last sent. -/
  repeating : Option (Nat × List Byte) := none
  repeatUs : Nat := 0
  /-- Last answer sent by B, given again to a repeat (R387). -/
  answer   : Option (Nat × List Byte) := none
  /-- MSEQ counters, keyed ((KSEL × 256 + KEPOCH) × 8 + TRIB): next to send; last accepted plus 1. -/
  mseqTx   : Cells Nat := []
  mseqRx   : Cells Nat := []
  /-- TRIB, TYPE and body of messages held until a key exists (R386). -/
  held     : List (Nat × Nat × List Byte) := []
  peerCert : BitVec 256 := 0
  /-- CFB-8 shift registers of the MGMT stream: transmit, receive current, receive previous (R397, R398). -/
  mgmtTx   : BitVec 128 := 0
  mgmtRx   : BitVec 128 := 0
  mgmtRxPrev : BitVec 128 := 0
  /-- A resume is running since this tick (R404). -/
  resumeUs : Option Nat := none
  deriving DecidableEq, Repr, Inhabited

end Sys2Proof
end

