-- ==== Sys2Proof/Types/Boot.lean ====
section
/-! DEFINITION. Start-up, recovery, power states, the DMA guard and the hub's boot reader, and the operands of their commands
(Bring-Up, Reset and Recovery, R514–R548). -/

namespace Sys2Proof

/-- A recovery under way (R535): the step of 1–7, 9 or 10 that runs, the ticks at which it and the recovery began, the tick at which
step 8 began, and whether step 8 has ended. -/
structure Recov where
  step     : Nat := 1
  stepUs   : Nat
  startUs  : Nat
  relockUs : Option Nat := none
  relocked : Bool := false
  deriving DecidableEq, Repr, Inhabited

/-- An access of a channel to host memory (R541). -/
structure DmaReq where
  write : Bool
  addr  : BitVec 64
  len   : BitVec 32
  deriving DecidableEq, Repr, Inhabited

/-- What a channel's firmware, cores, recovery and power states stand at (R535–R546). -/
structure Boot where
  phase    : Nat := 0
  cause    : Nat := 0
  det      : Nat := 0x1F
  held     : Bool := false
  sealed   : Bool := false
  hostEdit : Bool := false
  /-- Driver software wrote an RWS field before sealing (R528). -/
  edited   : Bool := false
  /-- The channel stops after image load until it is released (R514, R547). -/
  hold     : Bool := false
  /-- The running step of start-up has been repeated; tick at which it began (R527). -/
  late     : Bool := false
  stepUs   : Nat := 0
  /-- The channel has reached service since power-good (R524). -/
  served   : Bool := false
  /-- The self-test of start-up has ended since the channel was last cleared (R36, R37). -/
  tested   : Bool := false
  /-- Ticks of the recoveries of the trailing 10 minutes, ms. -/
  recovs   : List Nat := []
  recov    : Option Recov := none
  /-- SM3 of CH_FW and of the channel's sections, recorded at sealing; SM3 of the last own signature record (R426, R528). -/
  fwDigest  : BitVec 256 := 0
  secDigest : BitVec 256 := 0
  sigDigest : BitVec 256 := 0
  /-- The same digests of what image load gave the channel, until sealing records them. -/
  loadFw    : BitVec 256 := 0
  loadSec   : BitVec 256 := 0
  /-- Management cores: the active one, whether the other is a usable spare, the tick of the last complete checkpoint (R539). -/
  core     : Bool := false
  spareOk  : Bool := true
  ckptMs   : Option Nat := none
  /-- Power state 0–4, WAKE_CAUSE, tick at which a wake ends (R543–R545). -/
  pst      : Nat := 0
  wakeCause : Nat := 0
  wakeUs   : Nat := 0
  /-- Own last offer and its tick, the peer's and its tick, and the agreed instant (R543). -/
  offer    : Nat := 0
  offerMs  : Nat := 0
  peerOffer : Nat := 0
  peerMs   : Option Nat := none
  entryAt  : Option Instant := none
  /-- DMA guard: bytes in the bucket, accesses that wait, and the access last issued (R541). -/
  dmaBucket : Int := 0x10000
  dmaQ     : List DmaReq := []
  dmaOut   : Option DmaReq := none
  deriving DecidableEq, Repr, Inhabited

/-- The hub's boot state and its root of trust's fuses (R514–R524, R547). IMG: 0 primary, 1 golden, 2 none. -/
structure HubBoot where
  phase    : Nat := 0
  img      : Nat := 2
  unowned  : Bool := false
  chRel    : BitVec 8 := 0
  failP    : Nat := 0
  failG    : Nat := 0
  straps   : BitVec 4 := 0
  imgSvn   : Nat := 0
  advance  : Bool := false
  /-- Fuses: the count of the fused SVN, the SM3 of the Yupoust root key, and that of the owner root key once provisioned. -/
  fuseSvn  : Nat := 0
  yupRoot  : BitVec 256 := 0
  ownerRoot : Option (BitVec 256) := none
  /-- SM3 of the hub firmware and of the whole configuration image (R426). -/
  fwDigest : BitVec 256 := 0
  cfgDigest : BitVec 256 := 0
  /-- The RWS fields of BAR0 are sealed (R14). -/
  sealed   : Bool := false
  deriving DecidableEq, Repr, Inhabited

/-! ### Operands -/

/-- The bytes of the sections that one channel is given, CH_FW, CH_REGS, TUNING, TRUST, SITE and CAL (R518), and what its security domain
holds: the certificates that a HELLO sends and the SM3 of the device certificate (R383, R426). -/
structure ChanImg where
  fw     : List Byte := []
  regs   : List Byte := []
  tuning : List Byte := []
  trust  : List Byte := []
  site   : List Byte := []
  cal    : List Byte := []
  certs  : List Byte := []
  certDigest : BitVec 256 := 0
  deriving DecidableEq, Repr, Inhabited

/-- An image slot as the hub reads it: its bytes, none when the memory does not answer; what the certificates of both signature blocks say
(R520); and the certificates of each channel's security domain with the SM3 of its device certificate. -/
structure ImageIn where
  slot   : Option (List Byte) := none
  yupChain : List Cert := []
  ownerChain : List Cert := []
  devs   : Vector (List Byte × BitVec 256) 8 := Vector.replicate 8 ([], 0)
  deriving DecidableEq, Repr, Inhabited

/-- What the start-up steps of a channel find (R525, R133, R403): the data-path stages pass, units that fail as class and number, the
cores that pass, the noise source passes, the LPDDR6 channels that train, the units whose rows soft repair took and those whose rows can
take hard repair; and the last step that ends within its bound. -/
structure StepFacts where
  stagesOk : Bool := true
  badUnits : List (Fin 8 × Fin 64) := []
  core0    : Bool := true
  core1    : Bool := true
  rngOk    : Bool := true
  trained  : BitVec 16 := 0xFFFF
  repaired : List (BitVec 25) := []
  hardRows : List (BitVec 25) := []
  ends     : Nat := 5
  deriving DecidableEq, Repr, Inhabited

/-- What the hub finds at power-good: the straps, both image slots, and each channel's steps. -/
structure StartFacts where
  straps  : BitVec 4 := 0
  primary : ImageIn := {}
  golden  : ImageIn := {}
  steps   : Vector StepFacts 8 := Vector.replicate 8 {}
  deriving DecidableEq, Repr, Inhabited

/-- What the steps of a recovery find (R535, R536): the firmware and sections read again, whether the stages pass, units that fail, the
cores that pass, the noise source passes. -/
structure RecovFacts where
  img       : ChanImg := {}
  stagesOk  : Bool := true
  badUnits  : List (Fin 8 × Fin 64) := []
  core0     : Bool := true
  core1     : Bool := true
  rngOk     : Bool := true
  deriving DecidableEq, Repr, Inhabited

end Sys2Proof
end

