-- ==== Sys2Proof/Types/Fabric.lean ====
section
/-! DEFINITION. Packets, flits and the state of the Daeno fabric port (The Daeno Fabric Port, R67–R105, R626). -/

namespace Sys2Proof

/-- A Daeno packet: the fields of the 24-byte header (R77) and the payload. -/
structure Packet where
  ver     : BitVec 2 := 1
  kind    : BitVec 3 := 0
  tc      : BitVec 2 := 0
  fence   : Bool := false
  gen     : Bool := false
  hops    : BitVec 5 := 0
  coded   : Bool := false
  rsvd    : BitVec 3 := 0
  length  : BitVec 14 := 0
  route   : BitVec 80 := 0
  src     : Coord := 0
  dest    : BitVec 40 := 0
  payload : List Byte := []
  deriving DecidableEq, Repr, Inhabited

/-- A link flit (R71): 256 bytes, by field. -/
structure Flit where
  type    : BitVec 3
  tc      : BitVec 2 := 0
  seq     : BitVec 12 := 0
  ack     : BitVec 12 := 0
  sop     : BitVec 5 := 31
  /-- CR_TC0–CR_TC3: buffers freed since the last report. -/
  credits : BitVec 24 := 0
  rsvd    : BitVec 38 := 0
  payload : List Byte := List.replicate 240 0
  crc     : BitVec 32 := 0
  deriving DecidableEq, Repr, Inhabited

/-- Link state of a port (R102). -/
inductive PortState where
  | down | training | up | retraining
  deriving DecidableEq, Repr, Inhabited

/-- One class's packet layer on one port: bytes of the packet in progress, and whether bytes are skipped up to the next
flit with SOP ≠ 31 (R76, R81 check 1). -/
structure Reasm where
  bytes : List Byte := []
  skip  : Bool := false
  /-- Flit buffers that hold bytes of the packet in progress. -/
  flits : Nat := 0
  deriving DecidableEq, Repr, Inhabited

/-- One fabric port: training state (R70, R102), link retry (R72–R75) and packet layer (R76). -/
structure Port where
  state     : PortState := .down
  width     : Nat := 0
  attempt   : Nat := 0
  /-- Transmit sequence number of the next DATA flit, and the replay buffer, oldest first (R72). -/
  txSeq     : BitVec 12 := 0
  replay    : List Flit := []
  /-- Index into the replay buffer of the next flit to resend; none when no replay runs (R74). -/
  resend    : Option Nat := none
  nakRun    : Nat := 0
  timeouts  : Nat := 0
  /-- Credits held, TC0–TC3 (R75). -/
  credits   : List Nat := [0, 0, 0, 0]
  /-- Tick of the last acknowledgement progress while flits were outstanding (R74). -/
  progressUs : Nat := 0
  /-- SEQ of the last DATA flit accepted in order (R72): 0xFFF at reset, so that SEQ 0 is the first that it expects (log entry 154). -/
  rxAck     : BitVec 12 := 0xFFF
  nakSent   : Bool := false
  nakDue    : Bool := false
  trainDue  : Bool := false
  ackOwed   : Bool := false
  /-- Receive buffers freed and not yet reported, TC0–TC3. -/
  freed     : List Nat := [0, 0, 0, 0]
  /-- Packet layer, TC0–TC3. -/
  reasm     : List Reasm := [{}, {}, {}, {}]
  /-- Packets received whole and not yet taken by ingress, oldest first, each with the flit buffers it frees (the edge
  FIFO of R30). -/
  rxq       : List (Packet × Nat) := []
  /-- Packets waiting for this output port, oldest first (R30, R70). -/
  txq       : List Packet := []
  /-- Bytes of packets cut and not yet sent, TC0–TC3, in flits' order; the packet that they end. -/
  cut       : List (List Byte) := [[], [], [], []]
  cutOf     : List (Option Packet) := [none, none, none, none]
  /-- Credits that this end granted at the last training, TC0–TC3 (R75). -/
  granted   : List Nat := [0, 0, 0, 0]
  /-- Flits sent, newest last, that the far router has not been shown: the port's output. -/
  wire      : List Flit := []
  deriving DecidableEq, Repr, Inhabited

/-- A tail record (R80). -/
structure TailRec where
  src    : Coord
  dest   : BitVec 40
  tc     : BitVec 2
  length : Nat
  crc    : BitVec 32
  tail   : List Byte
  /-- Tick at which the packet's last byte left on a port; none while the packet waits there. -/
  leftUs : Option Nat := none
  deriving DecidableEq, Repr, Inhabited

/-- A packet held under R94 or R79: why it waits, since when, how often it was NACKed, its buffer. -/
structure Held where
  pkt     : Packet
  /-- Slot of a RANK packet; none for COORD and NACK packets. -/
  slot    : Option Nat
  /-- NACKs so far (R94: the fourth discards). -/
  nacks   : Nat
  sinceUs : Nat
  /-- true: held until the slot's next switch instant; false: until a port is no longer fenced (R79). -/
  forGen  : Bool
  buf     : Option (Nat × Nat) := none
  /-- Its place in the order in which packets reached the emitting stage (R96). -/
  nr      : Nat := 0
  deriving DecidableEq, Repr, Inhabited

/-- A packet of a SRC, DEST, TC triple that went out within NACK_HOLD: its generation, first port and tick, and its place in the order
in which packets reached the emitting stage (R96). -/
structure Emitted where
  src    : Coord
  dest   : BitVec 40
  tc     : BitVec 2
  gen    : Bool
  port   : Nat
  lastUs : Nat
  nr     : Nat
  deriving DecidableEq, Repr, Inhabited

/-- A FENCE packet held by the guard of R96. -/
structure FenceHeld where
  pkt   : Packet
  slot  : Option Nat
  nr    : Nat
  nacks : Nat := 0
  deriving DecidableEq, Repr, Inhabited

/-- The armed table switch of a slot, or its saddle window, or its copy-forward (R90, R91). -/
inductive GenChange where
  | armed (at_ : Instant) (windowUs : Nat)
  | saddle (untilUs : Nat)
  | copying
  deriving DecidableEq, Repr, Inhabited

/-- A tree entry (R98): 32 bytes. -/
abbrev TreeEntry := BitVec 256

/-- A group entry: 128 bytes (R151). -/
abbrev GroupEntry := BitVec 1024

/-- A policer entry: 32 bytes (R280). -/
abbrev PolicerEntry := BitVec 256

/-- One of the two table generations of a channel: all tables a generation switch governs (R89). Windows are keyed
8 × slot + window, rank entries by physical index. -/
structure Tables where
  windows  : Cells (BitVec 64) := []
  ranks    : Cells (BitVec 128) := []
  trees    : Cells TreeEntry := []
  groups   : Cells GroupEntry := []
  policers : Cells PolicerEntry := []
  deriving DecidableEq, Repr, Inhabited

/-- The fabric block of a channel. -/
structure Fab where
  ports    : Vector Port 4 := Vector.replicate 4 {}
  /-- FENCE_PORT (R104): ports are fenced until training succeeds. -/
  fenced   : BitVec 4 := 0xF
  txSpareFor : Option Nat := none
  rxSpareFor : Option Nat := none
  /-- Lanes that are fenced or failed their port's last training, transmit and receive (R69, R103). -/
  txBad    : BitVec 17 := 0
  rxBad    : BitVec 17 := 0
  tails    : List TailRec := []
  held     : List Held := []
  fences   : List FenceHeld := []
  emitted  : List Emitted := []
  /-- Packets that have reached the emitting stage so far (R96). -/
  emitNr   : Nat := 0
  /-- NACKs steered to NACK handling, oldest first (R94), and how often packets the channel emitted were NACKed, by SRC, DEST,
  TC, LENGTH and CRC of the payload a NACK carries. -/
  nackIn   : List (Packet × Nat × Nat) := []
  nackRuns : List (Coord × BitVec 40 × BitVec 2 × Nat × BitVec 32 × Nat) := []
  /-- Current generation of each slot (R104). -/
  curGen   : BitVec 16 := 0
  changes  : Cells GenChange := []
  gen0     : Tables := {}
  gen1     : Tables := {}
  /-- Block owner table (R88, R101): physical block to slot and slot-relative block. -/
  blocks   : Cells (Nat × Nat) := []
  deriving DecidableEq, Repr, Inhabited

end Sys2Proof
end

