-- ==== Sys2Proof/Types/Mem.lean ====
section
/-! DEFINITION. Staging pools, spill queues and the deep buffer (Staging Pools and Deep Buffer, R106–R150). -/

namespace Sys2Proof

/-- What a pool buffer is allotted to: the system share, a context's reserve, a slot of the slot share (R111), or
withdrawn by parity until the next recovery (R110). -/
inductive Share where
  | system | ctx (k : Nat) | slot (k : Nat) | withdrawn
  deriving DecidableEq, Repr, Inhabited

/-- A staging pool (R106, R108): allotted or withdrawn buffers by index, and MIN_FREE (R142). -/
structure Pool where
  bufs    : Cells Share := []
  minFree : Nat := 0
  deriving DecidableEq, Repr, Inhabited

/-- A buffer: its pool and index. -/
structure Buf where
  pool : Nat
  idx  : Nat
  deriving DecidableEq, Repr, Inhabited

/-- What the bytes of a line-bound or fabric-bound object are (R322, R164). -/
inductive ObjKind where
  | packet | coded | control | collective
  deriving DecidableEq, Repr, Inhabited

/-- An object staged toward the line: its kind, its bytes as they occupy the TU (with the 4-byte object header left
out), the step lane (R263), its buffer, and whether the packer has yet to code it. -/
structure LineObj where
  kind   : ObjKind
  bytes  : List Byte
  /-- The slot's current step when the object passed ingress; its lane is the step modulo 16 (R263). -/
  step   : BitVec 32 := 0
  buf    : Option Buf := none
  /-- MODE that the object's TU carries: 1 Stage, 2 Col. -/
  mode   : Nat := 1
  /-- Format under which the packer is to code the payload before the object joins its flow; 0 = as it is (R198). -/
  code   : Nat := 0
  deriving DecidableEq, Repr, Inhabited

/-- An object staged toward the fabric: the packet, or a coded packet with its blocks (R86, R87), that arrived from the
line for a slot; its place in its TU, and whether it is a copy sent again (R334). -/
structure RxObj where
  kind   : ObjKind
  bytes  : List Byte
  buf    : Option Buf := none
  /-- First TSEQ of the TU that brought it and the TSEQ of its copy (R334). -/
  firstTseq : Nat := 0
  tseq   : Nat := 0
  idx    : Nat := 0
  copy   : Bool := false
  deriving DecidableEq, Repr, Inhabited

/-- An object in a spill queue, toward the line or toward the fabric. -/
inductive Spilled where
  | toLine (o : LineObj)
  | toFabric (o : RxObj)
  deriving DecidableEq, Repr, Inhabited

/-- A spill queue of one slot, class and direction (R115, R116): objects, oldest first, each with its segment and its
byte offset in it; the last segment and how far it is filled. -/
structure SpillQ where
  objs : List (Spilled × Nat × Nat) := []
  tail : Option (Nat × Nat) := none
  deriving DecidableEq, Repr, Inhabited

/-- A requester that waits on a share (R114, R623), in order of first failure: a packet held at a port's ingress, the head of a spill
queue, the packer, or the matrix engine for a context. -/
inductive Waiter where
  | ingress (share : Share) (pool port tc : Nat)
  | ingressSpill (slot port tc : Nat)
  | spillHead (slot cls : Nat) (toLine : Bool) (pool : Nat)
  | packer (slot pool : Nat)
  | operand (slot ctx pool : Nat)
  deriving DecidableEq, Repr, Inhabited

/-- The share whose released buffer ALLOCATION_RETRY offers, or spill space that came free (R623). -/
inductive ShareSel where
  | system | ctx (k : Fin 64) | slots | spill
  deriving DecidableEq, Repr, Inhabited

/-- A retired 4 KiB unit and its replacement in region 8 (R130–R132). -/
structure Retired where
  unit : Nat
  repl : Option Nat
  deriving DecidableEq, Repr, Inhabited

/-- The region metadata that a self-refresh entry writes before CLEAN (R135): ring pointers of regions 0, 5 and 6, and the retired units. -/
structure RegionMeta where
  rtxPos  : Nat
  provWr  : Nat
  histWr  : Nat
  retired : List Retired
  deriving DecidableEq, Repr, Inhabited

/-- Where the LPDDR6 interface stands (R135–R140). -/
inductive MemPhase where
  /-- Not trained. -/
  | off
  | up
  | entering (sinceUs : Nat)
  | selfRefresh
  /-- Left, retraining; retrained in full; scrubbing before release (R138–R140). -/
  | leaving
  | fullTraining
  | scrubbing
  | failed
  deriving DecidableEq, Repr, Inhabited

/-- The deep buffer of a channel. Region 7 holds bytes by region offset; the other regions' contents are held by the
blocks that own them. -/
structure Mem where
  pools    : Vector Pool 4 := Vector.replicate 4 {}
  waiters  : List Waiter := []
  /-- Spill queues, keyed 4 × slot + 2 × (class = 3) + (toward fabric). -/
  spill    : Cells SpillQ := []
  /-- Second at which POOL_STAGE_SPILL was last raised is kept by the recorder (R576). -/
  phase    : MemPhase := .off
  chUp     : BitVec 16 := 0
  unclean  : Bool := false
  /-- The CLEAN flag of the region metadata (R135). -/
  clean    : Bool := false
  /-- The rest of the region metadata, as last written (R135). -/
  regMeta  : Option RegionMeta := none
  retired  : List Retired := []
  /-- Units of region 8 that have been retired (R131), and units whose rows have taken hard repair, which survives power-off (R134). -/
  worn     : List Nat := []
  hard     : List Nat := []
  /-- Units whose pattern test runs, and units whose remap copy runs, with the replacement (R130, R131). -/
  testing  : List Nat := []
  copying  : List (Nat × Nat) := []
  /-- Lines whose first read failed its check and whose second read has not ended (R129). -/
  rereads  : List Nat := []
  /-- 32-byte lines lost under R129 and not written since, by line number. -/
  lost     : List Nat := []
  lastErr  : Nat := 0
  region7  : Cells Byte := []
  /-- Check words of the lines of region 7 that have been written, by line number (R118). -/
  checks   : Cells (BitVec 32) := []
  deriving DecidableEq, Repr, Inhabited

end Sys2Proof
end

