-- ==== Sys2Proof/Types/Collective.lean ====
section
/-! DEFINITION. Communicators, instances, messages and talus of the collective engine and the codec (Cross-Site
Collectives, R151–R193; Compression and Error Feedback, R195–R232). -/

namespace Sys2Proof

/-- An exclusion entry: a coordinate and a wildcard mask (R152). -/
abbrev ExclEntry := BitVec 48

/-- The collective header (R164). -/
structure ColHdr where
  ctype    : BitVec 8
  fmt      : BitVec 8 := 0
  comm     : BitVec 16
  seq      : BitVec 32
  chunk    : BitVec 32 := 0
  ncontrib : BitVec 16 := 0
  attempt  : BitVec 8 := 0
  pepoch   : BitVec 8 := 0
  deriving DecidableEq, Repr, Inhabited

/-- The COL_COMM_OPEN body (R155), with its reserved bytes and its length in bytes. -/
structure CommBody where
  comm       : BitVec 16
  group      : BitVec 16
  algo       : BitVec 8
  fmt        : BitVec 8
  role       : BitVec 8
  codec      : BitVec 8
  childIn    : BitVec 8
  rootOrLen  : BitVec 8
  resultTree : BitVec 16
  fwdTree    : BitVec 16
  rate       : BitVec 16
  alignUs    : BitVec 16
  pullUs     : BitVec 16
  graceUs    : BitVec 16
  dlMult     : BitVec 8
  rsvd23     : BitVec 8 := 0
  notify     : Coord
  rsvd29     : BitVec 24 := 0
  /-- RING_ORDER, 64 bytes of a RING body; empty in a TREE body. -/
  ringOrder  : List Byte := []
  deriving DecidableEq, Repr, Inhabited

/-- The COL_START body (R157). -/
structure StartBody where
  comm     : BitVec 16
  rsvd2    : BitVec 16 := 0
  seq      : BitVec 32
  step     : BitVec 32
  shard    : BitVec 16
  rsvd14   : BitVec 16 := 0
  chunks   : BitVec 32
  expectUs : BitVec 32
  deriving DecidableEq, Repr, Inhabited

/-- The CODEC_BIND body (R216). -/
structure BindBody where
  comm    : BitVec 16
  shardLo : BitVec 16
  shardCnt : BitVec 16
  rsvd    : BitVec 16 := 0
  chunks  : BitVec 32
  rows    : BitVec 32
  cols    : BitVec 32
  deriving DecidableEq, Repr, Inhabited

/-- The body of CODEC_UNBIND and of LEDGER_UNBIND. -/
structure UnbindBody where
  comm : BitVec 16
  lo   : BitVec 16
  cnt  : BitVec 16
  rsvd : BitVec 16 := 0
  deriving DecidableEq, Repr, Inhabited

/-- An open communicator (R154, R192). -/
structure Comm where
  /-- Index in the communicator table (R192; log entry 158). -/
  idx     : Nat := 0
  slot    : Nat
  body    : CommBody
  live    : List ExclEntry := []
  lastSeq : BitVec 32 := 0
  /-- Instances, not started yet, whose first DEMAND has been answered with a LATE (R172). -/
  warned  : List (BitVec 32) := []
  deriving DecidableEq, Repr, Inhabited

/-- Where an input of a chunk came from: a local owner, the peer, a sibling channel of the site, or the channel's own factors (R169,
R223). -/
inductive InSrc where
  | owner (c : Coord) | peer | sibling (c : Coord) | own
  deriving DecidableEq, Repr, Inhabited

/-- A chunk's accumulator (R169, R171): the inputs it has taken and their sum so far; `bytes` is none while only empty
PARTIALs have come. -/
structure Acc where
  srcs     : List InSrc := []
  ncontrib : Nat := 0
  bytes    : Option (List Byte) := none
  buf      : Option Buf := none
  deriving DecidableEq, Repr, Inhabited

/-- A pull or a demand that waits for its delay (R165, R166): due tick, first chunk, count. -/
structure Delayed where
  dueUs : Nat
  first : Nat
  count : Nat
  deriving DecidableEq, Repr, Inhabited

/-- Progress of a low-rank instance at a reducing channel in the current attempt (R223, R226, R245). Factor values are codes of FMT,
row-major. -/
structure LowRank where
  /-- Dense chunks whose M_s is in the working copy; the largest local count added to one of them. -/
  dense    : List Nat := []
  maxCount : Nat := 0
  nextPull : Nat := 0
  /-- P_s once formed, P̂ once formed or held whole, Q_s once RESID has completed, Q once formed or held whole. -/
  ps       : Option (List Nat) := none
  phat     : Option (List Nat) := none
  qs       : Option (List Nat) := none
  offered  : Bool := false
  q        : Option (List Nat) := none
  /-- Chunks of the sum P at the root; result chunks of P and of Q, by index. -/
  psum     : Cells (List Byte) := []
  pres     : Cells (List Byte) := []
  qres     : Cells (List Byte) := []
  ncontrib : Nat := 0
  /-- A descriptor of the attempt was discarded: the instance does not complete here in it (R253). -/
  bad      : Bool := false
  deriving DecidableEq, Repr, Inhabited

/-- A reconcile instance (R485): none at a channel that is no end of the lost span. -/
inductive Recon where
  | no | pass | merge | anchor
  deriving DecidableEq, Repr, Inhabited

/-- One context: a running instance (R157, R158, R190). Chunks stand as CHUNK of the header gives them, phase in [31:30] (R222). -/
structure Ctx where
  /-- STATE 2: the end waits for the cairn queue, or for buffers of the context to be freed (R190, R411). -/
  ending   : Bool := false
  /-- The END waits for the cairn queue (R411). -/
  queued   : Bool := false
  slot     : Nat
  comm     : BitVec 16
  body     : CommBody
  group    : GroupEntry
  pepoch   : BitVec 8
  seq      : BitVec 32
  step     : BitVec 32
  shard    : BitVec 16
  chunks   : Nat
  expectUs : Nat
  /-- Started in drift (R477): the span is cut, and a REDUCER stands as the ROOT of its side. -/
  drift    : Bool := false
  recon    : Recon := .no
  live     : List ExclEntry
  /-- The slot's generation has switched since the start: the live set is not carried over (R158, R183). -/
  regen    : Bool := false
  attempt  : Nat := 0
  /-- Tick of the start or of the last ABORT (R179). -/
  baseUs   : Nat
  accs     : Cells Acc := []
  /-- Next chunk to demand, and the tick from which RATE counts (R165); ledger chunks sent (R485). -/
  nextDem  : Nat := 0
  demUs    : Nat
  sent     : Nat := 0
  pulls    : List Delayed := []
  demands  : List Delayed := []
  /-- Ranges pulled, ranges demanded of the peer, and the chunks that came from it. -/
  pulled   : List (Nat × Nat) := []
  asked    : List (Nat × Nat) := []
  fromPeer : List Nat := []
  /-- Chunks sent on as partials or formed as results, at the packer or gone; result chunks delivered or passed on. -/
  done     : List Nat := []
  results  : List Nat := []
  /-- Expanded result chunks that crossed the span, with their NCONTRIB (R188, R478). -/
  crossed  : Cells (Nat × List Byte) := []
  /-- LATE reports received in this attempt (R181, R184). -/
  lateEnts : List ExclEntry := []
  lateOver : Bool := false
  /-- Sites reported not started and from which nothing has come since (R181 row 2), and the way the report came. -/
  notStarted : List (ExclEntry × InSrc) := []
  peerLate : Bool := false
  sent1    : Bool := false
  sent2    : Bool := false
  lowrank  : LowRank := {}
  /-- MTX_RANK_DEFICIENT has been raised for the instance (R248). -/
  deficient : Bool := false
  deriving DecidableEq, Repr, Inhabited

/-- A collective message as it comes to the engine: slot, sender, header and body in its line form (R164, R200). `line` tells that it
came from the peer. -/
structure ColMsg where
  slot : Fin 16
  line : Bool
  src  : Coord := 0
  hdr  : ColHdr
  body : List Byte
  deriving DecidableEq, Repr, Inhabited

/-- A collective message that waits for the engine, with its buffer (R622) and, from the line, its first TSEQ and its copy's;
whether it is a copy sent again (R334). -/
structure ColIn where
  msg   : ColMsg
  buf   : Option Buf := none
  first : Nat := 0
  tseq  : Nat := 0
  copy  : Bool := false
  deriving DecidableEq, Repr, Inhabited

/-- What waits at the packer (R198–R200): a flow's object, a chunk of an instance to go out as a PARTIAL or as the RESULT formed here, or
a ledger chunk of a reconcile instance: ~l to the peer, or, as a RESULT, a correction to the siblings (R485, R487). -/
inductive PackJob where
  | object (slot cls : Nat) (o : LineObj)
  | chunk (ctx attempt : Nat) (chunk ncontrib : Nat) (raw : List Byte) (buf : Option Buf)
  | recon (ctx chunk : Nat) (result : Bool) (raw : List Byte)
  deriving DecidableEq, Repr, Inhabited

/-- What waits at the expander (R208): an object from the line for a slot's flow, or a collective message; those that need no
expansion wait for the ones before them. -/
inductive ExpJob where
  | packet (slot cls : Nat) (o : RxObj)
  | chunk (x : ColIn)
  deriving DecidableEq, Repr, Inhabited

/-- A DEMAND for an instance that has not started (R172). -/
structure PendDemand where
  msg   : ColMsg
  atUs  : Nat
  deriving DecidableEq, Repr, Inhabited

/-- A talus extent (R217, R232) with both copies of its residual chunks; unlisted chunks are zero. For low-rank shards the
factor Q_prev, in values of FMT, is kept with each copy, and the reseed record of R251. -/
structure Extent where
  /-- Index in the extent table. -/
  idx     : Nat
  slot    : Nat
  comm    : BitVec 16
  shard   : BitVec 16
  baseMib : Nat
  sizeMib : Nat
  chunks  : Nat
  rows    : Nat := 0
  cols    : Nat := 0
  lowrank : Bool := false
  /-- Which copy is committed (R232 COMMIT): false lower half, true upper half. -/
  commit  : Bool := false
  lower   : Cells (List Byte) := []
  upper   : Cells (List Byte) := []
  qLower  : List Nat := []
  qUpper  : List Nat := []
  /-- Reseed records (R251): columns marked, and the seed, committed and working. -/
  maskLo  : BitVec 64 := 0
  maskHi  : BitVec 64 := 0
  seedLo  : BitVec 32 := 0
  seedHi  : BitVec 32 := 0
  /-- The columns marked in the committed record have been counted (R251). -/
  seen    : Bool := false
  deriving DecidableEq, Repr, Inhabited

/-- The collective engine of a channel. -/
structure Col where
  comms   : List Comm := []
  ctxs    : Cells Ctx := []
  pending : List PendDemand := []
  inq     : List ColIn := []
  deriving DecidableEq, Repr, Inhabited

/-- Packer, expander and talus of a channel. -/
structure Codec where
  /-- Flow formats (R198), keyed 4 × slot + class; unlisted is off. -/
  flows   : Cells Nat := []
  extents : List Extent := []
  packQ   : List PackJob := []
  expQ    : List ExpJob := []
  /-- Bytes not yet making a whole KiB in RAW_IN_KIB and LINE_OUT_KIB (R231). -/
  rawRem  : Nat := 0
  outRem  : Nat := 0
  deriving DecidableEq, Repr, Inhabited

end Sys2Proof
end

