-- ==== Sys2Proof/Types/Health.lean ====
section
/-! DEFINITION. Units, scores and the sentinel of a channel, and drift and reconciliation (Partitions, Drift and Unit Health). -/

namespace Sys2Proof

/-- State of a unit (R512). -/
inductive UnitSt where
  | healthy | suspect | held | fenced | permanent | testing
  deriving DecidableEq, Repr, Inhabited

/-- A sentinel charge (R505): tick, temperature bin, load bin. -/
structure Charge where
  atMs : Nat
  temp : Nat
  load : Nat
  deriving DecidableEq, Repr, Inhabited

/-- One unit of a class. The demerit D is in units of 2⁻³² (log entry 30). -/
structure HUnit where
  st        : UnitSt := .healthy
  demerit   : Nat := 0
  charges   : List Charge := []
  /-- Fences: tick from which the two tests are counted, tests passed since (R502); tick of the last readmission. -/
  fencedMs  : Nat := 0
  passes    : Nat := 0
  readmitMs : Option Nat := none
  /-- A refusal was reported in this episode; tick of the last request (R500, R501). -/
  refused   : Bool := false
  askedMs   : Nat := 0
  deriving DecidableEq, Repr, Inhabited

/-- A fence granted and not yet in effect (R500): class, unit, tick of the request. -/
structure FenceReq where
  cls   : Nat
  unit  : Nat
  us    : Nat
  deriving DecidableEq, Repr, Inhabited

/-- A sentinel mismatch that waits for its third run (R504): the unit that first ran the item, both outputs, bins, tick. -/
structure Mismatch where
  stream : Nat
  unit   : Nat
  first  : List Byte
  second : List Byte
  temp   : Nat
  load   : Nat
  us     : Nat
  deriving DecidableEq, Repr, Inhabited

/-- The health monitor of a channel. -/
structure Hlth where
  /-- Units listed by key 64 × class + unit; an unlisted unit is healthy with no demerit. -/
  units  : Cells HUnit := []
  /-- The unit that the spare of class 0, 1, 2 or 5 stands in for (R40, R41). -/
  spare  : Cells Nat := []
  granted : List FenceReq := []
  /-- Classes and ticks of the fences that took effect (R500). -/
  fences : List (Nat × Nat) := []
  mismatches : List Mismatch := []
  /-- Minutes whose decay has been applied (R498). -/
  decays : Nat := 0
  /-- Tick of the last update of RATE_MON (R29). -/
  rateMs : Nat := 0
  deriving DecidableEq, Repr, Inhabited

/-! ### Drift and reconciliation (R474–R490) -/

/-- The ACTION of a shard (R483). -/
inductive Action where
  | merge | anchor | reload
  deriving DecidableEq, Repr, Inhabited

/-- The DRIFT_OFFER body (R482). -/
structure OfferBody where
  job     : BitVec 32
  comm    : BitVec 16
  shard   : BitVec 16
  index   : BitVec 16
  count   : BitVec 16
  lastSeq : BitVec 32
  step    : BitVec 32
  n       : BitVec 16
  flags   : BitVec 8
  rsvd    : BitVec 8 := 0
  deriving DecidableEq, Repr, Inhabited

/-- A shard in drift at this end (R474, R482–R489). -/
structure DriftShard where
  slot   : Nat
  comm   : BitVec 16
  shard  : BitVec 16
  /-- Own offer, once made, and whether the peer has acknowledged it; tick at which it was last sent. -/
  mine   : Option OfferBody := none
  acked  : Bool := false
  sentUs : Nat := 0
  peer   : Option OfferBody := none
  action : Option Action := none
  deriving DecidableEq, Repr, Inhabited

/-- Drift of a slot (R474, R480, R509). -/
structure Drift where
  /-- Tick of the entry, STEP_MARKs since it, the limit sent. -/
  sinceMs : Nat
  steps   : Nat := 0
  limit   : Bool := false
  /-- This end is the far end of the span (R476). -/
  far     : Bool
  /-- Later of the STEP values of the offers, once one has come (R489). -/
  step    : Option (BitVec 32) := none
  deriving DecidableEq, Repr, Inhabited

/-- A ledger extent (R478, R479, R510). Unlisted elements are +0; elements are FP32 codes by index. -/
structure Ledger where
  /-- Index in the extent table. -/
  idx     : Nat
  slot    : Nat
  comm    : BitVec 16
  shard   : BitVec 16
  baseMib : Nat
  sizeMib : Nat
  chunks  : Nat
  n       : Nat := 0
  sums    : Cells Nat := []
  /-- A line of it was lost (R129): the extent is ledger-lost. -/
  lost    : Bool := false
  deriving DecidableEq, Repr, Inhabited

/-- An armed change of epoch or of mode, and the windows and instants after it (R63, R491–R496). -/
structure EpochChange where
  to_      : BitVec 8
  at_      : Instant
  windowUs : Nat
  /-- Tick at which the saddle window closes, once it is open. -/
  saddle   : Option Nat := none
  deriving DecidableEq, Repr, Inhabited

/-- A mode change (R493–R496). -/
structure ModeChange where
  /-- true: to Col. -/
  toCol    : Bool
  opts     : BitVec 8
  at_      : Instant
  rev      : Instant
  windowUs : Nat
  /-- Options of the old mode, restored at REV. -/
  oldOpts  : BitVec 8 := 0
  saddle   : Option Nat := none
  /-- ACT has passed, with the change applied; a miss was recorded; PART_REVERT came; the return was made. -/
  acted    : Bool := false
  applied  : Bool := false
  missed   : Bool := false
  revert   : Bool := false
  reverted : Bool := false
  deriving DecidableEq, Repr, Inhabited

/-- Partition state of a channel. -/
structure Part where
  drifts  : Cells Drift := []
  shards  : List DriftShard := []
  ledgers : List Ledger := []
  epochs  : Cells EpochChange := []
  modes   : Cells ModeChange := []
  /-- ACT of the last miss that a slot with no change armed recorded, as the message gave it (R495). -/
  unarmed : Cells (BitVec 80) := []
  deriving DecidableEq, Repr, Inhabited

end Sys2Proof
end

