-- ==== Sys2Proof/Types/Recorder.lean ====
section
/-! DEFINITION. The data an event recorder holds: raised events, records, metric windows, seals (Event Recorder, R572–R601). -/

namespace Sys2Proof

/-- An event as the raising stage hands it to its recorder's input. A field that does not apply is all ones (R572). -/
structure Raised where
  ev      : Ev
  plane   : Plane := .data
  slot    : Nat := 0xFF
  uclass  : Nat := 0xFF
  unit    : Nat := 0xFF
  job     : Nat := 0xFFFFFFFF
  comm    : Nat := 0xFFFF
  shard   : Nat := 0xFFFF
  seq     : Nat := 0xFFFFFFFF
  step    : Nat := 0xFFFFFFFF
  addr    : Nat := 0xFFFFFFFFFFFFFFFF
  value   : Nat := 0xFFFFFFFF
  raw     : List Byte := []
  /-- The scope in which R576 limits the code: a slot, unit, policer, communicator or mailbox number; 0 for the channel. -/
  scope   : Nat := 0
  /-- R464: the event is counted as a boundary event. -/
  boundary : Bool := false
  deriving DecidableEq, Repr, Inhabited

/-- An event record (R572). -/
structure EvtRec where
  rseq   : Nat
  sev    : Sev
  code   : Nat
  stamp  : Instant
  unc    : Nat
  ch     : Nat
  reps   : Nat
  body   : Raised
  deriving DecidableEq, Repr, Inhabited

/-- A metric's window of 1 s, 60 s or 3,600 s (R582, R585). MIN, MAX and SUM are signed. -/
structure MetricWin where
  startS   : Nat := 0
  bins     : List Nat := List.replicate 16 0
  mn       : Int := 0x7FFFFFFF
  mx       : Int := -0x80000000
  count    : Nat := 0
  sum      : Int := 0
  boundary : Nat := 0
  late     : Bool := false
  stepEnd  : Bool := false
  deriving DecidableEq, Repr, Inhabited

/-- A window record (R585): metric, length 0–2, and the window. -/
structure WinRec where
  rseq   : Nat
  metric : Nat
  wlen   : Nat
  win    : MetricWin
  deriving DecidableEq, Repr, Inhabited

/-- A record of the event history in region 6 (R586, R587): an event, a window, or a lost record (KIND 3). -/
inductive HistRec where
  | event (r : EvtRec)
  | window (r : WinRec)
  | lost (rseq code : Nat) (sev : Sev)
  deriving DecidableEq, Repr, Inhabited

/-- The last record written of a rate-limited code in one scope (R576), by the recorder's 1 ms tick count. -/
structure LimitMark where
  code  : Nat
  scope : Nat
  atMs  : Nat
  deriving DecidableEq, Repr, Inhabited

/-- A seal in progress (R589, R591, R592): the records still to program, the first `carry` of which are carried from the sector that is
to be erased next; whether that erase runs; RSEQ after the last record considered, which SEAL_SEQ takes when the seal ends. -/
structure SealRun where
  todo     : List EvtRec
  carry    : Nat := 0
  erase    : Option Nat := none
  erasing  : Bool := false
  upto     : Nat
  deriving DecidableEq, Repr, Inhabited

/-- An event recorder: a channel's, or the module's. -/
structure Recorder where
  /-- Events handed to the input and not yet taken, in order of arrival. -/
  input    : List Raised := []
  rseq     : Nat := 0
  /-- Ring slots in use: slot number and record (R578). -/
  ring     : Cells EvtRec := []
  /-- REPEAT not yet reported, by CODE (R576). -/
  suppressed : Cells Nat := []
  limits   : List LimitMark := []
  irq      : Bool := false
  /-- Open windows, keyed 3 × metric + length. -/
  openW    : Cells MetricWin := []
  /-- Windows whose end has passed while a later one is open already, same keys (R583). -/
  closing  : Cells MetricWin := []
  /-- Second up to which windows have been closed (R583). -/
  closedS  : Nat := 0
  /-- Last closed windows, keyed 3 × metric + length (R595). -/
  closedW  : Cells MetricWin := []
  /-- Event history slots, keyed RSEQ mod CAP (R586). -/
  hist     : Cells HistRec := []
  histWr   : Nat := 0
  /-- RSEQ of records not yet copied to the history, oldest first (R587). -/
  owed     : List Nat := []
  /-- Window records waiting for the history, at most 64 (R587). -/
  winQueue : List WinRec := []
  /-- Records that left before they were copied: RSEQ, CODE, severity (KIND 3, R587). -/
  lostQueue : List (Nat × Nat × Sev) := []
  /-- Seals, R588–R592. -/
  sealSeq  : Nat := 0
  sealing  : Option SealRun := none
  sealReq  : Bool := false
  sealFails : Nat := 0
  sealStop : Bool := false
  lastSealS : Nat := 0
  deriving DecidableEq, Repr, Inhabited

/-- The recorder of a channel whose cold restart waits for its pending seal: the recorder with its ring, EVR.CFG, and the tick at which the
restart began (R593). -/
structure OldEvr where
  r     : Recorder
  cfg   : BitVec 32
  since : Nat
  deriving DecidableEq, Repr, Inhabited

/-- One sector of a sealed area (R590): its SSEQ once the header is written, and the record pages 1–255 programmed so far;
a page that failed verification holds none. -/
structure SealSector where
  sseq   : Option Nat := none
  pages  : List (Option EvtRec) := []
  deriving DecidableEq, Repr, Inhabited

/-- A sealed area of the configuration memory (R590): sectors in use by number, head sector, newest SSEQ. -/
structure SealArea where
  sectors : Cells SealSector := []
  head    : Nat := 0
  nextSseq : Nat := 0
  deriving DecidableEq, Repr, Inhabited

end Sys2Proof
end

