-- ==== Sys2Proof/Types/Hub.lean ====
section
/-! DEFINITION. Hub-die state of the host port and of the board pins (Host Port and Register Map; Module, Pins and
Electrical Limits), and the operands of their commands. -/

namespace Sys2Proof

/-- The source of a violation (R558, byte 0). -/
inductive ViolSource where
  | hostIo | hostMem | chFirmware | hubFirmware | fabric | line | trigger | dmaGuard | xspi
  deriving DecidableEq, Repr, Inhabited

/-- A source inside the module: its access is answered by an error status, not by a completion or a NACK (R557). -/
def ViolSource.inside : ViolSource → Bool
  | .chFirmware | .hubFirmware | .trigger | .dmaGuard | .xspi => true
  | .hostIo | .hostMem | .fabric | .line => false

/-- The kind of a violation (R558, byte 2). -/
inductive ViolKind where
  | absentUnit | sealedField | readOnly | reservedOrAlign | keyStore | badValue | outsidePlan | outsideDma
  | outsideHistory | inbandRule | mailboxRoute
  deriving DecidableEq, Repr, Inhabited

/-- A violation as its source reports it (R558). `ch` is 0–7, or 0xFF for the module. -/
structure Viol where
  source : ViolSource
  ch     : Nat
  kind   : ViolKind
  write  : Bool := true
  addr   : Nat
  coord  : Coord := 0
  stamp  : Instant := 0
  deriving DecidableEq, Repr, Inhabited

/-- An entry of GLB.VIOL_LOG (R558), with the REPEAT count of R559. -/
structure ViolEntry where
  viol : Viol
  reps : Nat := 0
  deriving DecidableEq, Repr, Inhabited

/-- One mailbox (R563, R565, R570): the notice's four words and its flags. `sinceMs` is the hub tick of the post. -/
structure Mailbox where
  words   : Vector Word 4 := Vector.replicate 4 0
  full    : Bool := false
  taken   : Bool := false
  to_     : Bool := false
  drop    : Bool := false
  sinceMs : Nat := 0
  /-- The D2H sender's own flags: its last notice was taken, or a post of its was refused on a full mailbox. -/
  senderTaken : Bool := false
  senderDrop  : Bool := false
  deriving DecidableEq, Repr, Inhabited

/-- A device-side mailbox party (R564). -/
inductive Party where
  | none | hubFw | chFw (ch : Nat) | sequencer (ch : Nat)
  deriving DecidableEq, Repr, Inhabited

/-- HOSTSTAT.MODE (R561). -/
inductive LinkMode where
  | down | cxl | pcieOnly
  deriving DecidableEq, Repr, Inhabited

/-- The answer to an HDM access (R556): all ones, poison, data, a write done, a write discarded, or an error. -/
inductive HdmRsp where
  | none | ones | poison | data (bytes : List Byte) | written | dropped | error
  deriving DecidableEq, Repr, Inhabited

/-- Host-port state (R549–R571). -/
structure HostPort where
  mode     : LinkMode := .down
  width    : Nat := 0
  rate     : Nat := 0
  cacheEn  : Bool := false
  memEn    : Bool := false
  ideIo    : Bool := false
  ideCm    : Bool := false
  ideKeyed : Bool := false
  /-- The violation log ring: entry i at key i mod 64 (R558), and VIOL_WR. -/
  violLog  : Cells ViolEntry := []
  violWr   : BitVec 32 := 0
  /-- Completer Abort errors of posted writes reported through AER so far (R557). -/
  aborts   : Nat := 0
  /-- Uncorrectable non-fatal errors signalled through the CXL RAS capability so far (R556). -/
  ras      : Nat := 0
  /-- Error statuses given to hub firmware and to xSPI accesses (R557). -/
  errs     : Nat := 0
  h2d      : Vector Mailbox 32 := Vector.replicate 32 {}
  d2h      : Vector Mailbox 32 := Vector.replicate 32 {}
  /-- MSI-X vectors masked, pending, and the messages signalled so far by vector (R571). -/
  masked   : BitVec 64 := BitVec.allOnes 64
  msiPend  : BitVec 64 := 0
  msiSent  : Cells Nat := []
  /-- The answer to the last HDM access, and the last CDAT answer: read latency in ns and GB/s of a slice (R549, R556). -/
  hdm      : HdmRsp := .none
  cdat     : Option (Nat × Nat) := Option.none
  deriving DecidableEq, Repr, Inhabited

/-- Board pins and power (R605–R617, R619). Pin fields hold the level, true = high. -/
structure Power where
  vinOk     : Bool := false
  /-- Input switch: open after overvoltage (R605), or latched off (R606). -/
  ovOpen    : Bool := false
  latched   : Bool := false
  modRstN   : Bool := true
  pwrgd     : Bool := false
  laserEnN  : Bool := true
  /-- Channels that tripped and whose die has not cooled below 90 °C (R616). -/
  hot       : BitVec 8 := 0
  /-- A die exceeds THERM_T (R617). -/
  thermLow  : Bool := false
  smbAddr   : Nat := 0
  /-- The last SMBus block read's answer, least significant byte first; none = not acknowledged (R621). -/
  smbOut    : Option Word := none
  deriving DecidableEq, Repr, Inhabited

/-- What the SPDM responder last answered (R425, R426): an ERROR names its SPDM error code. -/
inductive SpdmRsp where
  | none
  | version (vs : List (BitVec 8))
  | capabilities
  | algorithms
  | digests (slots : List (Nat × BitVec 256))
  | certificate (slot : Nat) (bytes : List Byte)
  | challengeAuth (slot : Nat) (nonce : BitVec 256) (sig : BitVec 512)
  | measurements (blocks : List (Nat × Nat × BitVec 256)) (sig : Option (BitVec 512))
  | keyExchange (session : Nat)
  | finish
  | heartbeat
  | endSession
  | error (code : Nat)
  deriving DecidableEq, Repr, Inhabited

/-- The SPDM responder of the hub (R425, R562): how far the connection is negotiated (0 nothing, 1 version, 2 capabilities,
3 algorithms), the version, the sessions that await FINISH and those open, certificate chains by slot, and the last answer. -/
structure Spdm where
  stage    : Nat := 0
  ver      : BitVec 8 := 0
  pendingS : List Nat := []
  openS    : List Nat := []
  nextS    : Nat := 1
  slot0    : List Byte := []
  slot1    : List Byte := []
  rsp      : SpdmRsp := .none
  deriving DecidableEq, Repr, Inhabited

/-- Who makes a register access: the host over CXL.io, or firmware on the hub or on a channel's management cores. -/
inductive Master where
  | host | hubFw | chFw (ch : Nat)
  deriving DecidableEq, Repr, Inhabited

/-- A BAR of the host port (R552). -/
inductive Bar where
  | bar0 | bar2
  deriving DecidableEq, Repr, Inhabited

end Sys2Proof
end

