-- ==== Sys2Proof/Types/Sched.lean ====
section
/-! DEFINITION. Scheduler, shapers and policers (Classes, Scheduling and Policing, R261–R292). -/

namespace Sys2Proof

/-- A transfer unit as the scheduler hands it to the cipher engine: class, slot, body in the clear (R275, R322). -/
structure Tu where
  tc   : Nat
  slot : Nat := 0
  sys  : Bool := false
  /-- MODE of the TU header (R321). -/
  mode : Nat := 0
  body : List Byte
  /-- Bytes that the shapers count: those its objects occupy (R270). -/
  bytes : Nat := 0
  /-- Buffers that hold its objects. -/
  buf  : List Buf := []
  deriving DecidableEq, Repr, Inhabited

/-- A selection on its way to the cipher engine: a first send, or a re-send of the record with this first TSEQ (R273); the
section of the open TC3 TU at which it is sent, when it suspends one (R277). -/
structure Selected where
  tu     : Option Tu := none
  resend : Option Nat := none
  susp   : Option Nat := none
  deriving DecidableEq, Repr, Inhabited

/-- A flow: one slot and class (R263). -/
structure Flow where
  objs   : List LineObj := []
  tag    : BitVec 64 := 0
  bucket : Int := 0
  deriving DecidableEq, Repr, Inhabited

/-- The policer buckets of an index, in bits (R282). -/
structure Buckets where
  tc : Int := 0
  tp : Int := 0
  deriving DecidableEq, Repr, Inhabited

/-- The TC3 TU being sent (R277): 256-byte sections in all, the boundary reached, and whether it is suspended there. -/
structure Open3 where
  sections  : Nat
  at_       : Nat := 1
  suspended : Bool := false
  deriving DecidableEq, Repr, Inhabited

/-- The scheduler of a channel. -/
structure Sch where
  /-- Flows, keyed 4 × slot + class. -/
  flows    : Cells Flow := []
  /-- V_c and the class buckets, TC0–TC3. -/
  vtime    : List (BitVec 64) := [0, 0, 0, 0]
  classB   : List Int := [0, 0, 0, 0]
  sysFifo  : List Tu := []
  /-- TU that waits at the head of the control sequencer's output, and those behind it (R265). -/
  stalled  : List Tu := []
  /-- Tick at which the sequencer began to wait (R265, R531). -/
  stallUs  : Nat := 0
  resends  : List (Nat × Nat) := []
  rline    : Nat := 0
  /-- R_line in force when the last 1 µs tick was delivered: what the floors are set at (R267, R269). -/
  tickRline : Nat := 0
  peerNet  : Nat := 0
  open3    : Option Open3 := none
  toCipher : List Selected := []
  /-- Policer buckets by index, and the system policer's (R283, R287). -/
  pol      : Cells Buckets := []
  sysPol   : Buckets := {}
  deriving DecidableEq, Repr, Inhabited

end Sys2Proof
end

