-- ==== Sys2Proof/Types/Line.lean ====
section
/-! DEFINITION. Line frame, FEC, relay signalling, tributaries and selective repeat (Line Frame, FEC and Retransmission,
R293–R338). -/

namespace Sys2Proof

/-- Lane alignment (R305). -/
inductive Align where
  | hunt | presync | sync
  deriving DecidableEq, Repr, Inhabited

/-- One logical lane's receiver (R304–R307): alignment, counts, and the tick since which it has reported loss of light. -/
structure Lane where
  align  : Align := .hunt
  good   : Nat := 0
  bad    : Nat := 0
  dark   : Bool := true
  darkUs : Nat := 0
  /-- MFAS last read on the lane and its skew in ns behind the earliest lane. -/
  mfas   : BitVec 8 := 0
  skewNs : Nat := 0
  /-- Tick since which the lane has not been in SYNC (R366). -/
  outUs  : Nat := 0
  /-- The unit that came on one lane of an OOK pair and waits for the other's: whether on the first lane, and its half of the FAS bits
  (R294, R304). -/
  half   : Option (Bool × BitVec 24) := none
  deriving DecidableEq, Repr, Inhabited

/-- Line states (R308). -/
inductive LineState where
  | downLos | downLof | rxUp | up
  deriving DecidableEq, Repr, Inhabited

/-- An upstream relay leg (R314, R315): in AIS, last SITE reported, tick of the last STATE = 1. -/
structure Leg where
  inAis  : Bool := false
  site   : BitVec 8 := 0
  lastUs : Nat := 0
  /-- Superframe in which the leg's last AIS TU was sent (R315). -/
  tuSuper : Option Nat := none
  deriving DecidableEq, Repr, Inhabited

/-- A range of TSEQs, as NAK and GONE carry it (R299). -/
structure Range where
  first : Nat
  count : Nat
  deriving DecidableEq, Repr, Inhabited

/-- A run of stream bytes (R323): whether it begins with a TU header, and the TSEQ whose element ends with its last byte. -/
structure Seg where
  header : Bool := false
  bytes  : List Byte
  ends   : Option Nat := none
  deriving DecidableEq, Repr, Inhabited

/-- A line element (R322), whole: 12-byte header, ORIG when RSND is set, ciphertext body, tag. -/
structure Element where
  tc     : BitVec 2
  slot   : BitVec 4
  sys    : Bool := false
  rsnd   : Bool := false
  len    : Nat
  kepoch : BitVec 8
  tseq   : Nat
  mode   : BitVec 2 := 0
  prev   : Nat := 0
  orig   : Nat := 0
  body   : List Byte
  tag    : List Byte
  deriving DecidableEq, Repr, Inhabited

/-- A retransmission record (R126, R331, R395): the TU in the clear, under which sequence numbers and epoch it was sent. -/
structure RtxRec where
  first   : Nat
  latest  : Nat
  kepoch  : BitVec 8
  prev    : Nat
  tu      : Tu
  pos     : Nat
  size    : Nat
  /-- Line-up time of the latest send, µs (R331). -/
  sentUs  : Nat
  lost    : Bool := false
  queued  : Bool := false
  /-- JOB_ID of the slot at the first send, 0 for a system TU: what R57 waits for. -/
  job     : BitVec 32 := 0
  /-- Sequence numbers used before the latest re-encryption (R332). -/
  older   : List Nat := []
  deriving DecidableEq, Repr, Inhabited

/-- A hole at the receiver (R329, R330): when found and last reported, in line-up µs, and how often. -/
structure Hole where
  tseq    : Nat
  foundUs : Nat
  lastUs  : Nat
  reports : Nat := 0
  deriving DecidableEq, Repr, Inhabited

/-- A TU received and decrypted that waits for its flow's predecessor (R327). -/
structure RxTu where
  first : Nat
  tseq  : Nat
  prev  : Nat
  tc    : Nat
  slot  : Nat
  sys   : Bool
  mode  : Nat
  body  : List Byte
  buf   : Option Buf := none
  deriving DecidableEq, Repr, Inhabited

/-- A first TSEQ awaited under R334: the damaged copy's TSEQ, its flow, what waits for it, the damaged object first; when its
last report was made, in line-up µs, and how many. -/
structure Awaited where
  first   : Nat
  tseq    : Nat
  tc      : Nat
  slot    : Nat
  jobs    : List ExpJob
  lastUs  : Nat
  reports : Nat := 1
  deriving DecidableEq, Repr, Inhabited

/-- An element in progress at the parser: bytes taken (section and resume bytes left out) and bytes of it expected. -/
structure Partial where
  bytes : List Byte
  need  : Nat
  deriving DecidableEq, Repr, Inhabited

/-- The stream parser (R324). `skip`: discarding up to the next TUPTR. `fill`: fill up to the next frame's TUPTR. -/
structure Parser where
  cur   : Option Partial := none
  susp  : Option Partial := none
  /-- A section byte is due before the next byte of a TC3 element. -/
  sect  : Bool := false
  skip  : Bool := true
  deriving DecidableEq, Repr, Inhabited

/-- A tributary (R317), numbered MGMT 0, TIME 1, KEY 2, PROV 3, HLTH 4. Messages to send, TYPE, body and CRC, oldest first,
with the bytes of the first one already sent; the message being received. -/
structure Trib where
  tx     : List (List Byte) := []
  txPos  : Nat := 0
  rx     : Option (List Byte) := none
  /-- MGMT: the same message under the previous epoch's decryptor (R398). -/
  rxPrev : Option (List Byte) := none
  /-- Messages received whole and checked, TYPE first, without CRC, oldest first. -/
  rxq    : List (List Byte) := []
  deriving DecidableEq, Repr, Inhabited

/-- What a physical lane sends in a frame period (R293, R294): nothing, PAM4 symbols as levels, or two-level symbols. -/
inductive PhysOut where
  | dark
  | pam4 (levels : List (BitVec 2))
  | ook (bits : List Bool)
  deriving DecidableEq, Repr, Inhabited

/-- A frame as the FEC decoder takes it in (R300–R302): for each of the 32 logical lanes the 9,288 bits of its inner codewords, most likely
values of the soft symbols, and the block before it when the channel holds none. -/
structure BlockIn where
  raw  : List (List Bool)
  prev : Option (List (List Byte)) := none
  deriving DecidableEq, Repr, Inhabited

/-- A staircase block in the decoding window (R301, R302): 32 lane blocks of 1,024 bytes as coded (scrambled), 512 rows of parity. -/
structure RxBlock where
  lanes  : List (List Byte)
  parity : List (BitVec 32)
  deriving DecidableEq, Repr, Inhabited

/-- The line side of a channel. -/
structure Line where
  state     : LineState := .downLos
  oof       : Bool := true
  oofUs     : Nat := 0
  inUs      : Nat := 0
  bdiRx     : Bool := false
  bdiRun    : Nat := 0
  mfasRx    : BitVec 8 := 0
  lanes     : Vector Lane 32 := Vector.replicate 32 {}
  /-- Measured round-trip time, ns (R336); 0 until measured. -/
  rttNs     : Nat := 0
  legs      : Vector Leg 4 := Vector.replicate 4 {}
  /-- Indications of the peer's legs (R316): RPOH entries all ones; the last SITE reported for each. -/
  aisRx     : BitVec 4 := 0
  aisSite   : Vector (BitVec 8) 4 := Vector.replicate 4 0
  /-- Relay signalling being sent downstream, by its source and with its SITE: 0 the own receive direction, 1 + j an indication of leg j
  (R313, R316). -/
  aisTx     : List (Nat × BitVec 8) := []
  /-- Line-up time, µs (R331). -/
  upUs      : Nat := 0
  /-- Transmit framer: MFAS of the next frame, its predecessor, the stream, the open TC3 element and the sections of it
  written, whether it stands suspended in the stream, highest TSEQ whose element has ended (TXHI). -/
  mfasTx    : BitVec 8 := 0
  lastTx    : List (List Byte) := []
  txFrames  : Nat := 0
  /-- Lane units of the last frame sent, as the 32 logical lanes carry them (R293), and what the 36 physical lanes send: the line's
  output (R294, R356). -/
  txUnits   : List (List Bool) := []
  txPhys    : List PhysOut := []
  /-- Superframes begun since line-up, sent and received (R450). -/
  txSuper   : Nat := 0
  rxSuper   : Nat := 0
  stream    : List Seg := []
  elem3     : Option (List Byte × Nat × Nat) := none
  inSusp    : Bool := false
  ended     : Nat := 0
  /-- BIP counts to return: per lane and path (R312). -/
  sbei      : List Nat := List.replicate 32 0
  pbei      : Nat := 0
  capDue    : Bool := false
  /-- Tick at which LINE_AIS was last sent (R313). -/
  aisMs     : Nat := 0
  capSentMs : Nat := 0
  /-- Selective repeat, transmit side. Next TSEQ; the first is 1, and 0 stands for none sent or received (log entry 31). -/
  tseq      : Nat := 1
  lastFirst : Cells Nat := []
  rtx       : List RtxRec := []
  ringPos   : Nat := 0
  rtxFull   : Bool := false
  rtxNeed   : Nat := 0
  gone      : List Range := []
  peerRack  : Nat := 0
  /-- Receive side. -/
  highest   : Nat := 0
  holes     : List Hole := []
  /-- TSEQs up to `highest` whose element is in progress or has not been treated yet (R329). -/
  unsure    : List Nat := []
  naks      : List Range := []
  waiting   : List RxTu := []
  awaited   : List Awaited := []
  rxq       : List Element := []
  parser    : Parser := {}
  lastRx    : Option (List (List Byte)) := none
  /-- The decoding window, oldest block first: at most 8 blocks (R302). -/
  window    : List RxBlock := []
  /-- TUs discarded because the queue before decryption was full (R34). -/
  rxDrops   : Nat := 0
  /-- BIPs of the last frame checked: per lane and path; none after an uncorrected frame or an OOF interval (R311). -/
  bipRx     : Option (List Byte × Byte) := none
  peerModes : BitVec 32 := 0
  tribs     : Vector Trib 5 := Vector.replicate 5 {}
  deriving DecidableEq, Repr, Inhabited

end Sys2Proof
end

