-- ==== Sys2Proof/Types/Matrix.lean ====
section
/-! DEFINITION. Matrix engine state: descriptors, tile tasks, the factor unit (Matrix Engine, R233–R260). -/

namespace Sys2Proof

/-- A kernel of the catalogue (R243). SELFTEST is queued by no instance: it runs where a tile is tested, and its outcome is an operand of the
commands that test tiles (log entry 159). -/
inductive Kernel where
  | qinit | proj | orth | projt | resid | recon | selftest
  deriving DecidableEq, Repr, Inhabited

/-- An output block of at most 32 × 32 elements (R233): ranges of the inner dimension that are done, whether a task of it stands in a
kernel slot, and its FP32 accumulators as the last task stored them, row by row. -/
structure OutBlock where
  ranges : Nat := 0
  busy   : Bool := false
  acc    : List Nat := []
  deriving DecidableEq, Repr, Inhabited

/-- A kernel descriptor (R252) and how far it has come: the ORTH pass it is in, the output blocks of that pass, tasks completed, and,
while no tile is in service, since when it waits (R253). -/
structure Desc where
  kernel   : Kernel
  fmt      : Nat
  mx       : Bool := false
  rlog     : Nat
  slot     : Nat
  comm     : BitVec 16
  shard    : BitVec 16
  seq      : BitVec 32
  attempt  : Nat
  /-- Index of the extent. -/
  extent   : Nat
  rows     : Nat
  cols     : Nat
  pass     : Nat := 0
  tasks    : Nat
  done     : Nat := 0
  blks     : Cells OutBlock := []
  /-- ORTH: t1, and t1 × t2 once both are formed, with the dead columns (R247, R248). -/
  t1       : List (List Nat) := []
  t        : List (List Nat) := []
  dead     : List Nat := []
  /-- RECON: result chunks handed on. -/
  out      : Nat := 0
  /-- The factor unit works on this descriptor (R255). -/
  factor   : Bool := false
  noTileUs : Option Nat := none
  deriving DecidableEq, Repr, Inhabited

/-- A tile task in a kernel slot (R233, R234): its context, the pass, the output block and the range of the inner dimension. -/
structure Task where
  ctx   : Nat
  pass  : Nat
  blk   : Nat
  rng   : Nat
  deriving DecidableEq, Repr, Inhabited

/-- A CODEC_BIND whose QINITs have not all completed (R249): who asked, and the shards left. -/
structure PendBind where
  env    : CtlEnv
  slot   : Nat
  comm   : BitVec 16
  shards : List (BitVec 16)
  opcode : Nat := 0x0200
  deriving DecidableEq, Repr, Inhabited

/-- The matrix engine of a channel. -/
structure Mtx where
  /-- One descriptor per context (R252). -/
  descs    : Cells Desc := []
  /-- Tasks in each tile's kernel slots, at most four; the first is the one in progress (R234). -/
  tiles    : Vector (List Task) 17 := Vector.replicate 17 []
  /-- Tasks discarded by a fence that no tile has taken up yet (R235). -/
  moved    : List Task := []
  rr       : Nat := 0
  binds    : List PendBind := []
  deriving DecidableEq, Repr, Inhabited

end Sys2Proof
end

