-- ==== Sys2Proof/Types/Optical.lean ====
section
/-! DEFINITION. The optical engine of a channel: lanes, rings, combs, maps and the operations on them (Optical Lanes and Their
Control, R339–R377). -/

namespace Sys2Proof

/-- State of a physical lane (R341), numbered as in PLANE_RX_p and PLANE_TX_p. -/
inductive LaneSt where
  | dark | mapped | spare | shadow | retired | outside
  deriving DecidableEq, Repr, Inhabited

/-- One physical lane of one direction. MARGIN in units of 0.05 dB, powers in 0.1 dBm (R375). -/
structure OLane where
  st     : LaneSt := .dark
  ook    : Bool := false
  margin : Int := 0
  /-- A margin has been measured since power-good. -/
  known  : Bool := false
  pwr    : Int := 0
  /-- Margin of the peer's last MARGIN, 0.1 dB; none = not measured. -/
  peer   : Option Int := none
  /-- Consecutive estimates below SPARE_TH (R362). -/
  low    : Nat := 0
  /-- Fed by comb 2n+1 (R367). -/
  comb   : Bool := false
  /-- The receiver has aligned to test units: a test lane (R356). -/
  test   : Bool := false
  /-- New carriers already tried for the spare-in of this lane (R363). -/
  tried  : List Nat := []
  deriving DecidableEq, Repr, Inhabited

/-- A map entry (R374): OOK, physical lane, second lane of a pair. -/
structure MapEnt where
  ook  : Bool := false
  phys : BitVec 6 := 0
  pair : BitVec 6 := 0x3F
  deriving DecidableEq, Repr, Inhabited

/-- Comb states (R372). -/
inductive CombSt where
  | off | warming | locked | serving | faded | failed
  deriving DecidableEq, Repr, Inhabited

/-- One comb laser: mean power in 0.1 dBm, and that power at the last margin test. -/
structure Comb where
  st   : CombSt := .off
  mean : Int := 0
  ref  : Int := 0
  deriving DecidableEq, Repr, Inhabited

/-- A SPARE_REQ body (R361). -/
structure SpareReq where
  op   : BitVec 8
  lane : BitVec 8
  kind : BitVec 8
  phys : BitVec 8
  pair : BitVec 8
  comb : BitVec 8
  deriving DecidableEq, Repr, Inhabited

/-- How far an operation has come at its end (R362, R354). -/
inductive OpStage where
  /-- Receiving end: request sent and not answered. -/
  | requested
  /-- Receiving end: acknowledged, new lanes not yet in SYNC; or in SYNC since a tick. -/
  | syncing
  | measuring (sinceUs : Nat)
  /-- Transmitting end: mirroring. -/
  | mirroring
  /-- Either end: the change is armed at an instant. -/
  | armed (at_ : Instant)
  /-- Either end: the instant has passed; the change takes effect at the end's next superframe boundary. -/
  | due (at_ : Instant)
  /-- Transmitting end: switched at the instant, copying until the window ends and SPARE_DONE has come. -/
  | copying (at_ : Instant)
  /-- A burst at either end: the trial it is at, and the best trial so far with its margin. -/
  | burst (trial : Nat)
  deriving DecidableEq, Repr, Inhabited

/-- An open spare-in, comb move or calibration burst of one direction (R361–R364). -/
structure OptOp where
  req     : SpareReq
  burst   : Bool := false
  stage   : OpStage
  startUs : Nat
  /-- Tick at which the request was last sent, and that of the SPARE_ACK. -/
  sentUs  : Nat := 0
  ackUs   : Nat := 0
  doneIn  : Bool := false
  /-- State of the new lanes before the operation took them. -/
  was     : LaneSt := .spare
  /-- The map entry that the change replaces. -/
  old     : MapEnt := {}
  cold    : Bool := false
  /-- Trigger slot of its map change (R457). -/
  slot    : Nat := 0
  /-- Best trial of a burst and its margin. -/
  best    : Option (Nat × Int) := none
  deriving DecidableEq, Repr, Inhabited

/-- A ring (R351, R352): tuning table of 16 heater codes, trim, locked. -/
structure Ring where
  codes  : List (BitVec 12) := List.replicate 16 0
  target : Nat := 0
  trim   : Int := 0
  locked : Bool := false
  seeking : Bool := false
  /-- Grid spacings that the heater has stepped since the ring unlocked (R344). -/
  stepped : Int := 0
  deriving DecidableEq, Repr, Inhabited

/-- What a ring's monitor detector sees at a check (R344, R352): whether its own tone is below the detection floor, the powers at its
own tone and at those of its neighbours, and the trim the loop has reached. -/
structure RingObs where
  ring  : BitVec 7
  below : Bool
  own   : Nat
  prev  : Nat
  next  : Nat
  trim  : Int
  deriving DecidableEq, Repr, Inhabited

/-- What a receiver measures on one lit lane over the preceding 100 ms (R348), and the power monitors (R347). -/
structure LaneMeas where
  phys  : BitVec 6
  /-- Means and standard deviations of the sampled levels, in one unit. -/
  mu    : List Nat
  sg    : List Nat
  /-- Bits the inner decoder corrected, and bits received. -/
  corrected : Nat
  bits  : Nat
  rxPwr : BitVec 10
  txPwr : BitVec 10
  /-- The receiver is in SYNC on the lane. -/
  sync  : Bool
  deriving DecidableEq, Repr, Inhabited

/-- Progress of the margin test (R357): the step, and the tick at which it was entered. -/
structure MtRun where
  step    : Nat
  sinceUs : Nat
  trial   : Nat := 0
  /-- Best trial and its q of each lane. -/
  best    : Cells (Nat × Nat) := []
  /-- OOK margins of lanes below MT_PASS (step 6). -/
  ook     : Cells Int := []
  sent    : Bool := false
  peerFit : Bool := false
  deriving DecidableEq, Repr, Inhabited

/-- MT of OPT.STAT. -/
inductive MtSt where
  | notRun | running | passed | marginal | failed
  deriving DecidableEq, Repr, Inhabited

/-- A pending map of the margin test (R357 step 7). -/
structure MapArmed where
  at_ : Instant
  ents : List MapEnt
  /-- The instant has passed; the map takes effect at the next superframe boundary (R362). -/
  due : Bool := false
  deriving DecidableEq, Repr, Inhabited

/-- The optical engine. -/
structure Opt where
  rx      : Vector OLane 36 := Vector.replicate 36 {}
  tx      : Vector OLane 36 := Vector.replicate 36 {}
  txMap   : Vector MapEnt 32 := Vector.replicate 32 {}
  rxMap   : Vector MapEnt 32 := Vector.replicate 32 {}
  rxPend  : Option MapArmed := none
  txPend  : Option MapArmed := none
  combSel : Bool := false
  combs   : Vector Comb 2 := Vector.replicate 2 {}
  takeover : Bool := false
  combReq : Bool := false
  combReqUs : Nat := 0
  /-- Operations of the receive direction and of the transmit direction. -/
  rxOps   : List OptOp := []
  txOps   : List OptOp := []
  nextOp  : BitVec 8 := 0
  /-- Requests answered by the transmitting end and their STATUS (R361). -/
  answered : List (SpareReq × BitVec 8) := []
  rings   : Vector Ring 76 := Vector.replicate 76 {}
  /-- The sealed tables of the comb's bias and cooler and of each DAC pair's gain and skew, and the set-points they give at the engine
  temperature (R351, R352, R518). -/
  combTables : List (List (BitVec 12)) := []
  setPts  : List Nat := []
  temp    : Int := 0
  recalTemp : Int := 0
  fullRecalMs : Nat := 0
  /-- Calibration actions that wait for trigger slot 5 (R353): 1 re-centre every ring and retune the comb, 2 a full
  recalibration, 100 + r re-centre ring r. -/
  calQ    : List Nat := []
  /-- A refit of the receive direction is due when the bursts end. -/
  refit   : Bool := false
  /-- Lanes that still await a calibration burst (R353), and logical lanes that still await a comb move (R367). -/
  burstQ  : List Nat := []
  moveQ   : List Nat := []
  /-- Dispersion measured on lanes since the last refit, ps/nm (R355). -/
  fitted  : Cells Int := []
  mt      : MtSt := .notRun
  mtRun   : Option MtRun := none
  mtFailMs : Nat := 0
  /-- Own fit of the receive direction (DISP), and the transmit filter's target and current value per lane. -/
  d0      : Int := 0
  slope   : Int := 0
  txD0    : Int := 0
  txSlope : Int := 0
  filt    : Vector Int 36 := Vector.replicate 36 0
  safeTrip : Bool := false
  laserOn : Bool := false
  tlTx    : Bool := false
  tlRx    : Bool := false
  marginMs : Nat := 0
  deriving DecidableEq, Repr, Inhabited

end Sys2Proof
end

