-- ==== Sys2Proof/Types/Prov.lean ====
section
/-! DEFINITION. Cairns, chains, span digests and the provenance store of a channel (Provenance Chain and Attestation,
R409–R431). -/

namespace Sys2Proof

/-- A cairn that waits to be written (R410, R411): all of it but FLAGS, INDEX and PREV, which the write gives. -/
structure Cairn where
  slot   : Nat
  kind   : Nat
  comm   : Nat := 0
  job    : Nat
  step   : Nat := 0
  seq    : Nat := 0
  shard  : Nat := 0
  pepoch : Nat := 0
  ctx    : Nat := 0xFF
  result : Nat := 0
  nexcl  : Nat := 0
  codec  : Nat := 0
  stamp  : Instant
  /-- 32 bytes; empty for CLOSE, whose DATA is the digest of the cairn before it. -/
  data   : List Byte
  chunks : Nat := 0
  deriving DecidableEq, Repr, Inhabited

/-- The chain of a slot (R412, R414, R429). -/
structure Chain where
  job        : Nat
  next       : Nat := 0
  head       : List Byte := List.replicate 32 0
  lastSigned : Nat := 0
  /-- FIRST of the next signature record; cairns since the last record; tick at which the oldest of them was written. -/
  first      : Nat := 0
  unsigned   : Nat := 0
  oldestMs   : Nat := 0
  /-- Tick of the first cairn that falls into the record after the one that waits. -/
  laterMs    : Nat := 0
  /-- Triggers that wait for their record, LAST of that record and its HEAD. -/
  trig       : BitVec 8 := 0
  trigLast   : Nat := 0
  trigHead   : List Byte := []
  deriving DecidableEq, Repr, Inhabited

/-- The span digest of a communicator and its last 16 pairs of SEQ and digest, oldest first (R413). -/
structure Span where
  slot   : Nat
  comm   : Nat
  digest : List Byte
  pairs  : List (Nat × List Byte) := []
  deriving DecidableEq, Repr, Inhabited

/-- A SPAN_HEAD body (R417). -/
structure SpanHead where
  job  : BitVec 32
  comm : BitVec 16
  seq  : BitVec 32
  kind : BitVec 8
  rsvd : BitVec 8 := 0
  span : BitVec 256
  deriving DecidableEq, Repr, Inhabited

/-- The provenance unit of a channel. -/
structure Prov where
  /-- The cairn queue, at most 8, and the ends that wait for room in it (R411). -/
  queue   : List Cairn := []
  backlog : List Cairn := []
  chains  : Cells Chain := []
  spans   : List Span := []
  /-- Peer heads that wait for the local cairn, with the tick of their arrival (R420). -/
  pending : List (SpanHead × Nat) := []
  /-- Records by absolute number modulo CAP (R422); WR_CNT; REL_CNT. -/
  store   : Cells (List Byte) := []
  wr      : Nat := 0
  rel     : Nat := 0
  overrun : Bool := false
  /-- Messages held while the line is down: TYPE and body (R418). -/
  held    : List (Nat × List Byte) := []
  /-- The last own signature record (R426). -/
  lastSig : List Byte := []
  deriving DecidableEq, Repr, Inhabited

end Sys2Proof
end

