-- ==== Sys2Proof/Types/Requests.lean ====
section
/-! DEFINITION. Bodies of control requests that no other file holds (The Daeno Fabric Port, R90; Partitions, Drift and Unit Health, R470). -/

namespace Sys2Proof

/-- A TABLE_WRITE body (R90). -/
structure TableBody where
  table   : BitVec 8
  rsvd    : BitVec 8 := 0
  count   : BitVec 16
  index   : BitVec 32
  entries : List Byte
  deriving DecidableEq, Repr, Inhabited

/-- A GEN_SWITCH body (R90). -/
structure SwitchBody where
  actS     : BitVec 48
  actNs    : BitVec 32
  windowUs : BitVec 32
  rsvd     : BitVec 16 := 0
  deriving DecidableEq, Repr, Inhabited

/-- A PART_EPOCH body (R470). -/
structure EpochBody where
  pepoch   : BitVec 8
  rsvd1    : BitVec 8 := 0
  windowUs : BitVec 16
  actS     : BitVec 48
  actNs    : BitVec 32
  rsvd14   : BitVec 16 := 0
  deriving DecidableEq, Repr, Inhabited

/-- A PART_MODE body (R470). -/
structure ModeBody where
  mode     : BitVec 8
  opts     : BitVec 8
  windowUs : BitVec 16
  actS     : BitVec 48
  actNs    : BitVec 32
  revS     : BitVec 48
  revNs    : BitVec 32
  deriving DecidableEq, Repr, Inhabited

/-- A LEDGER_BIND body (R470). -/
structure LedgerBody where
  comm   : BitVec 16
  lo     : BitVec 16
  cnt    : BitVec 16
  rsvd   : BitVec 16 := 0
  chunks : BitVec 32
  deriving DecidableEq, Repr, Inhabited

end Sys2Proof
end

