-- ==== Sys2Proof/Types/Time.lean ====
section
/-! DEFINITION. Time units, trigger slots and time-transfer messages (Time, Stamps and Triggers, R432–R469). Local times are
counted in units of 2⁻¹⁶ ns (R436), instants in nanoseconds. -/

namespace Sys2Proof

/-- Time in units of 2⁻¹⁶ ns since 1970-01-01 00:00:00 TAI (R432, R436). -/
abbrev Fine := Nat

/-- Time unit states (R439). -/
inductive TState where
  | freerun | acquire | locked | holdover
  deriving DecidableEq, Repr, Inhabited

/-- Active source of a time unit; for the module time unit, `module` stands for its configured source (R437, R452). -/
inductive TSrc where
  | none | module | peer
  deriving DecidableEq, Repr, Inhabited

/-- The loop of a time unit (R439–R443). -/
structure TimeUnit where
  now      : Fine := 0
  state    : TState := .freerun
  src      : TSrc := .none
  everLocked : Bool := false
  /-- Consecutive non-void updates of the primary and of the alternate source, consecutive updates below LOCK_TH,
  consecutive void updates. -/
  primRun  : Nat := 0
  altRun   : Nat := 0
  lockRun  : Nat := 0
  voidRun  : Nat := 0
  /-- Offset still to be slewed out, own time minus source time (R440). -/
  slew     : Int := 0
  /-- Offsets below LOCK_TH of the last 64 updates that found one, 2⁻¹⁶ ns per 64 ms, newest first (R442; log entry 70). -/
  rates    : List Int := []
  /-- Uncertainty in 1/256 ns; none = unbounded (R443). -/
  unc      : Option Nat := Option.none
  holdSinceMs : Nat := 0
  /-- Tick of the last update (R439). -/
  updMs    : Nat := 0
  uncAtHold : Nat := 0
  exceeded : Bool := false
  /-- Offset of more than 1 s that waits for ACCEPT_JUMP (R440). -/
  jump     : Option Int := Option.none
  /-- Offset of the last update, 2⁻¹⁶ ns. -/
  offset   : Int := 0
  deriving DecidableEq, Repr, Inhabited

/-- A trigger slot (R457, R467): instant and period in ns, width in units of 100 ns. -/
structure TrigSlot where
  at_    : Instant := 0
  period : Nat := 0
  width  : Nat := 0
  armed  : Bool := false
  fired  : Bool := false
  deriving DecidableEq, Repr, Inhabited

/-- An entry of a TS message (R445): the sender's departure of the mark, and its arrivals of the peer's mark of that number
on positions 37 and 36; none where the stamp is all zeros. -/
structure TsEntry where
  dep   : Option Fine
  arr37 : Option Fine
  arr36 : Option Fine
  deriving DecidableEq, Repr, Inhabited

/-- The TS body (R445). -/
structure TsBody where
  firstMark : BitVec 32
  count     : BitVec 8
  state     : BitVec 8
  mode      : BitVec 8
  rsvd      : BitVec 8 := 0
  unc       : BitVec 32
  entries   : List TsEntry
  deriving DecidableEq, Repr, Inhabited

/-- A time frame as received (R444), with the lane it came on (true: position 36, on the receive fibre; false: position 37, on
the transmit fibre) and its arrival stamp. -/
structure TimeFrame where
  pos36   : Bool
  mark    : BitVec 32
  rxMark  : BitVec 32
  rxStamp : Option Fine
  state   : BitVec 8
  crcOk   : Bool
  arrival : Fine
  deriving DecidableEq, Repr, Inhabited

/-- One two-way measurement (R446): t1 and t4 of the source, t2 and t3 of the follower. -/
structure TimePair where
  t1 : Fine
  t2 : Fine
  t3 : Fine
  t4 : Fine
  deriving DecidableEq, Repr, Inhabited

/-- Time transfer of a channel. -/
structure Time where
  unit     : TimeUnit := {}
  /-- Frame mode is in use (R450), ALIGNED, ASYM. -/
  frameMode : Bool := false
  aligned  : Bool := false
  asym     : Bool := false
  /-- th_x − th_y of the last update, 2⁻¹⁶ ns; asymmetries in ps. -/
  fibreDiff : Int := 0
  asymTx   : Int := 0
  asymRx   : Int := 0
  /-- Tick at which the peer's time lanes were last received, and which of them have been since the start. -/
  laneUs   : Nat := 0
  lane36   : Bool := false
  lane37   : Bool := false
  /-- Own departures and arrivals by mark number, kept until the TS entries that use them have come. -/
  deps     : Cells Fine := []
  arr36    : Cells Fine := []
  arr37    : Cells Fine := []
  pairsX   : List TimePair := []
  pairsY   : List TimePair := []
  sentMark : Nat := 0
  tsMs     : Nat := 0
  /-- State, source and uncertainty last reported by the peer. -/
  peerState : BitVec 8 := 0
  peerUnc  : BitVec 32 := 0xFFFFFFFF
  /-- A loop of time sources is present and this end gives way (R438). -/
  loop     : Bool := false
  slots    : Vector TrigSlot 16 := Vector.replicate 16 {}
  latchHi  : BitVec 16 := 0
  latchNs  : BitVec 32 := 0
  deriving DecidableEq, Repr, Inhabited

/-- Module time and the time pins (R452–R455, R462, R468). -/
structure GTime where
  unit     : TimeUnit := {}
  ppsOk    : Bool := false
  ppsLastMs : Nat := 0
  todArmed : Bool := false
  /-- A TOD_SET has taken effect since power-good: from then on an edge is expected at each second (R453). -/
  todSet   : Bool := false
  /-- Own time minus PPS_IN at the last usable edge, 2⁻¹⁶ ns; second of the last PPS_OUT edge. -/
  ppsOfs   : Int := 0
  lastPps  : Option Int := Option.none
  slots    : Vector TrigSlot 8 := Vector.replicate 8 {}
  /-- Capture FIFOs: stamps in 1/256 ns, oldest first; LOST; the last edge on the input. -/
  caps     : Vector (List Nat) 4 := Vector.replicate 4 []
  lost     : Vector Nat 4 := Vector.replicate 4 0
  lastEdge : Vector (Option Nat) 4 := Vector.replicate 4 Option.none
  /-- Levels of PPS_OUT and TIME_TRIG[0–3], and the instants at which they fall, ns. -/
  ppsOut   : Bool := false
  ppsFall  : Instant := 0
  trigOut  : BitVec 4 := 0
  trigFall : Vector Instant 4 := Vector.replicate 4 0
  latchHi  : BitVec 16 := 0
  latchNs  : BitVec 32 := 0
  deriving DecidableEq, Repr, Inhabited

end Sys2Proof
end

