-- ==== Sys2Proof/Syntax.lean ====
section
/-! DEFINITION. The commands of an SZ8: one constructor for each row of the opcode table, with the row's rule. `ch` is the channel a
command acts on; the other operands are what the arrival, the measurement or the write brings. -/

namespace Sys2Proof

/-- A command. -/
inductive Instr where
  /-- REGISTER_WRITE (R13): A host or firmware write to a register that has no row of its own stores the writable fields or is handled as a violation. -/
  | registerWrite (m : Master) (b : Bar) (off : BitVec 28) (size : Fin 65) (data : BitVec 64)
  /-- CONVERTER_CUTOUT (R20): A channel rail exceeds its current limit, and only that channel's converters shut down, holding it in reset. -/
  | converterCutout (ch : Fin 8)
  /-- HUB_FAIL (R21): The hub die fails after release, and each hub function stops while running channels keep carrying traffic. -/
  | hubFail
  /-- REFERENCE_LOSS (R22): The fan-out stops delivering TREF_IN, and the channel changes its edge clocks over to its crystal and adjusts its time-unit state. -/
  | referenceLoss (ch : Fin 8)
  /-- TICK_1US (R32): The time unit delivers a 1 µs tick token to the self-timed stages. -/
  | tick1us (o : Option (Fin 8))
  /-- TICK_1MS (R32): The time unit delivers a 1 ms tick token to the self-timed stages. -/
  | tick1ms (o : Option (Fin 8)) (dieTemp : BitVec 16)
  /-- RATE_MON_UPDATE (R29): Every 1 ms the channel measures its handshake rates on replica rings and updates RATE_MON with SEQ incremented. -/
  | rateMonUpdate (ch : Fin 8) (wide ciph : BitVec 12)
  /-- CAP_NOW_UPDATE (R37): Every 1 ms, or within 1 µs of a fence or readmission, CAP_NOW is recomputed and a fall is signalled to the peer. -/
  | capNowUpdate (ch : Fin 8)
  /-- JOB_ADMIT (R53): A JOB_ADMIT request from the fabric is checked, a slot and table entries reserved, and the request forwarded to the peer. -/
  | jobAdmit (ch : Fin 8) (e : CtlEnv) (b : AdmitBody)
  /-- JOB_ADMIT_FORWARDED (R624): A JOB_ADMIT forwarded by the peer is checked and applied in the lowest free slot and its status returned. -/
  | jobAdmitForwarded (ch : Fin 8) (e : CtlEnv) (b : AdmitBody) (peer : Fin 16)
  /-- JOB_ADMIT_PEER_ANSWER (R624): The peer's status for a forwarded JOB_ADMIT arrives and the channel answers the control plane, reporting refusals as PEER_REFUSED. -/
  | jobAdmitPeerAnswer (ch : Fin 8) (e : CtlEnv) (status : BitVec 8) (peer : Fin 16)
  /-- PEER_TIMEOUT (R54): No peer answer arrives within 2 × RTT + 10 ms, so the channel returns PEER_TIMEOUT and frees the slot. -/
  | peerTimeout (ch : Fin 8) (slot : Fin 16)
  /-- LATE_PEER_ACCEPT (R54): A peer acceptance arriving after PEER_TIMEOUT makes the channel send the peer a release for that JOB_ID. -/
  | latePeerAccept (ch : Fin 8) (e : CtlEnv)
  /-- JOB_RELEASE (R625): A JOB_RELEASE stops the slot taking traffic, invalidates its tables, discards its queues and is relayed to the peer. -/
  | jobRelease (ch : Fin 8) (e : CtlEnv)
  /-- JOB_RELEASE_RELAYED (R625): A JOB_RELEASE relayed from the peer releases the slot holding the same JOB_ID without an answer. -/
  | jobReleaseRelayed (ch : Fin 8) (e : CtlEnv)
  /-- SLOT_FREE (R57): Once every TU of a releasing slot is acknowledged or out of its window, the slot reads free and its table blocks return. -/
  | slotFree (ch : Fin 8) (slot : Fin 16)
  /-- STEP_MARK (R59): A STEP_MARK advances the slot's current step or returns BAD_STEP, and is relayed to the peer. -/
  | stepMark (ch : Fin 8) (e : CtlEnv) (step : BitVec 32)
  /-- STEP_MARK_RELAYED (R59): A STEP_MARK relayed from the peer is applied to the matching slot. -/
  | stepMarkRelayed (ch : Fin 8) (e : CtlEnv) (step : BitVec 32)
  /-- FLIT_RECEIVE (R73): An arriving flit is checked for CRC and sequence and accepted, discarded, acknowledged or NAKed. -/
  | flitReceive (ch : Fin 8) (port : Fin 4) (f : Flit)
  /-- REPLAY_TIMEOUT (R74): No acknowledgement progress for 20 µs with flits outstanding starts a replay from the oldest unacknowledged flit. -/
  | replayTimeout (ch : Fin 8) (port : Fin 4)
  /-- ACK_IDLE_DUE (R72): Within 0.5 µs of accepting a DATA flit, an IDLE flit carrying ACK is sent unless another flit carried it. -/
  | ackIdleDue (ch : Fin 8) (port : Fin 4)
  /-- FLIT_SEND (R75): A DATA flit of a class is sent once the sender holds a credit for that class. -/
  | flitSend (ch : Fin 8) (port : Fin 4)
  /-- PORT_RETRAIN (R70): A retrain cause on a port starts a retrain, mapping in the spare lane if needed. -/
  | portRetrain (ch : Fin 8) (port : Fin 4) (lane : Option (Bool × Fin 17))
  /-- RETRAIN_ATTEMPT_END (R70): A retrain attempt ends, agreeing a width and replaying, or retrying, or marking the port down after the third failure. -/
  | retrainAttemptEnd (ch : Fin 8) (port : Fin 4) (locked : Bool) (txFail rxFail : BitVec 17) (grant : List Nat)
  /-- PORT_TRAIN_RETRY (R70): A port that is down tries again to train once every 1 s. -/
  | portTrainRetry (ch : Fin 8) (port : Fin 4)
  /-- PACKET_RECEIVE (R81): A packet from the fabric passes the ordered receive checks and goes to the line, the slot, the control sequencer or NACK handling. -/
  | packetReceive (ch : Fin 8) (port : Fin 4) (p : Packet)
  /-- NACK_RECEIVE (R94): A NACK for an emitted packet makes the channel restore its tail, translate it again and send or hold it. -/
  | nackReceive (ch : Fin 8) (n : Packet)
  /-- HELD_PACKET_TIMEOUT (R94): A held packet that outlives REROUTE_WAIT is discarded as FAB_UNREACH. -/
  | heldPacketTimeout (ch : Fin 8)
  /-- TAIL_RECORD_EXPIRE (R80): A tail record is freed 2 × NACK_HOLD after its packet leaves. -/
  | tailRecordExpire (ch : Fin 8)
  /-- FENCE_HOLD_EXPIRE (R96): A held FENCE packet is sent once NACK_HOLD has passed and its earlier held packets are resolved. -/
  | fenceHoldExpire (ch : Fin 8)
  /-- TABLE_WRITE (R90): A TABLE_WRITE request writes entries into the slot's shadow generation after its checks. -/
  | tableWrite (ch : Fin 8) (env : CtlEnv) (b : TableBody)
  /-- GEN_SWITCH (R91): A GEN_SWITCH request arms trigger slot 1 for a table generation switch. -/
  | genSwitch (ch : Fin 8) (env : CtlEnv) (b : SwitchBody)
  /-- TABLE_ABORT (R90): A TABLE_ABORT disarms the slot's switch and copies the current generation over the shadow. -/
  | tableAbort (ch : Fin 8) (env : CtlEnv)
  /-- GEN_SWITCH_INSTANT (R91): At the switch instant the shadow becomes current, held packets are sent and the saddle window opens. -/
  | genSwitchInstant (ch : Fin 8)
  /-- GEN_SADDLE_CLOSE (R91): The table-generation saddle window closes and copy-forward begins. -/
  | genSaddleClose (ch : Fin 8)
  /-- COPY_FORWARD_DONE (R91): Copy-forward of the new generation ends and COPY_BUSY clears. -/
  | copyForwardDone (ch : Fin 8)
  /-- ALLOCATION_RETRY (R623): A buffer released to a share is given to the requester that has waited longest on that share. -/
  | allocationRetry (ch : Fin 8) (sel : ShareSel) (pool : Fin 4)
  /-- SPILL_READBACK (R116): The oldest spilled object is read back into a pool buffer under the slot's cap. -/
  | spillReadback (ch : Fin 8) (slot : Fin 16) (bulk toLine : Bool) (fail : Option (BitVec 37))
  /-- MEM_REREAD_DONE (R129): The second read passes or the line is lost and handled by its region. -/
  | memRereadDone (ch : Fin 8) (addr : BitVec 37) (ok mirrorOk : Bool)
  /-- UNIT_PATTERN_TEST_DONE (R130): The pattern test of a unit holding a lost line ends and the unit stays or is retired. -/
  | unitPatternTestDone (ch : Fin 8) (unit : BitVec 25) (pass : Bool)
  /-- UNIT_REMAP_COPY_DONE (R131): The copy of a retired unit to region 8 ends and the remap table redirects accesses. -/
  | unitRemapCopyDone (ch : Fin 8) (unit : BitVec 25) (failed : List (Fin 128) := [])
  /-- SELF_REFRESH_ENTRY (R135): Recovery or the deep state requests self-refresh and the controller drains writes and writes region metadata. -/
  | selfRefreshEntry (ch : Fin 8) (deep drained : Bool)
  /-- SELF_REFRESH_ENTRY_TIMEOUT (R136): Entry not complete 200 µs after the request puts all channels in self-refresh without CLEAN. -/
  | selfRefreshEntryTimeout (ch : Fin 8)
  /-- SELF_REFRESH_EXIT (R138): The controller leaves self-refresh, retrains, checks metadata and resets the spill regions. -/
  | selfRefreshExit (ch : Fin 8) (up : BitVec 16)
  /-- FULL_TRAINING_DONE (R139): Full LPDDR6 training after a failed retrain ends, continuing the exit or taking the channel out of service. -/
  | fullTrainingDone (ch : Fin 8) (up : BitVec 16)
  /-- SCRUB_DONE (R140): The scrub of the retained regions ends and UNCLEAN and SCRUB_BUSY clear. -/
  | scrubDone (ch : Fin 8)
  /-- RTX_RECORD_WINDOW_END (R331): A retransmission record leaves its window, allowing the ring to overwrite it. -/
  | rtxRecordWindowEnd (ch : Fin 8)
  /-- COL_COMM_OPEN (R155): COL_COMM_OPEN opens a communicator after its checks and writes a COMM cairn. -/
  | colCommOpen (ch : Fin 8) (env : CtlEnv) (b : CommBody)
  /-- COL_COMM_CLOSE (R156): COL_COMM_CLOSE closes a communicator and frees its extents unless an instance runs. -/
  | colCommClose (ch : Fin 8) (env : CtlEnv) (comm rsvd : BitVec 16)
  /-- COL_START (R157): COL_START takes a context and starts an instance after the ordered checks. -/
  | colStart (ch : Fin 8) (env : CtlEnv) (b : StartBody)
  /-- COL_EXCLUDE (R184): COL_EXCLUDE at the coordinator decides at once or adds the entry to the live set for the next instance. -/
  | colExclude (ch : Fin 8) (env : CtlEnv) (comm : BitVec 16) (e : ExclEntry)
  /-- CONTRIB_RECEIVE (R168): A CONTRIB is counted toward its chunk or discarded as stale or stray. -/
  | contribReceive (ch : Fin 8) (m : ColMsg)
  /-- PARTIAL_RECEIVE (R169): A PARTIAL is added as a child input or passed on by a forwarder or relay. -/
  | partialReceive (ch : Fin 8) (m : ColMsg)
  /-- RESULT_RECEIVE (R159): A RESULT chunk is delivered to members and passed on along the result paths of the role. -/
  | resultReceive (ch : Fin 8) (m : ColMsg)
  /-- DEMAND_RECEIVE (R166): A DEMAND is passed toward the children and answered with a PULL, or held pending. -/
  | demandReceive (ch : Fin 8) (m : ColMsg)
  /-- ABORT_RECEIVE (R182): ABORT discards the attempt's accumulators, sets the live set, moves to the new ATTEMPT and passes on. -/
  | abortReceive (ch : Fin 8) (m : ColMsg)
  /-- LATE_RECEIVE (R180): A LATE report is passed on toward the coordinator or recorded there. -/
  | lateReceive (ch : Fin 8) (m : ColMsg)
  /-- END_RECEIVE (R182): END ends the instance with the given result and is passed on. -/
  | endReceive (ch : Fin 8) (m : ColMsg)
  /-- DEMAND_RATE_SEND (R165): A root sends the next DEMAND in chunk order at RATE. -/
  | demandRateSend (ch : Fin 8) (ctx : Fin 64)
  /-- PULL_DELAY_EXPIRE (R165): PULL_DELAY_US after a demand the channel sends the matching PULL on RESULT_TREE. -/
  | pullDelayExpire (ch : Fin 8) (ctx : Fin 64)
  /-- ALIGN_DELAY_EXPIRE (R166): ALIGN_US after receipt a forwarder or RING_PREV passes the DEMAND to its peer. -/
  | alignDelayExpire (ch : Fin 8) (ctx : Fin 64)
  /-- LOWRANK_PULL_SEND (R223): A reducing channel of a low-rank instance sends PULLs for dense chunks at RATE without a DEMAND. -/
  | lowrankPullSend (ch : Fin 8) (ctx : Fin 64)
  /-- COL_DEADLINE (R180): At the deadline an uncompleted instance sends a LATE naming owners whose pulled CONTRIBs are missing. -/
  | colDeadline (ch : Fin 8) (ctx : Fin 64)
  /-- COL_DEADLINE_PEER_LATE (R180): At deadline plus 2 × RTT a LATE naming a silent child peer's site is sent. -/
  | colDeadlinePeerLate (ch : Fin 8) (ctx : Fin 64)
  /-- COORDINATOR_DECISION (R181): At deadline plus grace the coordinator ends the instance or aborts with a new attempt. -/
  | coordinatorDecision (ch : Fin 8) (ctx : Fin 64)
  /-- ORPHAN_TIMEOUT (R185): A non-coordinator with no completion, ABORT or END by deadline plus 2 × GRACE_US ends ORPHANED. -/
  | orphanTimeout (ch : Fin 8) (ctx : Fin 64)
  /-- PENDING_DEMAND_EXPIRE (R172): A pending DEMAND older than 1 s is dropped and counted. -/
  | pendingDemandExpire (ch : Fin 8)
  /-- CODEC_BIND (R216): CODEC_BIND reserves talus extents for a range of shards. -/
  | codecBind (ch : Fin 8) (env : CtlEnv) (b : BindBody)
  /-- CODEC_UNBIND (R218): CODEC_UNBIND frees the named talus extents. -/
  | codecUnbind (ch : Fin 8) (env : CtlEnv) (b : UnbindBody)
  /-- CODEC_FLOW (R198): CODEC_FLOW sets a slot's TC1 or TC3 flow format. -/
  | codecFlow (ch : Fin 8) (env : CtlEnv) (tc fmt : BitVec 8) (rsvd : BitVec 16)
  /-- PACKER_CODE_BLOCK (R206): The packer codes a piece or chunk into an EXP, MX, TOPK or RAW block. -/
  | packerCodeBlock (ch : Fin 8) (fails : List (Fin 3)) (parity : Bool := false)
  /-- EXPANDER_BLOCK (R208): The expander checks and expands a block, discarding a damaged one. -/
  | expanderBlock (ch : Fin 8) (parity : Bool := false)
  /-- TILE_TASK_DISPATCH (R234): The dispatcher fills a free kernel slot with the next tile task in round robin. -/
  | tileTaskDispatch (ch : Fin 8)
  /-- TILE_TASK_COMPLETE (R233): A tile task completes and stores its accumulators. -/
  | tileTaskComplete (ch : Fin 8) (tile : Fin 17)
  /-- NO_TILE_WAIT_EXPIRE (R253): A descriptor with no tile in service for 1 ms is discarded. -/
  | noTileWaitExpire (ch : Fin 8) (ctx : Fin 64)
  /-- SCHEDULER_SELECT (R274): Once per handshake the scheduler selects the next TU by priority, re-sends and fair queueing, or nothing. -/
  | schedulerSelect (ch : Fin 8) (parity : Bool)
  /-- SYSTEM_FIFO_ROOM (R265): A TU the stalled control sequencer was offering enters the system FIFO when room appears. -/
  | systemFifoRoom (ch : Fin 8)
  /-- TU_ENCRYPT (R399): A TU is assigned a pipeline and TSEQ, encrypted and tagged, and its record written to the retransmission store. -/
  | tuEncrypt (ch : Fin 8) (busy : Bool := false)
  /-- FRAME_SEND (R309): Each frame period the transmitter sends a frame with overhead, tributary slices and payload or fill. -/
  | frameSend (ch : Fin 8)
  /-- LANE_UNIT_RECEIVE (R305): A lane unit arrives and the lane's alignment state machine advances. -/
  | laneUnitReceive (ch : Fin 8) (phys : Fin 36) (fasRaw : BitVec 48) (lid mfas : BitVec 8) (skewNs : BitVec 16)
  /-- LOSS_OF_LIGHT (R305): A lane's receiver reports loss of light and the lane goes to HUNT. -/
  | lossOfLight (ch : Fin 8) (lane : Fin 32)
  /-- LOS_DETECT (R307): Sixteen lanes losing light continuously for 10 µs puts the line in DOWN_LOS. -/
  | losDetect (ch : Fin 8)
  /-- FRAME_DECODE (R303): A staircase block leaves the decoding window and its frame is released or flagged uncorrected. -/
  | frameDecode (ch : Fin 8) (b : BlockIn)
  /-- LOF_CLR_EXPIRE (R308): The receiver in frame continuously for LOF_CLR enters RX_UP and sends CAP. -/
  | lofClrExpire (ch : Fin 8)
  /-- LOF_SET_EXPIRE (R308): Out of frame continuously for LOF_SET puts the receive direction in DOWN_LOF. -/
  | lofSetExpire (ch : Fin 8)
  /-- LINE_AIS_SEND (R313): While the receive direction is down, a LINE_AIS is sent to each downstream coordinate every 1 ms. -/
  | lineAisSend (ch : Fin 8)
  /-- LINE_AIS (R314): A received LINE_AIS from a sealed upstream coordinate puts its leg in or out of AIS. -/
  | lineAis (ch : Fin 8) (src : Coord) (site state : BitVec 8)
  /-- AIS_LEG_TIMEOUT (R314): A leg without a STATE = 1 LINE_AIS for 10 ms leaves AIS. -/
  | aisLegTimeout (ch : Fin 8) (leg : Fin 4)
  /-- AIS_TU_SEND (R315): Once per superframe a leg in AIS sends an AIS TU through the system FIFO. -/
  | aisTuSend (ch : Fin 8) (leg : Fin 4)
  /-- CAP (R320): A received HLTH CAP message sets the peer's LINE_NET for R_line. -/
  | cap (ch : Fin 8) (h : SealHdr) (net : BitVec 16)
  /-- CAP_SEND_PERIODIC (R320): Every 10 ms while the receive direction is RX_UP or UP a CAP message is sent. -/
  | capSendPeriodic (ch : Fin 8)
  /-- TU_RECEIVE (R324): A line element is parsed, its key selected, its tag verified and its body decrypted, or it is discarded. -/
  | tuReceive (ch : Fin 8)
  /-- TU_DELIVER (R327): A TU is delivered once its predecessor in the flow is delivered or resolved. -/
  | tuDeliver (ch : Fin 8) (parity : Bool := false)
  /-- NAK_REPORT_TIMER (R330): Every RTT + NAK_ADD an unresolved hole is reported again, up to NAK_MAX times. -/
  | nakReportTimer (ch : Fin 8)
  /-- HOLE_WINDOW_EXPIRE (R330): A hole unresolved for RTX_WIN of line-up time is resolved as lost. -/
  | holeWindowExpire (ch : Fin 8)
  /-- MARGIN_ESTIMATE (R348): Every 10 ms the receiver computes each lit lane's margin and samples lane powers. -/
  | marginEstimate (ch : Fin 8) (ms : List LaneMeas)
  /-- WRONG_LOCK_CHECK (R344): Every 400 µs each ring compares pilot tones and relocks when wrong-locked. -/
  | wrongLockCheck (ch : Fin 8) (obs : List RingObs)
  /-- ENGINE_TEMP_SAMPLE (R351): Every 1 ms the engine temperature is sampled and ring targets interpolated. -/
  | engineTempSample (ch : Fin 8) (t : Int)
  /-- RECAL_TIMER (R353): RECAL_H hours after the last full recalibration a full recalibration with bursts and refit starts. -/
  | recalTimer (ch : Fin 8)
  /-- CALIBRATION_ACTION (R353): Trigger slot 5 fires and a calibration action or trial step takes effect. -/
  | calibrationAction (ch : Fin 8) (light : Option (BitVec 6 × BitVec 10))
  /-- BURST_REQ (R354): A received BURST_REQ makes the transmitting end light a SPARE or RETIRED lane in SHADOW with test units. -/
  | burstReq (ch : Fin 8) (h : SealHdr) (n phys : BitVec 8)
  /-- BURST_TRIAL_STEP (R354): Every 20 ms a calibration burst steps TRIAL to the next value. -/
  | burstTrialStep (ch : Fin 8) (n : BitVec 8) (meas : Option LaneMeas)
  /-- PRECOMP (R355): A received PRECOMP gives new D0 and SLOPE, which the transmitter moves toward at superframe boundaries. -/
  | precomp (ch : Fin 8) (h : SealHdr) (d0 slope : BitVec 16)
  /-- MARGIN_TEST_TRIAL_STEP (R357): During the margin test TRIAL advances at a superframe boundary every 20 ms. -/
  | marginTestTrialStep (ch : Fin 8) (ms : List LaneMeas)
  /-- MT_RESULT (R361): A received MT_RESULT gives the best trial and margin per lane. -/
  | mtResult (ch : Fin 8) (h : SealHdr) (es : List (BitVec 8 × BitVec 8 × BitVec 8))
  /-- MAP (R361): A received MAP gives the transmit lane map and its instant. -/
  | map (ch : Fin 8) (h : SealHdr) (sec : BitVec 48) (ns : BitVec 32) (es : List MapEnt)
  /-- MAP_CHANGE_INSTANT (R362): A map-change trigger fires and each end applies the new map at its next superframe boundary. -/
  | mapChangeInstant (ch : Fin 8)
  /-- MARGIN_TEST_RETRY (R359): A failed margin test repeats every 60 s until it passes. -/
  | marginTestRetry (ch : Fin 8)
  /-- SPARE_REQ (R361): A received SPARE_REQ makes the transmitting end light and mirror the new lane, then answer SPARE_ACK. -/
  | spareReq (ch : Fin 8) (h : SealHdr) (r : SpareReq)
  /-- SPARE_ACK (R361): A received SPARE_ACK lets the receiving end sync and measure the new lane, or abort on refusal. -/
  | spareAck (ch : Fin 8) (h : SealHdr) (n st : BitVec 8)
  /-- SPARE_SWITCH (R361): A received SPARE_SWITCH arms the transmitter's map change at instant T. -/
  | spareSwitch (ch : Fin 8) (h : SealHdr) (n : BitVec 8) (sec : BitVec 48) (ns : BitVec 32)
  /-- SPARE_DONE (R361): A received SPARE_DONE lets the transmitter stop copying after T + 2 × RTT. -/
  | spareDone (ch : Fin 8) (h : SealHdr) (n : BitVec 8)
  /-- SPARE_ABORT (R361): A received SPARE_ABORT abandons the spare-in and darkens the new lane. -/
  | spareAbort (ch : Fin 8) (h : SealHdr) (n : BitVec 8)
  /-- MARGIN (R361): A received MARGIN message records the peer's per-lane margins. -/
  | margin (ch : Fin 8) (h : SealHdr) (ms : List Byte)
  /-- MARGIN_REPORT_SEND (R361): Every 1 s the receiving end sends a MARGIN message. -/
  | marginReportSend (ch : Fin 8)
  /-- COMB_REQ (R367): A received COMB_REQ starts the receiving end's lane moves onto the new comb. -/
  | combReq (ch : Fin 8) (h : SealHdr)
  /-- HLTH_REQUEST_REPEAT (R361): An unanswered optical HLTH request is repeated every 5 ms. -/
  | hlthRequestRepeat (ch : Fin 8)
  /-- SPARE_ACK_TIMEOUT (R363): No SPARE_ACK within 50 ms + RTT aborts the spare-in and tries the next candidate. -/
  | spareAckTimeout (ch : Fin 8) (n : BitVec 8)
  /-- SPARE_COPY_END (R362): After T + 2 × RTT and SPARE_DONE the old lane goes dark and becomes RETIRED. -/
  | spareCopyEnd (ch : Fin 8)
  /-- COLD_SPARE_IN (R366): A mapped lane dark or out of sync for 100 ms while DOWN_LOF is replaced at once. -/
  | coldSpareIn (ch : Fin 8) (l : Fin 32)
  /-- COMB_TAKEOVER_START (R367): A faded serving comb starts warming the other comb for a lane-by-lane take-over. -/
  | combTakeoverStart (ch : Fin 8) (mean : BitVec 10) (atLimit : Bool)
  /-- COMB_WARM_LOCKED (R367): The other comb is locked and COMB_REQ is sent, or it fails and OPT_COMB_FAIL is raised. -/
  | combWarmLocked (ch : Fin 8) (ok : Bool)
  /-- COLD_COMB_SWITCH (R368): When every lit lane is below SPARE_TH or the comb dies, the line drops and all lanes move to the other comb. -/
  | coldCombSwitch (ch : Fin 8) (died : Bool)
  /-- SAFETY_TRIP (R369): Pigtail power above 100 mW for 10 µs cuts the comb and drivers and sets SAFE_TRIP. -/
  | safetyTrip (ch : Fin 8)
  /-- LASER_EN_N_CHANGE (R370): LASER_EN_N high darkens every laser within 1 ms; low relocks from kept tuning. -/
  | laserEnNChange (high : Bool)
  /-- KA_HELLO_A (R384): B checks a KA_HELLO_A, computes K_HS and answers KA_HELLO_B or KA_ABORT. -/
  | kaHelloA (ch : Fin 8) (b : HelloBody)
  /-- KA_HELLO_B (R387): A checks KA_HELLO_B and S_B and sends KA_FINISH with instant T0. -/
  | kaHelloB (ch : Fin 8) (b : HelloBody)
  /-- KA_FINISH (R387): B checks S_A, arms T0 and sends KA_START. -/
  | kaFinish (ch : Fin 8) (h : SealHdr) (sA : BitVec 256) (sec : BitVec 48) (ns : BitVec 32)
  /-- KA_START (R387): A arms T0 on receipt of KA_START. -/
  | kaStart (ch : Fin 8) (h : SealHdr) (sec : BitVec 48) (ns : BitVec 32)
  /-- KA_REKEY (R389): B answers a KA_REKEY with KA_REKEY_B. -/
  | kaRekey (ch : Fin 8) (h : SealHdr) (num : BitVec 8) (rA : BitVec 512) (sec : BitVec 48) (ns : BitVec 32)
  /-- KA_REKEY_B (R389): A confirms KA_REKEY_B, sends KA_REKEY_FIN and arms T. -/
  | kaRekeyB (ch : Fin 8) (h : SealHdr) (num : BitVec 8) (rB : BitVec 512) (sB : BitVec 256)
  /-- KA_REKEY_FIN (R389): B confirms KA_REKEY_FIN and arms the rollover instant. -/
  | kaRekeyFin (ch : Fin 8) (h : SealHdr) (num : BitVec 8) (sA : BitVec 256)
  /-- KA_RESUME (R404): A KA_RESUME naming the current epoch is answered KA_RESUME_ACK and its TXSEQ applied as TXHI. -/
  | kaResume (ch : Fin 8) (h : SealHdr) (num : BitVec 8) (txseq : BitVec 48)
  /-- KA_RESUME_ACK (R404): KA_RESUME_ACK completes the resume and lets recovery reach service. -/
  | kaResumeAck (ch : Fin 8) (h : SealHdr) (num : BitVec 8) (txseq : BitVec 48)
  /-- KA_ABORT (R387): A received KA_ABORT ends the agreement and schedules a new one. -/
  | kaAbort (ch : Fin 8) (reason : BitVec 8)
  /-- KA_REPEAT (R387): An unanswered key-agreement message is repeated every 5 ms. -/
  | kaRepeat (ch : Fin 8)
  /-- KA_TIMEOUT (R387): Agreement not complete 1 s after the first KA_HELLO_A sends KA_ABORT 0x0A. -/
  | kaTimeout (ch : Fin 8)
  /-- KA_RESTART (R387): After the abort delay and with the receiver in frame, A sends KA_HELLO_A again. -/
  | kaRestart (ch : Fin 8)
  /-- REKEY_START (R389): Epoch age or bytes reaching the threshold makes A send KA_REKEY. -/
  | rekeyStart (ch : Fin 8)
  /-- KEY_ROLLOVER_INSTANT (R390): At the armed instant both ends activate the new epoch and open the key saddle window. -/
  | keyRolloverInstant (ch : Fin 8)
  /-- KEY_SADDLE_CLOSE (R390): The key saddle window closes and the previous epoch's keys are erased. -/
  | keySaddleClose (ch : Fin 8)
  /-- ROLL_LIMIT_STOP (R391): The byte or time limit of an epoch stops encryption until the next epoch is active. -/
  | rollLimitStop (ch : Fin 8)
  /-- RNG_TEST_FAIL (R402): The noise source fails its health tests and RNG_OK clears. -/
  | rngTestFail (ch : Fin 8)
  /-- RNG_MASK_EXPIRE (R402): One second after a noise-source failure the channel stops encrypting TUs. -/
  | rngMaskExpire (ch : Fin 8)
  /-- RESUME_TIMEOUT (R404): No KA_RESUME_ACK within 2 × RTT + 100 ms fails the resume and starts a full agreement. -/
  | resumeTimeout (ch : Fin 8)
  /-- CAIRN_WRITE (R411): A queued instance end is written to the provenance store as a cairn. -/
  | cairnWrite (ch : Fin 8)
  /-- SIGN_AGE_EXPIRE (R414): The oldest unsigned cairn reaching SIGN_S seconds triggers a signature. -/
  | signAgeExpire (ch : Fin 8)
  /-- SIGNATURE_RECORD_WRITE (R415): A triggered signature completes and its signature record and SIG_HEAD are written. -/
  | signatureRecordWrite (ch : Fin 8) (slot : Fin 16)
  /-- SPAN_HEAD (R420): A received SPAN_HEAD is compared, held pending or reported unmatched. -/
  | spanHead (ch : Fin 8) (h : SealHdr) (b : SpanHead)
  /-- SIG_HEAD (R419): A received SIG_HEAD is verified and stored as a peer record. -/
  | sigHead (ch : Fin 8) (h : SealHdr) (bs : List Byte)
  /-- PROV_PENDING_EXPIRE (R420): A pending span head older than PEND_S is dropped and PROV_UNMATCHED raised. -/
  | provPendingExpire (ch : Fin 8)
  /-- REL_CNT_WRITE (R428): A host write of REL_CNT_HI releases provenance records or is a violation. -/
  | relCntWrite (ch : Fin 8) (hi : Word)
  /-- GET_VERSION (R425): The hub answers an SPDM GET_VERSION request. -/
  | getVersion
  /-- GET_CAPABILITIES (R425): The hub answers an SPDM GET_CAPABILITIES request. -/
  | getCapabilities (ver : BitVec 8)
  /-- NEGOTIATE_ALGORITHMS (R425): The hub answers an SPDM NEGOTIATE_ALGORITHMS request. -/
  | negotiateAlgorithms (common : Bool)
  /-- GET_DIGESTS (R425): The hub returns its certificate-slot digests. -/
  | getDigests
  /-- GET_CERTIFICATE (R425): The hub returns a certificate chain of slot 0 or 1. -/
  | getCertificate (slot : Fin 8) (off len : BitVec 16)
  /-- CHALLENGE (R425): The hub answers an SPDM CHALLENGE with a signed response. -/
  | challenge (slot : Fin 8) (nonce : BitVec 256)
  /-- GET_MEASUREMENTS (R426): The hub returns the measurement indices of the module and present channels. -/
  | getMeasurements (idx : BitVec 8) (nonce : Option (BitVec 256))
  /-- KEY_EXCHANGE (R425): The hub answers an SPDM KEY_EXCHANGE to open a session. -/
  | keyExchange (slot : Fin 8)
  /-- FINISH (R425): The hub answers an SPDM FINISH completing a session. -/
  | finish (session : Nat) (ok : Bool)
  /-- HEARTBEAT (R425): The hub answers an SPDM HEARTBEAT. -/
  | heartbeat (session : Nat)
  /-- END_SESSION (R425): The hub ends an SPDM session. -/
  | endSession (session : Nat)
  /-- SPDM_UNSUPPORTED (R425): An SPDM request outside the supported set is answered with ERROR UnsupportedRequest. -/
  | spdmUnsupported
  /-- TIME_FRAME (R444): A time frame arriving on a time lane is stamped and recorded. -/
  | timeFrame (ch : Fin 8) (f : TimeFrame)
  /-- TIME_FRAME_SEND (R444): Each millisecond a time frame is sent with its mark at an exact millisecond. -/
  | timeFrameSend (ch : Fin 8)
  /-- TS (R445): A received sealed TS message supplies stamps toward the next update. -/
  | ts (ch : Fin 8) (h : SealHdr) (b : TsBody)
  /-- TS_SEND (R445): Every 16 ms a sealed TS message is sent on the TIME tributary. -/
  | tsSend (ch : Fin 8)
  /-- TIME_UPDATE (R439): Every 64 ms the time unit computes θ, steers or steps, and moves between states. -/
  | timeUpdate (unit : Option (Fin 8)) (meas : Option Int)
  /-- FRAME_MODE_ENTRY (R450): The peer's time lanes missing for 1 s puts the unit in frame mode. -/
  | frameModeEntry (ch : Fin 8)
  /-- ACCEPT_JUMP (R440): A write of ACCEPT_JUMP makes the unit take the pending jump. -/
  | acceptJump (ch : Fin 8)
  /-- PPS_IN_EDGE (R453): A PPS_IN rising edge disciplines module time or is counted as bad. -/
  | ppsInEdge (t : Fine)
  /-- PPS_IN_LOSS (R453): No usable PPS_IN edge for 2 s makes the source void. -/
  | ppsInLoss
  /-- TOD_SET (R468): A write to TOD_SET_HI arms the TAI second of the next PPS_IN edge. -/
  | todSet (hi : BitVec 16)
  /-- PPS_OUT_EDGE (R454): PPS_OUT rises at each second of module time plus OFS for WIDTH_MS. -/
  | ppsOutEdge
  /-- TIME_CAP_EDGE (R455): A TIME_CAP rising edge is stamped and queued, or counted as lost. -/
  | timeCapEdge (k : Fin 4) (t : Nat)
  /-- CAP_ENTRY_REMOVE (R468): A read of capture word 3 removes the entry from the FIFO. -/
  | capEntryRemove (k : Fin 4)
  /-- NOW_LATCH (R466): A read of NOW_S_LO latches NOW_S_HI and NOW_NS. -/
  | nowLatch (unit : Option (Fin 8))
  /-- TIME_SYNC (R456): Every SYNC_MS the channel sends TIME_SYNC to each subscriber with its residence correction. -/
  | timeSync (ch : Fin 8) (resid : Vector (BitVec 64) 8)
  /-- TIME_DREQ (R457): A TIME_DREQ from a subscriber is answered with TIME_DRESP. -/
  | timeDreq (ch : Fin 8) (e : CtlEnv) (corr : BitVec 64) (arrival : Nat) (resid : BitVec 64)
  /-- GLOBAL_SLOT_ARM (R467): A write of ARMED to a global trigger slot arms it or is a violation. -/
  | globalSlotArm (j : Fin 8) (data : Word)
  /-- GLOBAL_TRIGGER_FIRE (R462): A global slot fires, driving its pin or setting FIRED and raising TIME_GTRIG. -/
  | globalTriggerFire (j : Fin 8)
  /-- PART_EPOCH (R491): PART_EPOCH arms a placement-epoch change in the job-change queue. -/
  | partEpoch (ch : Fin 8) (e : CtlEnv) (b : EpochBody)
  /-- PART_MODE (R493): PART_MODE arms a mode change with its ACT and REV instants. -/
  | partMode (ch : Fin 8) (e : CtlEnv) (b : ModeBody)
  /-- PART_CANCEL (R461): PART_CANCEL removes an armed epoch or mode change before its instant. -/
  | partCancel (ch : Fin 8) (e : CtlEnv) (kind : BitVec 8) (rsvd : BitVec 24)
  /-- PART_REVERT (R496): PART_REVERT marks the slot to return to the old mode at REV. -/
  | partRevert (ch : Fin 8) (e : CtlEnv)
  /-- LEDGER_BIND (R479): LEDGER_BIND reserves drift-ledger extents for a range of shards. -/
  | ledgerBind (ch : Fin 8) (e : CtlEnv) (b : LedgerBody)
  /-- LEDGER_UNBIND (R479): LEDGER_UNBIND frees named ledger extents unless a shard is in drift. -/
  | ledgerUnbind (ch : Fin 8) (e : CtlEnv) (b : UnbindBody)
  /-- PART_SEQ (R484): PART_SEQ moves a communicator's last started SEQ forward. -/
  | partSeq (ch : Fin 8) (e : CtlEnv) (comm rsvd : BitVec 16) (seq : BitVec 32)
  /-- RECON_START (R485): RECON_START starts a reconcile instance exchanging rounded ledgers and corrections. -/
  | reconStart (ch : Fin 8) (e : CtlEnv) (b : StartBody)
  /-- PART_RELOADED (R488): PART_RELOADED takes a RELOAD shard out of drift at the far end. -/
  | partReloaded (ch : Fin 8) (e : CtlEnv) (comm shard : BitVec 16)
  /-- PART_DROP_DRIFT (R481): PART_DROP_DRIFT zeroes the slot's ledgers and ends drift. -/
  | partDropDrift (ch : Fin 8) (e : CtlEnv)
  /-- PART_EXPORT (R507): PART_EXPORT writes a signed state package for the slot into region 7. -/
  | partExport (ch : Fin 8) (e : CtlEnv)
  /-- DRIFT_TIME_LIMIT (R480): DRIFT_S seconds after drift entry the far end reaches its limit and sends DRIFT_LIMIT. -/
  | driftTimeLimit (ch : Fin 8)
  /-- DRIFT_OFFER (R482): A received DRIFT_OFFER is acknowledged, answered, and fixes the shard's ACTION. -/
  | driftOffer (ch : Fin 8) (h : SealHdr) (o : OfferBody)
  /-- DRIFT_ACK (R482): A received DRIFT_ACK stops the repeats of that offer. -/
  | driftAck (ch : Fin 8) (h : SealHdr) (job : BitVec 32) (comm shard : BitVec 16)
  /-- DRIFT_OFFER_REPEAT (R482): An unacknowledged DRIFT_OFFER is repeated every 5 ms. -/
  | driftOfferRepeat (ch : Fin 8)
  /-- EPOCH_INSTANT (R491): At the instant the slot's placement epoch advances and its saddle window opens. -/
  | epochInstant (ch : Fin 8)
  /-- EPOCH_SADDLE_CLOSE (R492): The epoch window closes and instances of the previous epoch end ORPHANED. -/
  | epochSaddleClose (ch : Fin 8)
  /-- MODE_ACT_INSTANT (R494): At ACT the slot applies the new mode or records a miss. -/
  | modeActInstant (ch : Fin 8)
  /-- MODE_SADDLE_CLOSE (R494): The mode-change saddle window closes. -/
  | modeSaddleClose (ch : Fin 8)
  /-- MODE_REV_INSTANT (R496): At REV a channel with a miss or a PART_REVERT returns to the old mode. -/
  | modeRevInstant (ch : Fin 8)
  /-- MODE_MISS (R495): A received HLTH MODE_MISS records a miss and notifies the control plane. -/
  | modeMiss (ch : Fin 8) (h : SealHdr) (job : BitVec 32) (mode : BitVec 8) (actS : BitVec 48) (actNs : BitVec 32)
  /-- DEMERIT_DECAY (R498): Once per minute demerits decay by their half-life. -/
  | demeritDecay (ch : Fin 8)
  /-- TARGETED_SELFTEST_DONE (R499): A suspect unit's targeted self-test ends, requesting a fence or resetting D to 450. -/
  | targetedSelftestDone (ch : Fin 8) (cls unit : Nat) (ok : Bool)
  /-- UNIT_FENCE (R500): A granted fence takes effect at the next tick and the spare takes over. -/
  | unitFence (ch : Fin 8)
  /-- HELD_UNIT_RETRY (R501): Each minute a held unit with score below 300 has its fence requested again. -/
  | heldUnitRetry (ch : Fin 8) (cls unit : Nat)
  /-- FENCE_RETEST (R502): A fenced unit is tested 15 and 30 minutes after its fence. -/
  | fenceRetest (ch : Fin 8) (cls : Fin 6) (u : Fin 17) (ok : Bool)
  /-- SENTINEL_SAMPLE (R503): A sampled item's re-execution on the spare completes and is compared bit for bit. -/
  | sentinelSample (ch : Fin 8) (stream : Fin 4) (unit : Fin 17) (first second : List Byte) (temp : Int) (occ16 : Nat)
  /-- SENTINEL_THIRD_RUN (R504): A third run after a mismatch, or its 1 ms wait, decides which unit is charged. -/
  | sentinelThirdRun (ch : Fin 8) (third : Option (Fin 17 × List Byte))
  /-- SEQUENCER_MAILBOX_TAKE (R26): The control sequencer takes a notice from its mailbox and applies it as a generation switch or package. -/
  | sequencerMailboxTake (ch : Fin 8)
  /-- POWER_GOOD_START (R525): At power-good the module samples straps, verifies the image and runs start-up for each channel. -/
  | powerGoodStart (f : StartFacts)
  /-- STARTUP_STEP_LATE (R527): A start-up step past twice its bound is repeated once, then stops the channel. -/
  | startupStepLate (ch : Fin 8) (img : ChanImg) (f : StepFacts)
  /-- BOOT_REL (R547): A write of BOOT_REL releases held channels from CH_HOLD. -/
  | bootRel (data : Word) (fs : Vector StepFacts 8)
  /-- SVN_FUSE_ADVANCE (R524): After every present channel reaches service the hub raises the fused SVN. -/
  | svnFuseAdvance
  /-- STAGE_HANG (R531): A data-path stage without a handshake for STALL_MS trips its detector and starts recovery. -/
  | stageHang (ch : Fin 8) (k : Fin 13)
  /-- SEQUENCER_HANG (R531): An accepted control request unanswered for 100 ms trips DET 0x10. -/
  | sequencerHang (ch : Fin 8)
  /-- LPDDR6_HANG (R531): An LPDDR6 request outstanding for 10 ms trips DET 0x11. -/
  | lpddr6Hang (ch : Fin 8)
  /-- TICK_MISS_HANG (R531): A stage missing its 1 ms tick for 3 ms trips DET 0x12. -/
  | tickMissHang (ch : Fin 8)
  /-- RECOVERY_STEP_LATE (R531): A recovery step past twice its bound trips DET 0x13 and starts a cold restart. -/
  | recoveryStepLate (ch : Fin 8)
  /-- CORE_WATCHDOG (R539): No watchdog kick for WDOG_MS swaps in the spare core from its checkpoint. -/
  | coreWatchdog (ch : Fin 8) (ok : Bool)
  /-- CORES_LOST (R540): Neither management core can be active, DET 0x14 trips and recovery restarts both. -/
  | coresLost (ch : Fin 8)
  /-- HUB_WATCHDOG (R531): Hub firmware without a kick for 500 ms resets the hub. -/
  | hubWatchdog
  /-- CORE_CHECKPOINT (R539): Every CKPT_MS the active core writes a checkpoint. -/
  | coreCheckpoint (ch : Fin 8)
  /-- RECOVER (R532): A keyed write of RECOVER starts recovery of the channel. -/
  | recover (ch : Fin 8)
  /-- COLD (R545): A keyed write of COLD starts a cold restart of the channel. -/
  | cold (ch : Fin 8)
  /-- RETURN (R537): A keyed write of RETURN takes an out-of-service channel back by recovery. -/
  | returnCmd (ch : Fin 8)
  /-- FIRMWARE_RECOVER_REQUEST (R532): Channel firmware requests recovery of its own channel. -/
  | firmwareRecoverRequest (ch : Fin 8)
  /-- CHANNEL_RECOVERY (R535): A recovery cause stops ingress, holds or quiets the line and runs the recovery steps. -/
  | channelRecovery (ch : Fin 8) (f : RecovFacts)
  /-- RECOVERY_TIMEOUT (R537): A recovery not in service within 4 s becomes a cold restart. -/
  | recoveryTimeout (ch : Fin 8)
  /-- COLD_RESTART (R529): A channel is reset as from power-good and runs start-up steps 2 to 8. -/
  | coldRestart (ch : Fin 8) (img : ChanImg) (f : StepFacts)
  /-- PWR_OFFER (R543): A received PWR_OFFER records the peer's offered power state and instant. -/
  | pwrOffer (ch : Fin 8) (st : BitVec 8) (sec : BitVec 48) (ns : BitVec 32)
  /-- PWR_OFFER_SEND (R543): Every 100 ms an idle channel sends PWR_OFFER naming its chosen state. -/
  | pwrOfferSend (ch : Fin 8)
  /-- PWR_OFFER_LAPSE (R543): 300 ms without an offer cancels a pending power-state entry. -/
  | pwrOfferLapse (ch : Fin 8)
  /-- POWER_STATE_ENTRY (R543): At the agreed instant both ends enter the shallower offered state. -/
  | powerStateEntry (ch : Fin 8)
  /-- WAKE (R544): A control request, frames or light wakes a channel below Active. -/
  | wake (ch : Fin 8) (request : Bool)
  /-- WAKE_TOL_WRITE (R544): A write of WAKE_TOL below the current state's latency wakes the channel. -/
  | wakeTolWrite (ch : Fin 8) (data : Word)
  /-- DMA_ACCESS (R541): A channel access to host memory passes the DMA guard, waits on its bucket or is refused. -/
  | dmaAccess (ch : Fin 8) (q : DmaReq)
  /-- HOST_LINK_TRAIN (R550): The host link trains in CXL or PCIe-only mode and HOSTSTAT is set. -/
  | hostLinkTrain (cxl : Bool) (width : Fin 17) (rate : Fin 7) (cacheEn memEn : Bool)
  /-- HOST_PORT_RESET (R568): PERST#, hot reset or link down resets the host port and empties FULL mailboxes. -/
  | hostPortReset
  /-- HDM_ACCESS (R556): A CXL.mem access to the HDM window returns data, poison or all ones, or is an error. -/
  | hdmAccess (line : BitVec 30) (data : Option (Vector (Option Byte) 64))
  /-- DOORBELL (R565): A host DOORBELL write posts an H2D notice with SENDER stamped. -/
  | doorbell (k : Fin 32) (data : Word)
  /-- H2D_TAKE (R565): The routed party takes an H2D notice and TAKEN is set. -/
  | h2dTake (k : Fin 32) (pass : Option (Vector Word 4))
  /-- D2H_POST (R565): Firmware or the sequencer posts a D2H notice and its MSI-X vector fires. -/
  | d2hPost (k : Fin 32) (by_ : Party) (w : Vector Word 4)
  /-- TAKE (R565): A host write of TAKE takes a D2H notice and sets the sender's taken flag. -/
  | take (k : Fin 32)
  /-- MAILBOX_TIMEOUT (R565): A notice untaken within TIMEOUT_MS is withdrawn and TO set. -/
  | mailboxTimeout (d2h : Bool) (k : Fin 32)
  /-- VIOLATION_DELIVERY (R560): Violations queued by a channel are delivered to the hub when it returns. -/
  | violationDelivery (ch : Fin 8)
  /-- EVENT_RECORD_TAKE (R574): The recorder takes an event, numbers and stamps it, samples its metric and writes it to the ring. -/
  | eventRecordTake (o : Option (Fin 8)) (n : Nat)
  /-- HISTORY_COPY (R587): Once LPDDR6 is available, records held for the history are copied in RSEQ order. -/
  | historyCopy (ch : Fin 8)
  /-- WINDOW_CLOSE (R583): One millisecond after its end a metric window closes and its window record is written. -/
  | windowClose (o : Option (Fin 8))
  /-- SEAL_START (R588): A seal of a recorder starts, writing qualifying records to its sealed area. -/
  | sealStart (o : Option (Fin 8))
  /-- SEAL_PAGE_PROGRAM_DONE (R592): A sealed page program completes and is verified. -/
  | sealPageProgramDone (ok : Bool)
  /-- SECTOR_ERASE_DONE (R591): A reused sealed sector is erased after carrying its FATAL and retirement records. -/
  | sectorEraseDone
  /-- VIN_RISE (R607): VIN rising through 35.0 V starts soft-start and rail regulation. -/
  | vinRise
  /-- POWER_GOOD (R607): Rails in tolerance with MOD_RST_N high for 10 ms raise PWRGD and release module reset. -/
  | powerGood (addr : Fin 8)
  /-- UNDERVOLTAGE_LOCKOUT (R605): VIN below 33.0 V for 1 ms locks the module off as a power-down. -/
  | undervoltageLockout
  /-- UNDERVOLTAGE_WARN (R605): VIN below 36.0 V sets UV_WARN. -/
  | undervoltageWarn
  /-- OVERVOLTAGE (R605): VIN at 52.0 V for 10 µs opens the input switch. -/
  | overvoltage
  /-- OVERVOLTAGE_CLEAR (R605): VIN below 50.0 V for 100 ms closes the switch and the module starts as from power-good. -/
  | overvoltageClear
  /-- INPUT_CURRENT_LATCH (R605): Overcurrent beyond its limits latches the input switch off. -/
  | inputCurrentLatch
  /-- INPUT_SWITCH_RESET (R606): VIN removed for 1 s or MOD_RST_N low for 10 ms releases a latched input switch. -/
  | inputSwitchReset (byVin : Bool)
  /-- POWER_DOWN (R608): Lockout, an open switch or MOD_RST_N low drops PWRGD, darkens the optics and resets every domain. -/
  | powerDown
  /-- DIE_OVER_TEMP (R616): A die above 105 °C for 10 ms cuts out its channel's converters. -/
  | dieOverTemp (ch : Fin 8)
  /-- DIE_COOLED (R616): A tripped die falling below 90 °C starts its channel as a cold restart. -/
  | dieCooled (ch : Fin 8)
  /-- THERM_THRESHOLD (R617): A die crossing THERM_T, or falling 5 °C below it, drives THERM_N. -/
  | thermThreshold (low : Bool)
  /-- SMB_READ_PWR (R621): An SMBus block read of a PWR command code returns that register. -/
  | smbReadPwr (code : BitVec 8) (meas : Word)
  /-- SMB_READ_CAPS (R621): An SMBus block read of code 0x20 returns GLB.CAPS. -/
  | smbReadCaps
  /-- SMB_CLEAR_STAT (R621): An SMBus block write to code 0x00 acts as a W1C write to PWR.STAT. -/
  | smbClearStat (data : Word)
  /-- REFERENCE_RETURN (R22): The reference fan-out resumes delivering TREF_IN to a channel, whose edge clocks and MODULE-following time unit can take it again. -/
  | referenceReturn (ch : Fin 8)
  /-- LIGHT_RETURN (R308): Light returns on a lane that had lost it, so the lane leaves its forced HUNT and LOS can end, moving the line from DOWN_LOS to DOWN_LOF. -/
  | lightReturn (ch : Fin 8) (lane : Fin 32)
  /-- RNG_TEST_PASS (R402): The noise source passes its health tests again, RNG_OK sets and TU encryption may resume. -/
  | rngTestPass (ch : Fin 8)
  /-- RING_LOCKED (R345): A ring's lock loop completes its seek and locks on its grid position after a wrong lock, a trim limit or a lane being lit. -/
  | ringLocked (ch : Fin 8) (k : Fin 76)
  /-- FACTOR_UNIT_COMPLETE (R255): The factor unit completes its chol_inv work of an ORTH or a QINIT generation, letting ORTH pass 3 run or the bind be answered. -/
  | factorUnitComplete (ch : Fin 8) (ctx : Option (Fin 64))
  /-- MSIX_UNMASK (R571): The host unmasks an MSI-X vector whose pending bit is set, and the message is signalled. -/
  | msixUnmask (v : Fin 64)
  /-- IDE_KM_REQUEST (R549): An IDE_KM request over a secured SPDM session installs or controls IDE keys and sets IDE_KEYED. -/
  | ideKmRequest (session : Nat) (ok io cm : Bool)
  /-- IDE_CHECK_FAIL (R549): An IDE integrity check fails on the link and HOST_IDE_FAIL is raised. -/
  | ideCheckFail
  /-- CDAT_READ (R549): A CDAT read over DOE returns the HDM latency and per-slice bandwidth tables. -/
  | cdatRead
  deriving DecidableEq, Repr

end Sys2Proof
end

