-- ==== Sys2Proof/Decode.lean ====
section
/-! DEFINITION. The commands of this block have no words: spec/opcode_table.json gives no row a bit. What a command's message, packet or
register spells is read where it arrives: Machine/Ingress.lean, Machine/LineRx.lean, Machine/RegWrite.lean. -/

namespace Sys2Proof

/-- The command that a word of the table spells: none, as no row has bits. -/
def decodeTableWord (_nbits _w : Nat) : Option Instr := none

end Sys2Proof
end

