-- ==== Sys2Proof/Config.lean ====
section
/-! DEFINITION. What an implementation fixes and the spec leaves open: free values and uninterpreted functions. None has
a body that a proof can see. -/

namespace Sys2Proof

/-- A free word: the `n`-th value the spec leaves open in a run, of `w` bits (log entry 2). -/
opaque Config.freeBits : Nat → (w : Nat) → BitVec w

/-- The `n`-th free block of `k` bytes is `freeBytes n k`; the model takes exactly `k` bytes of it (log entry 2). -/
opaque Config.freeBytes : Nat → Nat → List Byte

/-- The NaN that an FP8 E5M2 operation yields: R175 gives no pattern (log entry 20). -/
opaque Config.nanE5M2 : Byte

/-- The sign of the NaN that an FP8 E4M3 operation yields: R175 gives S.1111.111 as the only NaN (log entry 20). -/
opaque Config.nanE4M3Sign : Bool

/-- What an MX element code that stands for no finite number contributes: R176 names NaN scales only (log entry 20). -/
opaque Config.mxSpecial : List Byte → List Byte → List Byte

/-- The block cipher of a suite, AES-256 (false) or SM4 (true), under a key of up to 256 bits (R378): FIPS 197 and GB/T 32907 lie
outside the manual (log entry 21). -/
opaque Config.blockCipher : Bool → BitVec 256 → BitVec 128 → BitVec 128

/-- CMAC of NIST SP 800-38B under a suite and key (R393; log entry 21). -/
opaque Config.cmac : Bool → BitVec 256 → List Byte → BitVec 128

/-- Byte `i` of the GCM key stream for a suite, key and nonce, and the GCM tag over additional data and ciphertext (R385; log
entry 21). -/
opaque Config.gcmStream : Bool → BitVec 256 → List Byte → Nat → Byte
opaque Config.gcmTag : Bool → BitVec 256 → List Byte → List Byte → List Byte → BitVec 128

/-- SM3 (GB/T 32905; log entry 21). -/
opaque Config.sm3 : List Byte → BitVec 256

/-- SM3 of the hub boot ROM (R426; log entry 21). -/
opaque Config.romDigest : BitVec 256

/-- The KDF of GB/T 32918.4: secret and label bytes, length in bits (R380; log entry 21). -/
opaque Config.kdf : List Byte → Nat → BitVec 256

/-- Shared key of the SM2 key exchange for two ephemeral points, A's and B's, and the confirmation values S_B (false) and S_A
(true) of GB/T 32918.3 (R380, R383; log entry 21). -/
opaque Config.sm2Key : BitVec 512 → BitVec 512 → BitVec 256
opaque Config.sm2Conf : BitVec 512 → BitVec 512 → Bool → BitVec 256

/-- An SM2 signature of a channel's identity key over some bytes (R414; log entry 21). -/
opaque Config.sm2Sign : Nat → List Byte → BitVec 512

/-- Whether a signature verifies under the device certificate of a digest (R419; log entry 21). -/
opaque Config.sm2Verify : BitVec 256 → List Byte → BitVec 512 → Bool

/-- The q of R348 that the pre-FEC ratio corrected / bits gives: the formula names the inverse of erfc (log entry 22). In units of
1/65536; the flag says OOK. -/
opaque Config.qFec : Bool → Nat → Nat → Nat

/-- What the inner decoder makes of a received codeword that no single-bit change mends: its information bits and how many bits it corrected.
R300 leaves the decoding method open (log entry 164). -/
opaque Config.innerSoft : List Bool → List Bool × Nat

/-- What iterative decoding makes of the oldest block of the window, after the block before it: lane blocks and parity rows. R302 gives the
window and no schedule (log entry 164). -/
opaque Config.staircase : List (List Byte) → List (List (List Byte) × List (BitVec 32)) → List (List Byte) × List (BitVec 32)

/-- Group delay of position `p` relative to position 18 on a fibre with fit (D0, SLOPE), in 2⁻¹⁶ ns: R450 has it computed from the
measured dispersion and gives no formula (log entry 23). -/
opaque Config.groupDelay : Int → Int → Nat → Int

/-- The site behind the `i`-th FORWARDER input of a communicator at a channel: coordinate, JOB_ID, COMM_ID. R169 has a reducing channel stop
expecting the input of a site that is wholly excluded and gives it nothing that says which input that is (log entry 33). -/
opaque Config.childSite : Nat → Nat → Nat → Nat → Nat

end Sys2Proof
end

