-- ==== Sys2Proof/Machine/Bits.lean ====
section
/-! DEFINITION. Bit fields, byte order, checksums and sparse tables: the helpers every block uses. -/

namespace Sys2Proof.Machine

open Sys2Proof

/-- Field [hi:lo] of a word, as a number. -/
def fld {n : Nat} (w : BitVec n) (hi lo : Nat) : Nat := (w.toNat >>> lo) % 2 ^ (hi + 1 - lo)

/-- Bit `i` of a word. -/
def bitOf {n : Nat} (w : BitVec n) (i : Nat) : Bool := w.getLsbD i

/-- A word with field [hi:lo] replaced by a number (taken modulo the field's size). -/
def putFld {n : Nat} (w : BitVec n) (hi lo v : Nat) : BitVec n :=
  let m := (2 ^ (hi + 1 - lo) - 1) <<< lo
  (w &&& ~~~(BitVec.ofNat n m)) ||| BitVec.ofNat n ((v % 2 ^ (hi + 1 - lo)) <<< lo)

/-- A word with bit `i` set to `b`. -/
def putBit {n : Nat} (w : BitVec n) (i : Nat) (b : Bool) : BitVec n := putFld w i i b.toNat

/-- Number of set bits among the low `k` bits of a word. -/
def popcount {n : Nat} (w : BitVec n) : Nat → Nat
  | 0 => 0
  | k + 1 => (w.getLsbD k).toNat + popcount w k

/-- Lowest `i < k` whose bit is clear. -/
def lowestClear {n : Nat} (w : BitVec n) (k : Nat) : Option Nat := (List.range k).find? fun i => !w.getLsbD i

/-- A number as `k` bytes, most significant byte first. -/
def beBytes (k n : Nat) : List Byte :=
  (List.range k).map fun i => BitVec.ofNat 8 (n >>> (8 * (k - 1 - i)))

/-- Bytes, most significant first, as a number. -/
def beNat (bs : List Byte) : Nat := bs.foldl (fun a b => a * 256 + b.toNat) 0

/-- Bytes `off .. off + k - 1` of a list as a number, most significant first; missing bytes read 0. -/
def beAt (bs : List Byte) (off k : Nat) : Nat :=
  beNat (((bs.drop off).take k) ++ List.replicate (k - ((bs.drop off).take k).length) 0)

/-- Saturating increment of a 32-bit counter. -/
def satAdd (w : Word) (n : Nat) : Word := BitVec.ofNat 32 (min (w.toNat + n) 0xFFFFFFFF)

/-- A number clamped to `lo ..= hi`. -/
def clampNat (lo hi n : Nat) : Nat := max lo (min hi n)

/-- A signed number clamped to `0 ..= 15` (R581). -/
def clamp15 (v : Int) : Nat := (max 0 (min 15 v)).toNat

/-- The value of a word read as two's complement. -/
def signed {n : Nat} (w : BitVec n) : Int := w.toInt

/-! ### Sparse tables -/

/-- The value at key `k`; `d` gives what an unlisted key reads as. -/
def cget {α : Type} (d : α) : Cells α → Nat → α
  | [], _ => d
  | (j, w) :: r, k => if j = k then w else cget d r k

/-- The value at key `k`, if it is listed. -/
def cget? {α : Type} : Cells α → Nat → Option α
  | [], _ => none
  | (j, w) :: r, k => if j = k then some w else cget? r k

/-- A table with key `k` unlisted. -/
def cdel {α : Type} : Cells α → Nat → Cells α
  | [], _ => []
  | (j, w) :: r, k => if j = k then cdel r k else (j, w) :: cdel r k

/-- A table with key `k` listed as `v`, keys kept rising. -/
def cput {α : Type} : Cells α → Nat → α → Cells α
  | [], k, v => [(k, v)]
  | (j, w) :: r, k, v =>
    if k < j then (k, v) :: (j, w) :: r
    else if k = j then (k, v) :: r
    else (j, w) :: cput r k v

/-- A table with `v` written at key `k`; writing what an unlisted key reads as unlists the key. -/
def cset {α : Type} [DecidableEq α] (d : α) (m : Cells α) (k : Nat) (v : α) : Cells α :=
  if v = d then cdel m k else cput m k v

/-- The canonical form of a sparse table: keys strictly rising and no value equal to the unlisted one. -/
def cwf {α : Type} [DecidableEq α] (d : α) : Cells α → Bool
  | [] => true
  | [(_, v)] => decide (v ≠ d)
  | (j, v) :: (k, w) :: r => decide (j < k) && decide (v ≠ d) && cwf d ((k, w) :: r)

/-! ### Memory that commands address by byte: region 7 of a channel (R122, R556) -/

/-- The byte at an address; a byte that nothing has written reads 0 (log entry 61). -/
def Memory.read (m : Cells Byte) (a : Nat) : Byte := cget 0 m a

/-- The memory with a byte written. -/
def Memory.write (m : Cells Byte) (a : Nat) (b : Byte) : Cells Byte := cset 0 m a b

/-- The canonical form: addresses strictly rising, no entry equal to what an unlisted address reads as. -/
def Memory.wf (m : Cells Byte) : Bool := cwf 0 m

/-- The lowest key at or above `n` that a rising table does not list. -/
def firstGap {α : Type} : Cells α → Nat → Nat
  | [], n => n
  | (j, _) :: r, n => if j < n then firstGap r n else if j = n then firstGap r (n + 1) else n

/-- Element `k` of a vector, or the default beyond its end. -/
def vget {α : Type} {n : Nat} [Inhabited α] (v : Vector α n) (k : Nat) : α := v[k]?.getD default

/-- A vector with element `k` replaced; unchanged beyond its end. -/
def vset {α : Type} {n : Nat} (v : Vector α n) (k : Nat) (x : α) : Vector α n := v.setIfInBounds k x

/-- Element `k` of a list, or a default beyond its end. -/
def lget {α : Type} (d : α) (l : List α) (k : Nat) : α := l[k]?.getD d

/-- A list with its first element that satisfies `p` removed. -/
def eraseFirst {α : Type} (p : α → Bool) : List α → List α
  | [] => []
  | x :: r => if p x then r else x :: eraseFirst p r

/-- Insertion into a list sorted by `le`, after equal elements. -/
def insertBy {α : Type} (le : α → α → Bool) (x : α) : List α → List α
  | [] => [x]
  | y :: r => if le y x then y :: insertBy le x r else x :: y :: r

/-- A list sorted by `le`, equal elements in their order. -/
def sortBy {α : Type} (le : α → α → Bool) : List α → List α :=
  fun l => l.foldl (fun acc x => insertBy le x acc) []

/-- `n` things cut from a list, `k` at a time. -/
def cutEvery {α : Type} (k : Nat) : Nat → List α → List (List α)
  | 0, _ => []
  | n + 1, l => if l.isEmpty then [] else l.take k :: cutEvery k n (l.drop k)

/-- A list cut into pieces of `k`, the last one shorter. -/
def pieces {α : Type} (k : Nat) (l : List α) : List (List α) := cutEvery k l.length l

/-! ### Checksums -/

/-- One byte through the reflected CRC-32C register (R71). -/
def crc32cByte (crc : Nat) (b : Byte) : Nat :=
  (List.range 8).foldl (fun c _ => if c % 2 = 1 then (c >>> 1) ^^^ 0x82F63B78 else c >>> 1) (crc ^^^ b.toNat)

/-- CRC-32C of a list of bytes: reflected polynomial 0x82F6_3B78, initial value and final complement all ones (R71). -/
def crc32c (bs : List Byte) : BitVec 32 := BitVec.ofNat 32 (bs.foldl crc32cByte 0xFFFFFFFF ^^^ 0xFFFFFFFF)

/-- One byte through the CRC-16 register of R201. -/
def crc16Byte (crc : Nat) (b : Byte) : Nat :=
  (List.range 8).foldl
    (fun c _ => if c / 0x8000 % 2 = 1 then ((c * 2) ^^^ 0x1021) % 0x10000 else (c * 2) % 0x10000)
    (crc ^^^ (b.toNat * 256))

/-- CRC-16 of a list of bytes: polynomial 0x1021, initial value 0xFFFF, no reflection, no final complement (R201). -/
def crc16 (bs : List Byte) : BitVec 16 := BitVec.ofNat 16 (bs.foldl crc16Byte 0xFFFF)

/-! ### Bit strings -/

/-- A number as `k` bits, most significant first. -/
def toBits (k n : Nat) : List Bool := (List.range k).map fun i => n.testBit (k - 1 - i)

/-- Bits, most significant first, as a number. -/
def ofBits (bs : List Bool) : Nat := bs.foldl (fun a b => 2 * a + b.toNat) 0

/-- Bytes as bits, most significant first. -/
def bitsOfBytes (bs : List Byte) : List Bool := bs.flatMap fun b => toBits 8 b.toNat

/-- Bits as bytes, most significant first, padded with 0 bits to a whole byte. -/
def bytesOfBits (bs : List Bool) : List Byte :=
  (pieces 8 bs).map fun p => BitVec.ofNat 8 (ofBits (p ++ List.replicate (8 - p.length) false))

end Sys2Proof.Machine
end

