-- ==== Sys2Proof/Machine/Float.lean ====
section
/-! DEFINITION. The number formats of collective chunks and their arithmetic (Cross-Site Collectives, R163, R173–R176;
Compression and Error Feedback, R213, R214). -/

namespace Sys2Proof.Machine

open Sys2Proof

/-- A number exactly: sign, and ± m × 2^e; or an infinity; or not a number. -/
inductive FNum where
  | nan
  | inf (neg : Bool)
  | fin (neg : Bool) (m : Nat) (e : Int)
  deriving DecidableEq, Repr, Inhabited

/-- A binary format: exponent and mantissa bits, bias, and what its top codes mean. -/
structure FFmt where
  w    : Nat
  m    : Nat
  bias : Nat
  /-- true: the top exponent holds infinities and NaNs; false: it holds numbers. -/
  ieee : Bool
  /-- Largest finite code without its sign. -/
  top  : Nat
  deriving DecidableEq, Repr, Inhabited

def fmtBf16 : FFmt := ⟨8, 7, 127, true, 0x7F7F⟩
def fmtFp16 : FFmt := ⟨5, 10, 15, true, 0x7BFF⟩
def fmtFp32 : FFmt := ⟨8, 23, 127, true, 0x7F7FFFFF⟩
def fmtE4M3 : FFmt := ⟨4, 3, 7, false, 0x7E⟩
def fmtE5M2 : FFmt := ⟨5, 2, 15, true, 0x7B⟩
def fmtE2M3 : FFmt := ⟨2, 3, 1, false, 0x1F⟩
def fmtE3M2 : FFmt := ⟨3, 2, 3, false, 0x1F⟩
def fmtE2M1 : FFmt := ⟨2, 1, 1, false, 0x7⟩

/-- Bits of a value of the format. -/
def FFmt.bits (f : FFmt) : Nat := 1 + f.w + f.m

/-- The number a code stands for. -/
def fdecode (f : FFmt) (code : Nat) : FNum :=
  let neg := code.testBit (f.w + f.m)
  let e := (code >>> f.m) % 2 ^ f.w
  let m := code % 2 ^ f.m
  if f.ieee && e = 2 ^ f.w - 1 then (if m = 0 then .inf neg else .nan)
  else if code % 2 ^ (f.w + f.m) > f.top then .nan
  else if e = 0 then .fin neg m (1 - (f.bias : Int) - f.m)
  else .fin neg (m + 2 ^ f.m) ((e : Int) - f.bias - f.m)

/-- `m / 2^s`, rounded to nearest, ties to even. -/
def rneShift (m s : Nat) : Nat :=
  let q := m >>> s
  let r := m % 2 ^ s
  if s = 0 then m
  else if r > 2 ^ (s - 1) || (r = 2 ^ (s - 1) && q % 2 = 1) then q + 1 else q

/-- The magnitude code nearest to m × 2^e, ties to even, without regard to the format's largest code. -/
def froundMag (f : FFmt) (m : Nat) (e : Int) : Nat :=
  if m = 0 then 0
  else
    let topE : Int := e + (Nat.log2 m : Int)
    let q : Int := max (topE - f.m) (1 - (f.bias : Int) - f.m)
    let mant := if q ≤ e then m * 2 ^ (e - q).toNat else rneShift m (q - e).toNat
    if mant < 2 ^ f.m then mant
    else (((q + f.m + f.bias).toNat) <<< f.m) + (mant - 2 ^ f.m)

/-- A sign bit above a magnitude code. -/
def fsign (f : FFmt) (neg : Bool) (mag : Nat) : Nat := if neg then 2 ^ (f.w + f.m) + mag else mag

/-- The canonical NaN of a format (R174); the FP8 NaNs are free where R175 gives no pattern. -/
def fnan (f : FFmt) : Nat :=
  if f = fmtBf16 then 0x7FC0 else if f = fmtFp16 then 0x7E00 else if f = fmtFp32 then 0x7FC00000
  else if f = fmtE4M3 then fsign fmtE4M3 Config.nanE4M3Sign 0x7F
  else Config.nanE5M2.toNat

/-- A rounded result: its code, and whether it saturated or overflowed. -/
structure FRes where
  code : Nat
  sat  : Bool := false
  deriving DecidableEq, Repr, Inhabited

/-- Whether m × 2^e exceeds the format's largest finite magnitude. -/
def fexceeds (f : FFmt) (m : Nat) (e : Int) : Bool :=
  match fdecode f f.top with
  | .fin _ tm te => decide (m * 2 ^ (e - min e te).toNat > tm * 2 ^ (te - min e te).toNat)
  | _ => false

/-- A number rounded into a format. A magnitude above the largest finite one becomes an infinity in an IEEE format, and
saturates, and says so, in the others (R174, R175). -/
def fencode (f : FFmt) : FNum → FRes
  | .nan => ⟨fnan f, false⟩
  | .inf neg => if f.ieee then ⟨fsign f neg ((2 ^ f.w - 1) <<< f.m), false⟩ else ⟨fsign f neg f.top, true⟩
  | .fin neg m e =>
    let mag := froundMag f m e
    if f.ieee then
      if mag ≤ f.top then ⟨fsign f neg mag, false⟩ else ⟨fsign f neg ((2 ^ f.w - 1) <<< f.m), true⟩
    else ⟨fsign f neg (min mag f.top), fexceeds f m e⟩

/-- The exact sum of two numbers; equal and opposite numbers sum to +0, two negative zeros to −0. -/
def faddExact : FNum → FNum → FNum
  | .nan, _ => .nan
  | _, .nan => .nan
  | .inf a, .inf b => if a = b then .inf a else .nan
  | .inf a, _ => .inf a
  | _, .inf b => .inf b
  | .fin na ma ea, .fin nb mb eb =>
    let e := min ea eb
    let va : Int := (if na then -1 else 1) * (ma * 2 ^ (ea - e).toNat : Nat)
    let vb : Int := (if nb then -1 else 1) * (mb * 2 ^ (eb - e).toNat : Nat)
    let v := va + vb
    if v = 0 then .fin (na && nb) 0 e else .fin (decide (v < 0)) v.natAbs e

/-- A number with its sign turned. -/
def fneg : FNum → FNum
  | .nan => .nan
  | .inf n => .inf (!n)
  | .fin n m e => .fin (!n) m e

/-- The exact product of two numbers. -/
def fmulExact : FNum → FNum → FNum
  | .nan, _ => .nan
  | _, .nan => .nan
  | .inf a, .inf b => .inf (a != b)
  | .inf a, .fin b m _ => if m = 0 then .nan else .inf (a != b)
  | .fin b m _, .inf a => if m = 0 then .nan else .inf (a != b)
  | .fin a m e, .fin b n g => .fin (a != b) (m * n) (e + g)

/-- Addition in one format (R174, R175). -/
def fadd (f : FFmt) (a b : Nat) : FRes := fencode f (faddExact (fdecode f a) (fdecode f b))

/-- Subtraction in one format. -/
def fsub (f : FFmt) (a b : Nat) : FRes := fencode f (faddExact (fdecode f a) (fneg (fdecode f b)))

/-- Whether a code is a NaN or an infinity. -/
def fnonfinite (f : FFmt) (code : Nat) : Bool :=
  match fdecode f code with
  | .fin _ _ _ => false
  | _ => true

/-! ### Chunk formats (R163) -/

/-- Values per chunk of FMT; 0 for a reserved code. -/
def valuesPerChunk : Nat → Nat
  | 1 => 2048 | 2 => 2048 | 3 => 1024 | 4 => 4096 | 5 => 4096 | 6 => 3968 | 7 => 3968 | 8 => 5216 | 9 => 5216
  | 10 => 7680 | 11 => 3968 | _ => 0

/-- Bytes of a full chunk of FMT. -/
def chunkBytes : Nat → Nat
  | 1 => 4096 | 2 => 4096 | 3 => 4096 | 4 => 4096 | 5 => 4096 | 6 => 4092 | 7 => 4092 | 8 => 4075 | 9 => 4075
  | 10 => 4080 | 11 => 4092 | _ => 0

/-- Bytes of one value of a scalar FMT; 0 for MX formats. -/
def elemBytes : Nat → Nat
  | 1 => 2 | 2 => 2 | 3 => 4 | 4 => 1 | 5 => 1 | _ => 0

/-- The scalar format of FMT 1–5. -/
def scalarFmt : Nat → Option FFmt
  | 1 => some fmtBf16 | 2 => some fmtFp16 | 3 => some fmtFp32 | 4 => some fmtE4M3 | 5 => some fmtE5M2 | _ => none

/-- An MX element format: a scalar format, or INT8 with 6 fraction bits. -/
inductive MxElem where
  | flt (f : FFmt)
  | int8
  deriving DecidableEq, Repr, Inhabited

/-- The MX element format of FMT 6–11 (R163). -/
def mxElemOf : Nat → Option MxElem
  | 6 => some (.flt fmtE4M3) | 7 => some (.flt fmtE5M2) | 8 => some (.flt fmtE2M3) | 9 => some (.flt fmtE3M2)
  | 10 => some (.flt fmtE2M1) | 11 => some .int8 | _ => none

/-- Bits of an MX element. -/
def mxBits : MxElem → Nat
  | .flt f => f.bits
  | .int8 => 8

/-- Bytes of an MX block: the scale byte and 32 elements (R163). -/
def mxBlockBytes (x : MxElem) : Nat := 1 + 4 * mxBits x

/-- E of R176 step 3. -/
def mxEmax : MxElem → Int
  | .int8 => 0
  | .flt f => if f = fmtE4M3 then 8 else if f = fmtE5M2 then 15 else if f = fmtE2M3 then 2 else if f = fmtE3M2 then 4 else 2

/-- The number an MX element code stands for. -/
def mxElemVal (x : MxElem) (code : Nat) : FNum :=
  match x with
  | .flt f => fdecode f code
  | .int8 => if code ≥ 128 then .fin true (256 - code) (-6) else .fin false code (-6)

/-- An element: round to nearest even of v / 2^X, saturating to the largest finite magnitude (R176 step 3). -/
def mxElemEnc (x : MxElem) (neg : Bool) (m : Nat) (e : Int) : FRes :=
  match x with
  | .flt f =>
    let mag := froundMag f m e
    if mag ≤ f.top then ⟨fsign f neg mag, false⟩ else ⟨fsign f neg f.top, true⟩
  | .int8 =>
    let k := if e + 6 ≥ 0 then m * 2 ^ (e + 6).toNat else rneShift m (-(e + 6)).toNat
    let k' := min k 127
    ⟨if neg && k' ≠ 0 then 256 - k' else k', decide (k > 127)⟩

/-- Floor of log2 of m × 2^e for m > 0. -/
def flog2 (m : Nat) (e : Int) : Int := e + (Nat.log2 m : Int)

/-- A finite number's magnitude exponent, none for zero. -/
def magExp : FNum → Option Int
  | .fin _ m e => if m = 0 then none else some (flog2 m e)
  | _ => none

/-- The block's shared exponent X: floor(log2 max |v|) − E, clamped to −127..127; −127 for a block of zeros (R176). -/
def mxScale (x : MxElem) (vs : List FNum) : Int :=
  match vs.filterMap magExp with
  | [] => -127
  | a :: r => max (-127) (min 127 (r.foldl max a - mxEmax x))

/-- An MX block requantised from 32 finite numbers (R176 step 3, R213): its bytes and how many elements saturated. -/
def mxQuant (x : MxElem) (vs : List FNum) : List Byte × Nat :=
  let X := mxScale x vs
  let es := vs.map fun v =>
    match v with
    | .fin n m e => mxElemEnc x n m (e - X)
    | _ => ⟨0, false⟩
  (BitVec.ofNat 8 (X + 127).toNat :: bytesOfBits (es.flatMap fun r => toBits (mxBits x) r.code),
   (es.filter (·.sat)).length)

/-- The element codes of an MX block's 32 elements. -/
def mxCodes (x : MxElem) (blk : List Byte) : List Nat :=
  (pieces (mxBits x) (bitsOfBytes (blk.drop 1))).map ofBits

/-- The numbers an MX block holds, scale applied; none for a NaN scale (R176). -/
def mxValues (x : MxElem) (blk : List Byte) : Option (List FNum) :=
  let s := (blk.headD 0).toNat
  if s = 0xFF then none
  else some ((mxCodes x blk).map fun c =>
    match mxElemVal x c with
    | .fin n m e => .fin n m (e + (s : Int) - 127)
    | v => v)

/-- A finite number rounded to a 24-bit significand, nearest even (R176 step 2). -/
def round24 : FNum → FNum
  | .fin n m e =>
    let k := Nat.log2 m
    if m = 0 || k ≤ 23 then .fin n m e else .fin n (rneShift m (k - 23)) (e + ((k - 23 : Nat) : Int))
  | v => v

/-- Whether a number is finite. -/
def isFin : FNum → Bool
  | .fin _ _ _ => true
  | _ => false

/-- The sum of two MX blocks (R176), and how many elements saturated. -/
def mxAdd (x : MxElem) (a b : List Byte) : List Byte × Nat :=
  match mxValues x a, mxValues x b with
  | some va, some vb =>
    if va.all isFin && vb.all isFin then mxQuant x (List.zipWith (fun p q => round24 (faddExact p q)) va vb)
    else (beBytes (mxBlockBytes x) (beNat (Config.mxSpecial a b)), 0)
  | _, _ => (0xFF :: List.replicate (mxBlockBytes x - 1) 0, 0)

/-- The codes of a chunk in a scalar format. -/
def chunkCodes (k : Nat) (bs : List Byte) : List Nat := (pieces k bs).map beNat

/-- Codes of a scalar format as bytes. -/
def codesBytes (k : Nat) (cs : List Nat) : List Byte := cs.flatMap (beBytes k)

/-- Element-wise addition of two chunks of FMT (R173–R176), and how many values saturated under R175 or R176. A chunk
shorter than the other is read as zeros past its end. -/
def chunkAdd (fmt : Nat) (a b : List Byte) : List Byte × Nat :=
  match scalarFmt fmt, mxElemOf fmt with
  | some f, _ =>
    let n := max a.length b.length
    let pad := fun l : List Byte => l ++ List.replicate (n - l.length) 0
    let rs := List.zipWith (fadd f) (chunkCodes (elemBytes fmt) (pad a)) (chunkCodes (elemBytes fmt) (pad b))
    (codesBytes (elemBytes fmt) (rs.map (·.code)), if f = fmtE4M3 then (rs.filter (·.sat)).length else 0)
  | none, some x =>
    let rs := List.zipWith (mxAdd x) (pieces (mxBlockBytes x) a) (pieces (mxBlockBytes x) b)
    (rs.flatMap (·.1), (rs.map (·.2)).foldl (· + ·) 0)
  | none, none => (a, 0)

/-- Whether a chunk of FMT holds a NaN or an infinity. -/
def chunkNonfinite (fmt : Nat) (bs : List Byte) : Bool :=
  match scalarFmt fmt, mxElemOf fmt with
  | some f, _ => (chunkCodes (elemBytes fmt) bs).any (fnonfinite f)
  | none, some x => (pieces (mxBlockBytes x) bs).any fun blk =>
      match mxValues x blk with
      | none => true
      | some vs => vs.any fun v => !isFin v
  | none, none => false

end Sys2Proof.Machine
end

