-- ==== Sys2Proof/Machine/Blocks.lean ====
section
/-! DEFINITION. Blocks: exponent coding, top-k, MX requantisation, and the expander's checks (Compression and Error
Feedback, R201–R215). -/

namespace Sys2Proof.Machine

open Sys2Proof

/-- A block header (R201). -/
structure BlkHdr where
  type  : Nat
  fmt   : Nat
  param : Nat
  clen  : Nat
  nval  : Nat
  rsvd  : Nat := 0
  crc   : Nat
  deriving DecidableEq, Repr, Inhabited

/-- The 8 bytes of a block header. -/
def blkHdrBytes (h : BlkHdr) : List Byte :=
  beBytes 8 ((h.type <<< 60) + (h.fmt <<< 56) + (h.param <<< 46) + (h.clen <<< 32) + (h.nval <<< 19) + (h.rsvd <<< 16) + h.crc)

/-- The header in the first 8 bytes of a block. -/
def blkHdrOf (bs : List Byte) : BlkHdr :=
  let w := BitVec.ofNat 64 (beAt bs 0 8)
  ⟨fld w 63 60, fld w 59 56, fld w 55 46, fld w 45 32, fld w 31 19, fld w 18 16, fld w 15 0⟩

/-- A block: header over a body, with the CRC-16 of the expanded form. -/
def mkBlock (type fmt param nval : Nat) (body expanded : List Byte) : List Byte :=
  blkHdrBytes ⟨type, fmt, param, body.length, nval, 0, (crc16 expanded).toNat⟩ ++ body

/-- Code lengths of the four exponent code tables, symbols D0–D14, ZERO, ESC (R203). -/
def expLens : Nat → List Nat
  | 0 => [3, 2, 2, 3, 4, 5, 5, 6, 7, 8, 9, 10, 11, 12, 12, 4, 5]
  | 1 => [4, 4, 3, 3, 3, 3, 4, 4, 5, 5, 6, 6, 6, 7, 7, 4, 4]
  | 2 => [3, 2, 3, 4, 4, 5, 5, 6, 7, 8, 9, 10, 11, 12, 12, 2, 5]
  | _ => [4, 4, 4, 4, 4, 4, 4, 4, 4, 4, 4, 4, 4, 4, 5, 4, 5]

/-- Canonical codewords from code lengths: symbols sorted by length, then index; each next codeword is the previous plus
1, shifted left by the increase in length (R203). Answers (symbol, codeword). -/
def canonical (lens : List Nat) : List (Nat × List Bool) :=
  let ord := sortBy (fun a b : Nat × Nat => decide (a.2 ≤ b.2)) ((List.range lens.length).zip lens)
  let step := fun (acc : List (Nat × List Bool) × Option (Nat × Nat)) (p : Nat × Nat) =>
    let code := match acc.2 with
      | none => 0
      | some (l, c) => (c + 1) <<< (p.2 - l)
    (acc.1 ++ [(p.1, toBits p.2 code)], some (p.2, code))
  (ord.foldl step ([], none)).1

/-- The codeword of a symbol. -/
def codeword (cs : List (Nat × List Bool)) (sym : Nat) : List Bool :=
  match cs.find? (fun p => p.1 = sym) with
  | some p => p.2
  | none => []

/-- Exponent field of a code. -/
def expField (f : FFmt) (c : Nat) : Nat := (c >>> f.m) % 2 ^ f.w

/-- BASE of a block's exponent fields (R202). -/
def expBase (f : FFmt) (es : List Nat) : Nat :=
  (es.filter fun e => decide (1 ≤ e ∧ e ≤ 2 ^ f.w - 2)).foldl max 0

/-- The symbol of an exponent field: D0–D14 as 0–14, ZERO as 15, ESC as 16 (R202). -/
def expSym (f : FFmt) (base e : Nat) : Nat :=
  if e = 0 then 15 else if 1 ≤ e ∧ e ≤ 2 ^ f.w - 2 ∧ e ≤ base ∧ base - e ≤ 14 then base - e else 16

/-- The coded bits of one exponent field. -/
def expBits (f : FFmt) (cs : List (Nat × List Bool)) (base e : Nat) : List Bool :=
  let s := expSym f base e
  codeword cs s ++ (if s = 16 then toBits f.w e else [])

/-- One group's mode and bits: coded when the codewords take at most n × W bits (R204). -/
def expGroup (f : FFmt) (cs : List (Nat × List Bool)) (base : Nat) (g : List Nat) : Bool × List Bool :=
  let bits := g.flatMap (expBits f cs base)
  if bits.length ≤ g.length * f.w then (true, bits) else (false, g.flatMap (toBits f.w))

/-- An EXP body under one table (R205). -/
def expBody (f : FFmt) (table : Nat) (codes : List Nat) : List Byte :=
  let es := codes.map (expField f)
  let base := expBase f es
  let gs := (pieces 32 es).map (expGroup f (canonical (expLens table)) base)
  bytesOfBits (gs.map (·.1))
    ++ bytesOfBits (codes.flatMap fun c => toBits (1 + f.m) ((c >>> (f.w + f.m)) % 2 * 2 ^ f.m + c % 2 ^ f.m))
    ++ bytesOfBits (gs.flatMap (·.2))

/-- The table with the shortest body, the lowest on a tie, and that body (R206). -/
def expBest (f : FFmt) (codes : List Nat) : Nat × List Byte :=
  [1, 2, 3].foldl
    (fun best t => let b := expBody f t codes
      if b.length < best.2.length then (t, b) else best)
    (0, expBody f 0 codes)

/-- A RAW block of FMT values, or of opaque bytes when FMT is 0. -/
def rawBlock (fmt nval : Nat) (bs : List Byte) : List Byte := mkBlock 0 fmt 0 nval bs bs

/-- A losslessly coded block of values in FMT 1–3: EXP when 100 × CLEN < 94 × the raw bytes, else RAW (R206). -/
def expOrRaw (fmt : Nat) (bs : List Byte) : List Byte :=
  match scalarFmt fmt with
  | none => rawBlock 0 0 bs
  | some f =>
    let codes := chunkCodes (elemBytes fmt) bs
    let (t, body) := expBest f codes
    if 100 * body.length < 94 * bs.length then
      mkBlock 1 fmt (t * 256 + expBase f (codes.map (expField f))) codes.length body bs
    else rawBlock fmt codes.length bs

/-- One piece of a flow packet under its flow format (R199). -/
def flowBlock (fmt : Nat) (piece : List Byte) : List Byte :=
  if elemBytes fmt = 0 || piece.length % elemBytes fmt ≠ 0 || piece.isEmpty then rawBlock 0 0 piece else expOrRaw fmt piece

/-- k of a TOPK block: ⌈NVAL × f⌉ with f = 2^−(PARAM + 2) (R215). -/
def topkCount (param nval : Nat) : Nat := (nval + 2 ^ (param + 2) - 1) / 2 ^ (param + 2)

/-- The indices a TOPK block carries: NaNs and infinities first, then by decreasing magnitude, ties to the lower index. -/
def topkPick (f : FFmt) (codes : List Nat) (k : Nat) : List Nat :=
  let idx := (List.range codes.length).zip codes
  let mag := fun c => c % 2 ^ (f.w + f.m)
  let special := (idx.filter fun p => fnonfinite f p.2).map (·.1)
  let rest := sortBy (fun a b : Nat × Nat => decide (mag a.2 ≥ mag b.2)) (idx.filter fun p => !fnonfinite f p.2)
  sortBy (fun a b => decide (a ≤ b)) ((special ++ rest.map (·.1)).take k)

/-- A TOPK block of a chunk (R215). -/
def topkBlock (fmt param : Nat) (bs : List Byte) : List Byte :=
  match scalarFmt fmt with
  | none => rawBlock 0 0 bs
  | some f =>
    let codes := chunkCodes (elemBytes fmt) bs
    let pick := topkPick f codes (topkCount param codes.length)
    let dense := (List.range codes.length).map fun i => if pick.contains i then lget 0 codes i else 0
    mkBlock 2 fmt param codes.length
      (pick.flatMap fun i => beBytes 2 i ++ beBytes (elemBytes fmt) (lget 0 codes i))
      (codesBytes (elemBytes fmt) dense)

/-- The MX block bytes of one run of 32 values, saturations, and whether the run was nonfinite (R213). -/
def mxRun (x : MxElem) (vs : List FNum) : List Byte × Nat × Bool :=
  if vs.all isFin then
    let (b, n) := mxQuant x (vs ++ List.replicate (32 - vs.length) (.fin false 0 0))
    (b, n, false)
  else (0xFF :: List.replicate (mxBlockBytes x - 1) 0, 0, true)

/-- A run expanded to FMT (R214): codes, and how many became infinities. -/
def mxExpandRun (f : FFmt) (x : MxElem) (blk : List Byte) : List Nat × Nat :=
  match mxValues x blk with
  | none => (List.replicate 32 (fnan f), 0)
  | some vs => let rs := vs.map (fencode f)
    (rs.map (·.code), (rs.filter (·.sat)).length)

/-- An MX block of a chunk: bytes, saturations, nonfinite runs (R213). -/
def mxBlock (fmt target : Nat) (bs : List Byte) : List Byte × Nat × Nat :=
  match scalarFmt fmt, mxElemOf (6 + target) with
  | some f, some x =>
    let codes := chunkCodes (elemBytes fmt) bs
    let runs := (pieces 32 (codes.map (fdecode f))).map (mxRun x)
    let body := runs.flatMap (·.1)
    let back := ((runs.map (·.1)).flatMap fun b => (mxExpandRun f x b).1).take codes.length
    (mkBlock 3 fmt target codes.length body (codesBytes (elemBytes fmt) back),
     (runs.map (·.2.1)).foldl (· + ·) 0, (runs.filter (·.2.2)).length)
  | _, _ => (rawBlock 0 0 bs, 0, 0)

/-! ### The expander -/

/-- Why the expander discards a block (R208). -/
inductive Damage where
  | header | length | code | crc
  deriving DecidableEq, Repr, Inhabited

/-- The first symbol of a bit string and the bits after it. -/
def nextSym (cs : List (Nat × List Bool)) (bits : List Bool) : Option (Nat × List Bool) :=
  match cs.find? (fun p => p.2.isPrefixOf bits) with
  | some p => some (p.1, bits.drop p.2.length)
  | none => none

/-- Exponent fields of `n` values of a coded group; none when the bits run out or a symbol breaks R208. -/
def expUncode (f : FFmt) (cs : List (Nat × List Bool)) (base : Nat) : Nat → List Bool → Option (List Nat × List Bool)
  | 0, bits => some ([], bits)
  | n + 1, bits =>
    match nextSym cs bits with
    | none => none
    | some (s, rest) =>
      if s = 15 then (expUncode f cs base n rest).map fun r => (0 :: r.1, r.2)
      else if s = 16 then
        let e := ofBits (rest.take f.w)
        if rest.length < f.w || expSym f base e ≠ 16 then none
        else (expUncode f cs base n (rest.drop f.w)).map fun r => (e :: r.1, r.2)
      else if s ≥ base then none
      else (expUncode f cs base n rest).map fun r => ((base - s) :: r.1, r.2)

/-- Exponent fields of groups, given each group's mode. -/
def expGroups (f : FFmt) (cs : List (Nat × List Bool)) (base : Nat) : List (Bool × Nat) → List Bool → Option (List Nat × List Bool)
  | [], bits => some ([], bits)
  | (coded, n) :: gs, bits =>
    let here := if coded then expUncode f cs base n bits
      else if bits.length < n * f.w then none
      else some ((pieces f.w (bits.take (n * f.w))).map ofBits, bits.drop (n * f.w))
    match here with
    | none => none
    | some (es, rest) => (expGroups f cs base gs rest).map fun r => (es ++ r.1, r.2)

/-- Sizes of the groups of `n` values (R204). -/
def groupSizes (n : Nat) : List Nat :=
  (List.range ((n + 31) / 32)).map fun g => min 32 (n - 32 * g)

/-- The bytes before an EXP body's exponent section (R205). -/
def expPrefixLen (f : FFmt) (n : Nat) : Nat := ((n + 31) / 32 + 7) / 8 + (n * (1 + f.m) + 7) / 8

/-- An EXP body expanded (R205); none where R208 order 3 fails. -/
def expExpand (f : FFmt) (table base n : Nat) (body : List Byte) : Option (List Nat) :=
  let ng := (n + 31) / 32
  let modes := (bitsOfBytes (body.take ((ng + 7) / 8))).take ng
  let sm := (pieces (1 + f.m) ((bitsOfBytes ((body.drop ((ng + 7) / 8)).take ((n * (1 + f.m) + 7) / 8))).take (n * (1 + f.m)))).map ofBits
  match expGroups f (canonical (expLens table)) base (modes.zip (groupSizes n)) (bitsOfBytes (body.drop (expPrefixLen f n))) with
  | none => none
  | some (es, rest) =>
    if rest.length > 7 || rest.any id then none
    else some (List.zipWith (fun e s => fsign f (s.testBit f.m) ((e <<< f.m) + s % 2 ^ f.m)) es sm)

/-- A TOPK body expanded to dense codes (R215); none where R208 order 3 fails. -/
def topkExpand (k n : Nat) (body : List Byte) : Option (List Nat) :=
  let es := (pieces (2 + k) body).map fun e => (beAt e 0 2, beAt e 2 k)
  let ok := es.all (fun p => decide (p.1 < n)) && (List.zipWith (fun a b : Nat × Nat => decide (a.1 < b.1)) es (es.drop 1)).all id
  if ok then some ((List.range n).map fun i => match es.find? (fun p => p.1 = i) with
    | some p => p.2
    | none => 0) else none

/-- What the expander is told about a block: a communicator's FMT, or a flow (R208 order 1). -/
def fmtAllowed (comm : Option Nat) (fmt : Nat) : Bool :=
  match comm with
  | some g => decide (fmt = g)
  | none => decide (fmt ≤ 3)

/-- The bytes of `n` values of FMT. -/
def valueBytes (fmt n : Nat) : Nat :=
  match mxElemOf fmt with
  | some x => (n + 31) / 32 * mxBlockBytes x
  | none => n * elemBytes fmt

/-- Whether CLEN fits the block's type (R201, *Block types*). -/
def clenOk (h : BlkHdr) : Bool :=
  match h.type with
  | 0 => h.nval = 0 || h.clen = valueBytes h.fmt h.nval
  | 1 => match scalarFmt h.fmt with
    | some f => decide (h.clen ≥ expPrefixLen f h.nval)
    | none => false
  | 2 => decide (h.clen = topkCount (h.param % 8) h.nval * (2 + elemBytes h.fmt))
  | _ => match mxElemOf (6 + h.param % 16) with
    | some x => decide (h.clen = (h.nval + 31) / 32 * mxBlockBytes x)
    | none => false

/-- HEADER of R208. -/
def hdrOk (comm : Option Nat) (h : BlkHdr) : Bool :=
  decide (h.type ≤ 3) && h.rsvd = 0 && (fmtAllowed comm h.fmt || (h.type = 0 && h.fmt = 0 && comm.isNone))
  && (h.fmt ≠ 0 || h.type = 0)
  && (h.fmt ≠ 0 || h.nval = 0)
  && (h.type = 0 || (1 ≤ h.fmt && h.fmt ≤ 3))
  && (h.nval ≤ valuesPerChunk h.fmt || h.fmt = 0)
  && (h.nval ≠ 0 || h.type = 0)
  && (match h.type with
      | 0 => decide (h.param = 0)
      | 1 => match scalarFmt h.fmt with
        | some f => decide (h.param % 256 ≤ 2 ^ f.w - 2)
        | none => false
      | 2 => decide (h.param < 8)
      | _ => decide (h.param < 6))

/-- What a block expands to, with counts of MX values that became infinities (R208, R214). -/
structure Expanded where
  bytes : List Byte
  ovr  : Nat := 0
  deriving DecidableEq, Repr, Inhabited

/-- One block, header and body, checked and expanded in the order of R208. `avail` is the number of bytes that follow the
header in the message. -/
def expandBlock (comm : Option Nat) (avail : Nat) (blk : List Byte) : Except Damage Expanded :=
  let h := blkHdrOf blk
  let body := (blk.drop 8).take h.clen
  if !hdrOk comm h then .error .header
  else if h.clen ≠ avail || !clenOk h then .error .length
  else
    let r : Option Expanded := match h.type with
      | 0 => some ⟨body, 0⟩
      | 1 => match scalarFmt h.fmt with
        | some f => (expExpand f (h.param / 256) (h.param % 256) h.nval body).map fun cs => ⟨codesBytes (elemBytes h.fmt) cs, 0⟩
        | none => none
      | 2 => (topkExpand (elemBytes h.fmt) h.nval body).map fun cs => ⟨codesBytes (elemBytes h.fmt) cs, 0⟩
      | _ => match scalarFmt h.fmt, mxElemOf (6 + h.param) with
        | some f, some x =>
          let rs := (pieces (mxBlockBytes x) body).map (mxExpandRun f x)
          some ⟨codesBytes (elemBytes h.fmt) ((rs.flatMap (·.1)).take h.nval), (rs.map (·.2)).foldl (· + ·) 0⟩
        | _, _ => none
    match r with
    | none => .error .code
    | some x => if (crc16 x.bytes).toNat ≠ h.crc then .error .crc else .ok x

/-- The blocks of a coded packet, walked by CLEN (R87, R208): none when a block runs past the end. -/
def walkBlocks : Nat → List Byte → Option (List (List Byte))
  | 0, bs => if bs.isEmpty then some [] else none
  | n + 1, bs =>
    if bs.isEmpty then some []
    else if bs.length < 8 then none
    else
      let k := 8 + (blkHdrOf bs).clen
      if bs.length < k then none else (walkBlocks n (bs.drop k)).map fun r => bs.take k :: r

/-- Bytes that a block says it expands to (R201). -/
def expandedLen (h : BlkHdr) : Nat := if h.type = 0 then h.clen else valueBytes h.fmt h.nval

/-- The LENGTH check of a coded packet: the number of its blocks, the size of every one but the last, and their sum (R208 order 2). -/
def packetLenOk (len : Nat) (hs : List BlkHdr) : Bool :=
  decide (hs.length = (len + 4095) / 4096) && (hs.map expandedLen).sum == len && hs.dropLast.all fun h => expandedLen h == 4096

/-- The blocks of a coded packet of LENGTH `len` expanded, or the damage of each block that fails; the packet's own LENGTH check comes after
every HEADER check and before the checks of CODE and CRC (R199, R208). -/
def expandPacket (len : Nat) (bs : List Byte) : Except (List Damage) Expanded :=
  match walkBlocks bs.length bs with
  | none => .error [.length]
  | some blks =>
    let rs := blks.map fun b => expandBlock none (b.length - 8) b
    let bad := rs.filterMap fun r => match r with
      | .error d => some d
      | .ok _ => none
    if !bad.contains .header && !packetLenOk len (blks.map blkHdrOf) then .error [.length]
    else if !bad.isEmpty then .error bad
    else
      let oks := rs.filterMap fun r => match r with
        | .ok x => some x
        | .error _ => none
      .ok ⟨oks.flatMap (·.bytes), (oks.map (·.ovr)).sum⟩

/-! ### Lossy coding of collective chunks -/

/-- A coded chunk: its line form, what the codec's own expansion gives, and the counts of R213 and R214. -/
structure Coded where
  line  : List Byte
  back  : List Byte
  sat   : Nat := 0
  nonfin : Nat := 0
  deriving DecidableEq, Repr, Inhabited

/-- The method of a CODEC byte (R195). -/
def codecLossy (codec : Nat) : Nat := codec % 8
def codecExp (codec : Nat) : Bool := codec.testBit 3
def codecParam (codec : Nat) : Nat := codec / 16 % 8
def codecEf (codec : Nat) : Bool := codec.testBit 7

/-- A chunk's line form without loss: EXP block, or RAW block, or, with CODEC 0x00, the chunk itself (R164, R224). -/
def losslessLine (fmt codec : Nat) (bs : List Byte) : List Byte :=
  if codec = 0 then bs
  else if codecExp codec then expOrRaw fmt bs
  else rawBlock fmt (bs.length / max 1 (elemBytes fmt)) bs

/-- A chunk coded under its communicator's CODEC, without error feedback (R195, R200). -/
def codeChunk (fmt codec : Nat) (bs : List Byte) : Coded :=
  match codecLossy codec with
  | 1 =>
    let (b, s, n) := mxBlock fmt (codecParam codec) bs
    match expandBlock (some fmt) (b.length - 8) b with
    | .ok x => ⟨b, x.bytes, s + x.ovr, n⟩
    | .error _ => ⟨rawBlock fmt (bs.length / max 1 (elemBytes fmt)) bs, bs, s, n⟩
  | 2 =>
    let b := topkBlock fmt (codecParam codec) bs
    match expandBlock (some fmt) (b.length - 8) b with
    | .ok x => ⟨b, x.bytes, 0, 0⟩
    | .error _ => ⟨rawBlock fmt (bs.length / max 1 (elemBytes fmt)) bs, bs, 0, 0⟩
  | _ => ⟨losslessLine fmt codec bs, bs, 0, 0⟩

/-- Element-wise difference of two chunks of FMT 1–3, nonfinite elements stored as +0 and counted (R219). -/
def residual (fmt : Nat) (x d : List Byte) : List Byte × Nat :=
  match scalarFmt fmt with
  | none => ([], 0)
  | some f =>
    let rs := List.zipWith (fun a b => (fsub f a b).code) (chunkCodes (elemBytes fmt) x) (chunkCodes (elemBytes fmt) d)
    (codesBytes (elemBytes fmt) (rs.map fun c => if fnonfinite f c then 0 else c), (rs.filter (fnonfinite f)).length)

end Sys2Proof.Machine
end

