-- ==== Sys2Proof/Machine/Kernels.lean ====
section
/-! DEFINITION. The matrix engine's arithmetic and kernels on matrices of codes (Matrix Engine, R238–R251). -/

namespace Sys2Proof.Machine

open Sys2Proof

/-- FP32 multiply-accumulate: the exact product added to the accumulator with one rounding (R238). -/
def mac (acc : Nat) (a b : FNum) : Nat := (fencode fmtFp32 (faddExact (fdecode fmtFp32 acc) (fmulExact a b))).code

/-- One inner product over paired operands, ascending, from an initial FP32 value (R239). -/
def dotFrom (acc : Nat) (ab : List (FNum × FNum)) : Nat := ab.foldl (fun s p => mac s p.1 p.2) acc

/-- The MXFP8 path takes two products per handshake and adds their exact sum with one rounding (R238). -/
def dotPairs (acc : Nat) (ab : List (FNum × FNum)) : Nat :=
  (pieces 2 ab).foldl
    (fun s ps => (fencode fmtFp32 (faddExact (fdecode fmtFp32 s)
      (ps.foldl (fun t p => faddExact t (fmulExact p.1 p.2)) (.fin false 0 0)))).code) acc

/-- An inner product in `n` contiguous slices, each from 0, added in ascending order to the initial value (R239). -/
def dotSlices (dot : Nat → List (FNum × FNum) → Nat) (n : Nat) (acc : Nat) (ab : List (FNum × FNum)) : Nat :=
  if n ≤ 1 then dot acc ab
  else ((pieces (max 1 ((ab.length + n - 1) / n)) ab).map (dot 0)).foldl (fun s t => (fadd fmtFp32 s t).code) acc

/-- An operand vector requantised to MXFP8 E4M3 in runs of 32 (R242). -/
def mxOperand (vs : List FNum) : List FNum :=
  (pieces 32 vs).flatMap fun run =>
    if run.all isFin then
      match mxValues (.flt fmtE4M3) (mxQuant (.flt fmtE4M3) (run ++ List.replicate (32 - run.length) (.fin false 0 0))).1 with
      | some ws => ws.take run.length
      | none => run
    else run.map fun _ => .nan

/-- A matrix by rows, of codes of one format. -/
abbrev Mat := List (List Nat)

/-- A row-major list as a matrix of `c` columns. -/
def matOf (c : Nat) (l : List Nat) : Mat := pieces (max 1 c) l

/-- A matrix's transpose, of `c` columns before. -/
def matT (c : Nat) (m : Mat) : Mat := (List.range c).map fun j => m.map fun row => lget 0 row j

/-- An FP32 result written in FMT by rounding to nearest even (R241). -/
def toFmt (f : FFmt) (c : Nat) : Nat := (fencode f (fdecode fmtFp32 c)).code

/-! ### The factor unit -/

/-- Integer square root by bits, from bit `k` down. -/
def isqrtBits (n : Nat) : Nat → Nat → Nat
  | 0, s => s
  | k + 1, s => let t := s + 2 ^ k
    isqrtBits n k (if t * t ≤ n then t else s)

/-- Integer square root. -/
def isqrt (n : Nat) : Nat := isqrtBits n (Nat.log2 n / 2 + 1) 0

/-- FP32 square root, correctly rounded (R247). -/
def fsqrt (c : Nat) : Nat :=
  match fdecode fmtFp32 c with
  | .fin false m e =>
    let e' := if e % 2 = 0 then e - 60 else e - 61
    let m' := m * 2 ^ (e - e').toNat
    let s := isqrt m'
    (fencode fmtFp32 (.fin false (2 * s + (if s * s = m' then 0 else 1)) (e' / 2 - 1))).code
  | .fin true 0 _ => c
  | .inf false => c
  | _ => fnan fmtFp32

/-- FP32 division, correctly rounded (R247). -/
def fdiv (a b : Nat) : Nat :=
  match fdecode fmtFp32 a, fdecode fmtFp32 b with
  | .fin na ma ea, .fin nb mb eb =>
    if mb = 0 then (if ma = 0 then fnan fmtFp32 else (fencode fmtFp32 (.inf (na != nb))).code)
    else
      let q := ma * 2 ^ 64 / mb
      let st := if q * mb = ma * 2 ^ 64 then 0 else 1
      (fencode fmtFp32 (.fin (na != nb) (2 * q + st) (ea - eb - 65))).code
  | .fin na _ _, .inf nb => (fencode fmtFp32 (.fin (na != nb) 0 0)).code
  | .inf na, .fin nb _ _ => (fencode fmtFp32 (.inf (na != nb))).code
  | _, _ => fnan fmtFp32

/-- FP32 product, rounded. -/
def fmul32 (a b : Nat) : Nat := (fencode fmtFp32 (fmulExact (fdecode fmtFp32 a) (fdecode fmtFp32 b))).code

/-- Whether FP32 `a > b`; false when either is a NaN. -/
def fgt32 (a b : Nat) : Bool :=
  match faddExact (fdecode fmtFp32 a) (fneg (fdecode fmtFp32 b)) with
  | .fin n m _ => !n && m ≠ 0
  | .inf n => !n
  | .nan => false

/-- Element (i, j) of a matrix. -/
def mAt (m : Mat) (i j : Nat) : Nat := lget 0 (lget [] m i) j

/-- A matrix with element (i, j) replaced. -/
def mPut (m : Mat) (i j v : Nat) : Mat := m.set i ((lget [] m i).set j v)

/-- x − s in FP32. -/
def fsub32 (x s : Nat) : Nat := (fsub fmtFp32 x s).code

/-- `x − Σ_k l[i][k] l[j][k]` over k < j: the sum formed from 0, ascending, and subtracted once (R238, R247). -/
def cholSub (l : Mat) (x i j : Nat) : Nat :=
  fsub32 x ((List.range j).foldl (fun s k => mac s (fdecode fmtFp32 (mAt l i k)) (fdecode fmtFp32 (mAt l j k))) 0)

/-- One column of chol_inv (R247): the factor so far and the dead columns. -/
def cholColumn (r : Nat) (g : Mat) (gmax : Nat) (allDead : Bool) (acc : Mat × List Nat) (j : Nat) : Mat × List Nat :=
  let (l, dead) := acc
  let d := cholSub l (mAt g j j) j j
  let one := 0x3F800000
  let lim := fmul32 gmax 0x33800000
  if allDead || fnonfinite fmtFp32 d || !fgt32 gmax 0 || !fgt32 d lim then
    let l1 := (List.range j).foldl (fun m k => mPut m j k 0) (mPut l j j one)
    ((List.range r).foldl (fun m i => if i > j then mPut m i j 0 else m) l1, dead ++ [j])
  else
    let root := fsqrt d
    ((List.range r).foldl (fun m i => if i > j then mPut m i j (fdiv (cholSub m (mAt g i j) i j) root) else m) (mPut l j j root),
     dead)

/-- inverse(transpose(l)), back-substitution, columns ascending (R247): upper triangular T with Lᵀ T = I. -/
def invT (r : Nat) (l : Mat) : Mat :=
  (List.range r).foldl
    (fun t c => ((List.range (c + 1)).reverse).foldl
      (fun t i =>
        let rhs := if i = c then 0x3F800000 else 0
        let s := (List.range r).foldl (fun s k => if i < k ∧ k ≤ c then
            mac s (fdecode fmtFp32 (mAt l k i)) (fdecode fmtFp32 (mAt t k c)) else s) 0
        mPut t i c (fdiv (fsub32 rhs s) (mAt l i i))) t)
    (List.replicate r (List.replicate r 0))

/-- chol_inv of R247: the matrix t and the dead columns. -/
def cholInv (r : Nat) (g : Mat) : Mat × List Nat :=
  let allDead := g.any fun row => row.any (fnonfinite fmtFp32)
  let gmax := (List.range r).foldl (fun m i => if fgt32 (mAt g i i) m then mAt g i i else m) (mAt g 0 0)
  let (l, dead) := (List.range r).foldl (cholColumn r g gmax allDead) (List.replicate r (List.replicate r 0), [])
  let t := invT r l
  (t.map fun row => (List.range r).map fun j => if dead.contains j then 0 else lget 0 row j, dead)

/-- FP32 A × B for a row of A. -/
def rowMul (r : Nat) (row : List Nat) (b : Mat) : List Nat :=
  (List.range r).map fun j => dotFrom 0 ((row.zip b).map fun p => (fdecode fmtFp32 p.1, fdecode fmtFp32 (lget 0 p.2 j)))

/-! ### Output blocks (R233, R239) -/

/-- The operands of a kernel's pass: the inner vectors of an output row and of an output column, the initial value, and how an inner
product goes on from an accumulator. -/
structure KOps where
  a    : Nat → List FNum
  b    : Nat → List FNum
  init : Nat → Nat → Nat
  dot  : Nat → List (FNum × FNum) → Nat

/-- FP32 code of a code of a format. -/
def toFp32 (f : FFmt) (c : Nat) : Nat := (fencode fmtFp32 (fdecode f c)).code

/-- The operands of *Kernel catalogue* (R243, R247): `m` dense, `p` of r columns, `q` of r columns, all codes of FMT; t1 and t of ORTH in
FP32. -/
def kernelOps (k : Kernel) (pass : Nat) (f : FFmt) (mx : Bool) (cols r : Nat) (m p q : List Nat) (t1 t : Mat) : KOps :=
  let row (w : Nat) (l : List Nat) (i : Nat) : List FNum := (lget [] (matOf w l) i).map (fdecode f)
  let col (w : Nat) (l : List Nat) (j : Nat) : List FNum := (matOf w l).map fun x => fdecode f (lget 0 x j)
  let prep := if mx then mxOperand else id
  let sliced := dotSlices (if mx then dotPairs else dotFrom) (32 / r)
  match k, pass with
  | .proj, _ => ⟨fun i => prep (row cols m i), fun j => prep (col r q j), fun _ _ => 0, sliced⟩
  | .projt, _ => ⟨fun i => prep (col cols m i), fun j => prep (col r p j), fun _ _ => 0, sliced⟩
  | .resid, _ => ⟨fun i => (row r p i).map fneg, row r q, fun i j => toFp32 f (mAt (matOf cols m) i j), dotFrom⟩
  | .recon, _ => ⟨row r p, row r q, fun _ _ => 0, dotFrom⟩
  | .orth, 0 => ⟨col r p, col r p, fun _ _ => 0, dotFrom⟩
  | .orth, 1 =>
    let rows := (matOf r p).map fun x => rowMul r (x.map (toFp32 f)) t1
    let c1 (j : Nat) : List FNum := rows.map fun x => fdecode fmtFp32 (lget 0 x j)
    ⟨c1, c1, fun _ _ => 0, dotFrom⟩
  | .orth, _ => ⟨row r p, fun j => t.map fun x => fdecode fmtFp32 (lget 0 x j), fun _ _ => 0, dotFrom⟩
  | _, _ => ⟨fun _ => [], fun _ => [], fun _ _ => 0, dotFrom⟩

/-- One tile task: the accumulators of an output block go on over `len` inner indices from `lo`; slices lie within these (R233, R239; log
entry 97). -/
def blockRun (o : KOps) (rows cols : List Nat) (lo len : Nat) (acc : List Nat) : List Nat :=
  let part (v : List FNum) : List FNum := (v.drop lo).take len
  let bs := cols.map fun j => (j, part (o.b j))
  ((rows.flatMap fun i =>
    let a := part (o.a i)
    bs.map fun x => (i, x.1, a.zip x.2)).zipIdx).map fun x =>
      o.dot (if lo = 0 then o.init x.1.1 x.1.2.1 else lget 0 acc x.2) x.1.2.2

/-! ### Initial factors -/

/-- Element (c, j) of a generated Q_prev before rounding (R250), as an exact number. -/
def genElem (job comm shard seed c j : Nat) : FNum :=
  let w := 2 ^ 64
  let key := ((job <<< 32) ||| (comm <<< 16) ||| shard) % w
  let z0 := key ^^^ (c * 0x9E3779B97F4A7C15 % w) ^^^ (j * 0xC2B2AE3D27D4EB4F % w)
  let z1 := z0 ^^^ (seed * 0x165667B19E3779F9 % w)
  let z2 := (z1 ^^^ (z1 >>> 30)) * 0xBF58476D1CE4E5B9 % w
  let z3 := (z2 ^^^ (z2 >>> 27)) * 0x94D049BB133111EB % w
  let z := z3 ^^^ (z3 >>> 31)
  let v : Int := (z >>> 40 : Nat) - 2 ^ 23
  .fin (decide (v < 0)) v.natAbs (-23)

/-- QINIT: Q_prev of COLS × r values in FMT, row-major (R249, R250). -/
def kQinit (f : FFmt) (job comm shard seed cols r : Nat) : List Nat :=
  (List.range cols).flatMap fun c => (List.range r).map fun j => (fencode f (genElem job comm shard seed c j)).code

/-- Q_prev as PROJ reads it: marked columns are generated values (R251). -/
def qRead (f : FFmt) (job comm shard : Nat) (mask : BitVec 64) (seed r : Nat) (q : List Nat) : List Nat :=
  ((matOf r q).zip (List.range q.length)).flatMap fun (row, c) =>
    (row.zip (List.range r)).map fun (v, j) =>
      if mask.getLsbD j then (fencode f (genElem job comm shard seed c j)).code else v

/-- The columns of Q that are all ±0 or hold a nonfinite element (R251). -/
def deadColumns (f : FFmt) (r : Nat) (q : List Nat) : BitVec 64 :=
  (List.range r).foldl (fun w j =>
    let col := (matOf r q).map fun row => lget 0 row j
    if col.all (fun c => c % 2 ^ (f.w + f.m) = 0) || col.any (fnonfinite f) then putBit w j true else w) 0

end Sys2Proof.Machine
end

