-- ==== Sys2Proof/Machine/EvInfo.lean ====
section
/-! DEFINITION. The number, severity and metric of each event code (R577) and which recorder takes it. -/

namespace Sys2Proof.Machine

open Sys2Proof

/-- CODE = ID × 256 + i (R577). -/
def evCode : Ev → Nat
  | .fabCrc => 0x0100
  | .fabRetrain => 0x0101
  | .fabLaneSpared => 0x0102
  | .fabPortDown => 0x0103
  | .fabHdrBad => 0x0104
  | .fabTransit => 0x0105
  | .fabCtrlDenied => 0x0106
  | .fabNoJob => 0x0107
  | .fabNoXlate => 0x0108
  | .fabLoop => 0x0109
  | .fabRankRange => 0x010A
  | .fabGenStale => 0x010B
  | .fabUnreach => 0x010C
  | .fabLeafSuppress => 0x010D
  | .poolParity => 0x0200
  | .poolShareBad => 0x0201
  | .poolStageSpill => 0x0202
  | .memLayoutBad => 0x0300
  | .memRtxFull => 0x0301
  | .memRereadOk => 0x0302
  | .memCheckFail => 0x0303
  | .memRtxLost => 0x0304
  | .memSpillLost => 0x0305
  | .memLedgerLost => 0x0306
  | .memTalusReset => 0x0307
  | .memStageLost => 0x0308
  | .memMirrorFixed => 0x0309
  | .memMirrorLost => 0x030A
  | .memUnitRetired => 0x030B
  | .memRemapFull => 0x030C
  | .memTrainFail => 0x030D
  | .colNoContext => 0x0400
  | .colAbort => 0x0401
  | .colFailed => 0x0402
  | .colNotStarted => 0x0403
  | .colPathDown => 0x0404
  | .colOrphaned => 0x0405
  | .colStale => 0x0406
  | .colStray => 0x0407
  | .colInDiscard => 0x0408
  | .colPendDrop => 0x0409
  | .colNonfinite => 0x040A
  | .colSaturate => 0x040B
  | .codecDamaged => 0x0500
  | .codecUnrecoverable => 0x0501
  | .codecRecode => 0x0502
  | .codecRecodeFail => 0x0503
  | .codecLag => 0x0504
  | .codecNonfinite => 0x0505
  | .codecSaturate => 0x0506
  | .codecTalusFull => 0x0507
  | .mtxDescBad => 0x0600
  | .mtxNoTile => 0x0601
  | .mtxTaskMoved => 0x0602
  | .mtxNonfinite => 0x0603
  | .mtxRankDeficient => 0x0604
  | .mtxReseed => 0x0605
  | .mtxSentinelMismatch => 0x0606
  | .schPolDrop => 0x0700
  | .schSysPolDrop => 0x0701
  | .schRelDrop => 0x0702
  | .schRlineChange => 0x0703
  | .lineUp => 0x0800
  | .lineDown => 0x0801
  | .lineLos => 0x0802
  | .lineLof => 0x0803
  | .lineOof => 0x0804
  | .lineBdi => 0x0805
  | .lineLaneId => 0x0806
  | .lineUncorr => 0x0807
  | .linePathErr => 0x0808
  | .lineResync => 0x0809
  | .lineRtxLost => 0x080A
  | .lineTribDrop => 0x080B
  | .lineAisTx => 0x080C
  | .lineAisRx => 0x080D
  | .lineAisDenied => 0x080E
  | .optPlanBad => 0x0900
  | .optMtPass => 0x0901
  | .optMarginLow => 0x0902
  | .optMtFail => 0x0903
  | .optWrongLock => 0x0904
  | .optRecal => 0x0905
  | .optSpareIn => 0x0906
  | .optSpareAbort => 0x0907
  | .optOok => 0x0908
  | .optNoSpare => 0x0909
  | .optCombFade => 0x090A
  | .optCombTakeover => 0x090B
  | .optCombFail => 0x090C
  | .optSafetyTrip => 0x090D
  | .optLaserDisabled => 0x090E
  | .optPlanBlock => 0x090F
  | .secKaOk => 0x0A00
  | .secKaFail => 0x0A01
  | .secSiteMismatch => 0x0A02
  | .secRekey => 0x0A03
  | .secRekeyFail => 0x0A04
  | .secLimitStop => 0x0A05
  | .secTagFail => 0x0A06
  | .secEpochBad => 0x0A07
  | .secSealFail => 0x0A08
  | .secResume => 0x0A09
  | .secResumeFail => 0x0A0A
  | .secRngFail => 0x0A0B
  | .secKatFail => 0x0A0C
  | .secPipeSpared => 0x0A0D
  | .provDiverge => 0x0B00
  | .provUnmatched => 0x0B01
  | .provOverrun => 0x0B02
  | .provSignFail => 0x0B03
  | .provPeerSigBad => 0x0B04
  | .provHeldDrop => 0x0B05
  | .timeLock => 0x0C00
  | .timeHoldover => 0x0C01
  | .timeHoldExceed => 0x0C02
  | .timeStep => 0x0C03
  | .timeJump => 0x0C04
  | .timeLoop => 0x0C05
  | .timeAsym => 0x0C06
  | .timeCfgBad => 0x0C07
  | .timeTrigLate => 0x0C08
  | .timeTrigSkip => 0x0C09
  | .timePpsBad => 0x0C0A
  | .timeCapLost => 0x0C0B
  | .timeGtrig => 0x0C0C
  | .partPathDown => 0x0D00
  | .partPathUp => 0x0D01
  | .partDrift => 0x0D02
  | .partDriftLimit => 0x0D03
  | .partRecon => 0x0D04
  | .partReload => 0x0D05
  | .partStale => 0x0D06
  | .partStallDrop => 0x0D07
  | .partModeMiss => 0x0D08
  | .partLoadFail => 0x0D09
  | .bootStrapBad => 0x0E00
  | .bootUnowned => 0x0E01
  | .bootFallback => 0x0E02
  | .bootImageFail => 0x0E03
  | .bootCfgBad => 0x0E04
  | .bootStepLate => 0x0E05
  | .bootSealed => 0x0E06
  | .bootHostEdit => 0x0E07
  | .bootHang => 0x0E08
  | .bootCoreHang => 0x0E09
  | .bootCoreSwap => 0x0E0A
  | .bootHubReset => 0x0E0B
  | .bootRecov => 0x0E0C
  | .bootRecovDone => 0x0E0D
  | .bootRecovFail => 0x0E0E
  | .bootCold => 0x0E0F
  | .bootImageChanged => 0x0E10
  | .bootOutOfService => 0x0E11
  | .bootDmaBlock => 0x0E12
  | .bootPwrEnter => 0x0E13
  | .bootPwrWake => 0x0E14
  | .hostLinkUp => 0x0F00
  | .hostLinkDown => 0x0F01
  | .hostLinkDegraded => 0x0F02
  | .hostPcieOnly => 0x0F03
  | .hostViol => 0x0F04
  | .hostViolLost => 0x0F05
  | .hostHdmUnavail => 0x0F06
  | .hostMbxTimeout => 0x0F07
  | .hostMbxDrop => 0x0F08
  | .hostIdeFail => 0x0F09
  | .evrRingFull => 0x1000
  | .evrSeal => 0x1001
  | .evrSealFail => 0x1002
  | .evrSealFull => 0x1003
  | .evrR6Lost => 0x1004
  | .evrLate => 0x1005
  | .hlthSuspect => 0x1100
  | .hlthFence => 0x1101
  | .hlthBudgetRefuse => 0x1102
  | .hlthFloorRefuse => 0x1103
  | .hlthReadmit => 0x1104
  | .hlthPermFence => 0x1105
  | .hlthSentinel => 0x1106

/-- The severity each events table gives. -/
def evSev : Ev → Sev
  | .fabCrc => .info
  | .fabRetrain => .warn
  | .fabLaneSpared => .warn
  | .fabPortDown => .fault
  | .fabHdrBad => .warn
  | .fabTransit => .warn
  | .fabCtrlDenied => .warn
  | .fabNoJob => .warn
  | .fabNoXlate => .warn
  | .fabLoop => .warn
  | .fabRankRange => .warn
  | .fabGenStale => .info
  | .fabUnreach => .warn
  | .fabLeafSuppress => .info
  | .poolParity => .warn
  | .poolShareBad => .fatal
  | .poolStageSpill => .warn
  | .memLayoutBad => .fatal
  | .memRtxFull => .warn
  | .memRereadOk => .info
  | .memCheckFail => .warn
  | .memRtxLost => .fault
  | .memSpillLost => .fault
  | .memLedgerLost => .fault
  | .memTalusReset => .warn
  | .memStageLost => .warn
  | .memMirrorFixed => .info
  | .memMirrorLost => .fault
  | .memUnitRetired => .fault
  | .memRemapFull => .fault
  | .memTrainFail => .fatal
  | .colNoContext => .warn
  | .colAbort => .warn
  | .colFailed => .warn
  | .colNotStarted => .warn
  | .colPathDown => .warn
  | .colOrphaned => .warn
  | .colStale => .info
  | .colStray => .warn
  | .colInDiscard => .info
  | .colPendDrop => .warn
  | .colNonfinite => .info
  | .colSaturate => .info
  | .codecDamaged => .warn
  | .codecUnrecoverable => .fault
  | .codecRecode => .warn
  | .codecRecodeFail => .fault
  | .codecLag => .info
  | .codecNonfinite => .info
  | .codecSaturate => .info
  | .codecTalusFull => .warn
  | .mtxDescBad => .fault
  | .mtxNoTile => .fault
  | .mtxTaskMoved => .info
  | .mtxNonfinite => .info
  | .mtxRankDeficient => .info
  | .mtxReseed => .info
  | .mtxSentinelMismatch => .warn
  | .schPolDrop => .info
  | .schSysPolDrop => .warn
  | .schRelDrop => .info
  | .schRlineChange => .info
  | .lineUp => .info
  | .lineDown => .fault
  | .lineLos => .fault
  | .lineLof => .fault
  | .lineOof => .warn
  | .lineBdi => .warn
  | .lineLaneId => .warn
  | .lineUncorr => .warn
  | .linePathErr => .warn
  | .lineResync => .info
  | .lineRtxLost => .warn
  | .lineTribDrop => .info
  | .lineAisTx => .warn
  | .lineAisRx => .warn
  | .lineAisDenied => .warn
  | .optPlanBad => .fatal
  | .optMtPass => .info
  | .optMarginLow => .warn
  | .optMtFail => .fault
  | .optWrongLock => .info
  | .optRecal => .info
  | .optSpareIn => .warn
  | .optSpareAbort => .warn
  | .optOok => .warn
  | .optNoSpare => .fault
  | .optCombFade => .warn
  | .optCombTakeover => .warn
  | .optCombFail => .fault
  | .optSafetyTrip => .fault
  | .optLaserDisabled => .warn
  | .optPlanBlock => .fault
  | .secKaOk => .info
  | .secKaFail => .fault
  | .secSiteMismatch => .fault
  | .secRekey => .info
  | .secRekeyFail => .warn
  | .secLimitStop => .fault
  | .secTagFail => .warn
  | .secEpochBad => .warn
  | .secSealFail => .warn
  | .secResume => .info
  | .secResumeFail => .warn
  | .secRngFail => .fault
  | .secKatFail => .fault
  | .secPipeSpared => .warn
  | .provDiverge => .fault
  | .provUnmatched => .warn
  | .provOverrun => .fault
  | .provSignFail => .fault
  | .provPeerSigBad => .fault
  | .provHeldDrop => .warn
  | .timeLock => .info
  | .timeHoldover => .warn
  | .timeHoldExceed => .fault
  | .timeStep => .warn
  | .timeJump => .fault
  | .timeLoop => .fault
  | .timeAsym => .warn
  | .timeCfgBad => .fatal
  | .timeTrigLate => .warn
  | .timeTrigSkip => .warn
  | .timePpsBad => .warn
  | .timeCapLost => .info
  | .timeGtrig => .info
  | .partPathDown => .fault
  | .partPathUp => .info
  | .partDrift => .warn
  | .partDriftLimit => .fault
  | .partRecon => .info
  | .partReload => .warn
  | .partStale => .warn
  | .partStallDrop => .warn
  | .partModeMiss => .fault
  | .partLoadFail => .fault
  | .bootStrapBad => .warn
  | .bootUnowned => .warn
  | .bootFallback => .warn
  | .bootImageFail => .fatal
  | .bootCfgBad => .fatal
  | .bootStepLate => .warn
  | .bootSealed => .info
  | .bootHostEdit => .warn
  | .bootHang => .fault
  | .bootCoreHang => .warn
  | .bootCoreSwap => .warn
  | .bootHubReset => .fault
  | .bootRecov => .warn
  | .bootRecovDone => .info
  | .bootRecovFail => .fault
  | .bootCold => .fault
  | .bootImageChanged => .fatal
  | .bootOutOfService => .fatal
  | .bootDmaBlock => .fault
  | .bootPwrEnter => .info
  | .bootPwrWake => .info
  | .hostLinkUp => .info
  | .hostLinkDown => .warn
  | .hostLinkDegraded => .warn
  | .hostPcieOnly => .warn
  | .hostViol => .warn
  | .hostViolLost => .warn
  | .hostHdmUnavail => .info
  | .hostMbxTimeout => .warn
  | .hostMbxDrop => .info
  | .hostIdeFail => .fault
  | .evrRingFull => .warn
  | .evrSeal => .info
  | .evrSealFail => .fault
  | .evrSealFull => .warn
  | .evrR6Lost => .warn
  | .evrLate => .info
  | .hlthSuspect => .warn
  | .hlthFence => .fault
  | .hlthBudgetRefuse => .warn
  | .hlthFloorRefuse => .warn
  | .hlthReadmit => .info
  | .hlthPermFence => .fault
  | .hlthSentinel => .warn

/-- The event metric of a code: its block's first metric + i (R577). -/
def evMetric : Ev → Nat
  | .fabCrc => 0
  | .fabRetrain => 1
  | .fabLaneSpared => 2
  | .fabPortDown => 3
  | .fabHdrBad => 4
  | .fabTransit => 5
  | .fabCtrlDenied => 6
  | .fabNoJob => 7
  | .fabNoXlate => 8
  | .fabLoop => 9
  | .fabRankRange => 10
  | .fabGenStale => 11
  | .fabUnreach => 12
  | .fabLeafSuppress => 13
  | .poolParity => 14
  | .poolShareBad => 15
  | .poolStageSpill => 16
  | .memLayoutBad => 17
  | .memRtxFull => 18
  | .memRereadOk => 19
  | .memCheckFail => 20
  | .memRtxLost => 21
  | .memSpillLost => 22
  | .memLedgerLost => 23
  | .memTalusReset => 24
  | .memStageLost => 25
  | .memMirrorFixed => 26
  | .memMirrorLost => 27
  | .memUnitRetired => 28
  | .memRemapFull => 29
  | .memTrainFail => 30
  | .colNoContext => 31
  | .colAbort => 32
  | .colFailed => 33
  | .colNotStarted => 34
  | .colPathDown => 35
  | .colOrphaned => 36
  | .colStale => 37
  | .colStray => 38
  | .colInDiscard => 39
  | .colPendDrop => 40
  | .colNonfinite => 41
  | .colSaturate => 42
  | .codecDamaged => 43
  | .codecUnrecoverable => 44
  | .codecRecode => 45
  | .codecRecodeFail => 46
  | .codecLag => 47
  | .codecNonfinite => 48
  | .codecSaturate => 49
  | .codecTalusFull => 50
  | .mtxDescBad => 51
  | .mtxNoTile => 52
  | .mtxTaskMoved => 53
  | .mtxNonfinite => 54
  | .mtxRankDeficient => 55
  | .mtxReseed => 56
  | .mtxSentinelMismatch => 57
  | .schPolDrop => 58
  | .schSysPolDrop => 59
  | .schRelDrop => 60
  | .schRlineChange => 61
  | .lineUp => 62
  | .lineDown => 63
  | .lineLos => 64
  | .lineLof => 65
  | .lineOof => 66
  | .lineBdi => 67
  | .lineLaneId => 68
  | .lineUncorr => 69
  | .linePathErr => 70
  | .lineResync => 71
  | .lineRtxLost => 72
  | .lineTribDrop => 73
  | .lineAisTx => 74
  | .lineAisRx => 75
  | .lineAisDenied => 76
  | .optPlanBad => 77
  | .optMtPass => 78
  | .optMarginLow => 79
  | .optMtFail => 80
  | .optWrongLock => 81
  | .optRecal => 82
  | .optSpareIn => 83
  | .optSpareAbort => 84
  | .optOok => 85
  | .optNoSpare => 86
  | .optCombFade => 87
  | .optCombTakeover => 88
  | .optCombFail => 89
  | .optSafetyTrip => 90
  | .optLaserDisabled => 91
  | .optPlanBlock => 92
  | .secKaOk => 93
  | .secKaFail => 94
  | .secSiteMismatch => 95
  | .secRekey => 96
  | .secRekeyFail => 97
  | .secLimitStop => 98
  | .secTagFail => 99
  | .secEpochBad => 100
  | .secSealFail => 101
  | .secResume => 102
  | .secResumeFail => 103
  | .secRngFail => 104
  | .secKatFail => 105
  | .secPipeSpared => 106
  | .provDiverge => 107
  | .provUnmatched => 108
  | .provOverrun => 109
  | .provSignFail => 110
  | .provPeerSigBad => 111
  | .provHeldDrop => 112
  | .timeLock => 113
  | .timeHoldover => 114
  | .timeHoldExceed => 115
  | .timeStep => 116
  | .timeJump => 117
  | .timeLoop => 118
  | .timeAsym => 119
  | .timeCfgBad => 120
  | .timeTrigLate => 121
  | .timeTrigSkip => 122
  | .timePpsBad => 123
  | .timeCapLost => 124
  | .timeGtrig => 125
  | .partPathDown => 126
  | .partPathUp => 127
  | .partDrift => 128
  | .partDriftLimit => 129
  | .partRecon => 130
  | .partReload => 131
  | .partStale => 132
  | .partStallDrop => 133
  | .partModeMiss => 134
  | .partLoadFail => 135
  | .bootStrapBad => 136
  | .bootUnowned => 137
  | .bootFallback => 138
  | .bootImageFail => 139
  | .bootCfgBad => 140
  | .bootStepLate => 141
  | .bootSealed => 142
  | .bootHostEdit => 143
  | .bootHang => 144
  | .bootCoreHang => 145
  | .bootCoreSwap => 146
  | .bootHubReset => 147
  | .bootRecov => 148
  | .bootRecovDone => 149
  | .bootRecovFail => 150
  | .bootCold => 151
  | .bootImageChanged => 152
  | .bootOutOfService => 153
  | .bootDmaBlock => 154
  | .bootPwrEnter => 155
  | .bootPwrWake => 156
  | .hostLinkUp => 157
  | .hostLinkDown => 158
  | .hostLinkDegraded => 159
  | .hostPcieOnly => 160
  | .hostViol => 161
  | .hostViolLost => 162
  | .hostHdmUnavail => 163
  | .hostMbxTimeout => 164
  | .hostMbxDrop => 165
  | .hostIdeFail => 166
  | .evrRingFull => 167
  | .evrSeal => 168
  | .evrSealFail => 169
  | .evrSealFull => 170
  | .evrR6Lost => 171
  | .evrLate => 172
  | .hlthSuspect => 173
  | .hlthFence => 174
  | .hlthBudgetRefuse => 175
  | .hlthFloorRefuse => 176
  | .hlthReadmit => 177
  | .hlthPermFence => 178
  | .hlthSentinel => 179

/-- The number of a severity in a record (R572). -/
def sevNum : Sev → Nat
  | .info => 0 | .warn => 1 | .fault => 2 | .fatal => 3

/-- The number of a plane in a record (R572). -/
def planeNum : Plane → Nat
  | .data => 0 | .control => 1 | .management => 2

end Sys2Proof.Machine
end

