-- ==== Sys2Proof/Machine/RegTable.lean ====
section
/-! DEFINITION. The register map: every register that holds something software can write, with its reset value, access and ranges,
from the register tables of every chapter. Offsets are from the start of the channel window or of BAR0. -/

namespace Sys2Proof.Machine

open Sys2Proof

/-- One row: `n` registers, `stride` bytes apart from `lo`. Masks give the RW, RWS and W1C bits; `fields` the ranges of its
fields as (hi, lo, least, greatest), to whose nearest end a written value goes. -/
structure RegRow where
  lo     : Nat
  n      : Nat := 1
  stride : Nat := 4
  reset  : Nat := 0
  rw     : Nat := 0
  rws    : Nat := 0
  w1c    : Nat := 0
  fields : List (Nat × Nat × Nat × Nat) := []
  /-- Bits 31–16 are stored as bits 15–0 where they are written below them (R289). -/
  atLeast : Bool := false
  deriving DecidableEq, Repr, Inhabited

/-- Whether a row holds the register at an offset. -/
def RegRow.has (r : RegRow) (off : Nat) : Bool :=
  decide (r.lo ≤ off) && (off - r.lo) % r.stride == 0 && decide ((off - r.lo) / r.stride < r.n)

/-- CTRL registers (R545, R546, R509). -/
def rowsCtrl : List RegRow := [
  { lo := 0x8, rw := 0xFFFF0000 },
  { lo := 0xC, reset := 0x64326403, rws := 0xFFFFFFFF,
    fields := [(31, 24, 10, 255), (23, 16, 10, 255), (15, 8, 10, 255), (7, 0, 1, 15)] },
  { lo := 0x10, reset := 0x00640040, rws := 0xFFFFFFFF, fields := [(31, 16, 1, 65535), (15, 0, 4, 65535)] },
  { lo := 0x48, reset := 0x1E020000, rws := 0xFFFFF800, fields := [(31, 22, 1, 900), (21, 11, 1, 1024)] },
  { lo := 0x300, n := 4, stride := 16, rws := 0xFFFFF000 },
  { lo := 0x304, n := 4, stride := 16, rws := 0xFFFFFFFF },
  { lo := 0x308, n := 4, stride := 16, rws := 0xFFFFFFFF },
  { lo := 0x30C, n := 4, stride := 16, rws := 0x3 }]

/-- FAB.CFG (R104). -/
def rowsFab : List RegRow := [
  { lo := 0x100018, reset := 0x14140000, rws := 0xFFFF0000, fields := [(31, 24, 5, 200), (23, 18, 1, 50)] }]

/-- POOL.SHARE_p and MEM registers (R143, R148–R150). -/
def rowsMem : List RegRow := [
  { lo := 0x200010, reset := 0x80020000, rws := 0xFFFFF000 },
  { lo := 0x200014, reset := 0x40020000, rws := 0xFFFFF000 },
  { lo := 0x200018, reset := 0x10060000, rws := 0xFFFFF000 },
  { lo := 0x20001C, reset := 0x10010000, rws := 0xFFFFF000 },
  { lo := 0x300020, reset := 0x4620200A, rws := 0xFFFFFFFF },
  { lo := 0x300054, rws := 0x1 },
  { lo := 0x300100, reset := 0x00080000, rws := 0xFFFFC000 },
  { lo := 0x300104, reset := 0x10100000, rws := 0xFFFFC000 },
  { lo := 0x300108, reset := 0x30100000, rws := 0xFFFFC000 },
  { lo := 0x30010C, reset := 0x50180000, rws := 0xFFFFC000 },
  { lo := 0x300110, reset := 0x80180000, rws := 0xFFFFC000 },
  { lo := 0x300114, reset := 0xB0023000, rws := 0xFFFFC000 },
  { lo := 0x300118, reset := 0xB4013000, rws := 0xFFFFC000 },
  { lo := 0x30011C, reset := 0xB6031000, rws := 0xFFFFC000 },
  { lo := 0x300120, reset := 0xBC020000 }]

/-- COL.CFG, MTX.CFG and SCH registers (R191, R258, R288, R289). -/
def rowsSch : List RegRow := [
  { lo := 0x400300, reset := 0x4C000000, rws := 0xFC000000, fields := [(31, 28, 2, 15)] },
  { lo := 0x600008, rws := 0x80000000 },
  { lo := 0x700000, reset := 0x08020000, rws := 0xFFFF8000, fields := [(31, 23, 1, 256), (22, 15, 3, 255)] },
  { lo := 0x700004, n := 3, reset := 0x80020000, rws := 0xFFFF8000, fields := [(31, 23, 1, 256), (22, 15, 3, 255)] },
  { lo := 0x700020, reset := 0x01900064, rws := 0xFFFFFFFF, atLeast := true },
  { lo := 0x700024, reset := 0x00400040, rws := 0xFFFFFFFF, fields := [(31, 16, 9, 65535), (15, 0, 9, 65535)] },
  { lo := 0x700100, n := 64, reset := 0x10000004, rws := 0xFFFFFFFF, fields := [(31, 24, 1, 255), (7, 0, 3, 255)] },
  { lo := 0x700200, n := 16, reset := 0x19, rws := 0x7F, fields := [(6, 0, 1, 100)] }]

/-- LINE and OPT registers (R336, R337, R372, R373). -/
def rowsLine : List RegRow := [
  { lo := 0x800008, reset := 0x35019019, rws := 0xFFFFFFFF,
    fields := [(31, 28, 2, 8), (27, 24, 3, 15), (23, 12, 5, 300), (11, 0, 5, 300)] },
  { lo := 0x80000C, reset := 0x00C84064, rws := 0xFFFFFFFF,
    fields := [(31, 16, 100, 5000), (15, 12, 1, 8), (11, 0, 10, 4000)] },
  { lo := 0x800020, n := 8, stride := 8, rws := 0x800000FF },
  { lo := 0x800024, n := 8, stride := 8, rws := 0xFFFFFFFF },
  { lo := 0x900004, reset := 0x0F1E1420, rws := 0xFFFFFFF8,
    fields := [(31, 24, 5, 50), (23, 16, 10, 80), (15, 8, 5, 60), (7, 3, 1, 24)] },
  { lo := 0x900008, reset := 0xFFFFFFFF, rws := 0xFFFFFFFF },
  { lo := 0x90000C, reset := 0x0000110F, rws := 0xFFFFF10F }]

/-- SEC.CFG, PROV, TIME, HLTH and EVR registers (R405, R427, R428, R465–R467, R511, R597, R599). -/
def rowsSec : List RegRow := [
  { lo := 0xA00004, reset := 0x43E807D0, rws := 0xFFFFFFFF,
    fields := [(29, 22, 1, 60), (21, 16, 30, 40), (15, 0, 500, 65535)] },
  { lo := 0xB00000, w1c := 0xC0000000 },
  { lo := 0xB00004, reset := 0x3C0A0000, rws := 0xFFFF0000, fields := [(31, 24, 1, 255), (23, 16, 1, 255)] },
  { lo := 0xB00010, n := 2, rw := 0xFFFFFFFF },
  { lo := 0xC00004, reset := 0x4140640A, rws := 0xFFFFFFFF, fields := [(27, 20, 5, 255), (19, 8, 1, 4095), (7, 0, 2, 255)] },
  { lo := 0xC0002C, rws := 0xFFFFFFFF },
  { lo := 0xC00030, reset := 0x7D000000, rws := 0xFF000000, fields := [(31, 24, 1, 255)] },
  { lo := 0xC00040, n := 8, stride := 8, rws := 0x800000FF },
  { lo := 0xC00044, n := 8, stride := 8, rws := 0xFFFFFFFF },
  { lo := 0xD00000, reset := 0x20A23000, rws := 0xFFFFFC00,
    fields := [(27, 20, 1, 255), (19, 15, 1, 31), (14, 10, 6, 16)] },
  { lo := 0xD00004, reset := 0x21084201, rws := 0x3FFFFFFF,
    fields := [(29, 25, 1, 17), (24, 20, 1, 17), (19, 15, 1, 17), (14, 10, 1, 17), (9, 5, 1, 17), (4, 0, 1, 2)] },
  { lo := 0xE00000, w1c := 0x08000000 },
  { lo := 0xE00004, reset := 0x60000000, rws := 0xF0000000 },
  { lo := 0xE11C00, n := 64, stride := 16, rws := 0xE0000000 },
  { lo := 0xE11C04, n := 64, stride := 16, rws := 0xFFFFFFFF },
  { lo := 0xE11C08, n := 64, stride := 16, rws := 0xFFFFFFFF }]

/-- Channel-window registers that software writes by a plain REGISTER_WRITE. -/
def chanRows : List RegRow :=
  rowsCtrl ++ rowsFab ++ rowsMem ++ rowsSch ++ rowsLine ++ rowsSec

/-- The reset value of mailbox route `k` (R564). -/
def routeReset (k : Nat) : Nat := if k < 8 then 0x10000000 else 0x20000000 + ((k - 8) / 3) * 0x1000000

/-- BAR0 registers that software writes by a plain REGISTER_WRITE (R561, R619, R468, R467, R570, R601). -/
def hubRows : List RegRow := [
  { lo := 0xC, reset := 0x00FFFFFF, rws := 0x00FFFFFF },
  { lo := 0x100000, w1c := 0x1FFFF000 },
  { lo := 0x10000C, reset := 0x64000000, rws := 0xFF000000, fields := [(31, 24, 70, 104)] },
  { lo := 0x200004, reset := 0x00280000, rws := 0xFFFF0000 },
  { lo := 0x200008, rw := 0xFFFFFFFF },
  { lo := 0x20000C, rw := 0x0000FFFF },
  { lo := 0x20001C, reset := 0x00006401, rw := 0xFFFFFF01 },
  { lo := 0x200100, n := 8, stride := 16, rw := 0xFFFFFFFF },
  { lo := 0x200104, n := 8, stride := 16, rw := 0xBFFFFFFF, w1c := 0x40000000 },
  { lo := 0x200108, n := 8, stride := 16, rw := 0xFFFFFFFF },
  { lo := 0x20010C, n := 8, stride := 16, rw := 0xFFFFFFFF },
  { lo := 0x400000, w1c := 0x08000000 },
  { lo := 0x400004, reset := 0x60000000, rws := 0xF0000000 },
  { lo := 0x400028, rw := 0x000001FF },
  { lo := 0x500000, reset := 0x000A0000, rws := 0xFFFF0000, fields := [(31, 16, 1, 1000)] }]

/-- The default MBX.ROUTE_k rows (R564, R570). -/
def routeRows : List RegRow :=
  (List.range 32).map fun k => { lo := 0x500100 + 4 * k, reset := routeReset k, rws := 0xFF000000 }

/-- The row of a channel register. -/
def chanRow (off : Nat) : Option RegRow := chanRows.find? fun r => r.has off

/-- The row of a BAR0 register. -/
def hubRow (off : Nat) : Option RegRow := (hubRows ++ routeRows).find? fun r => r.has off

/-- Reset value of the register at a channel offset. -/
def chanReset (off : Nat) : Word := BitVec.ofNat 32 ((chanRow off).map RegRow.reset |>.getD 0)

/-- Reset value of the register at a BAR0 offset. -/
def hubReset (off : Nat) : Word := BitVec.ofNat 32 ((hubRow off).map RegRow.reset |>.getD 0)

/-- A field brought to the nearest end of its range. -/
def clampField (w : Word) (f : Nat × Nat × Nat × Nat) : Word :=
  putFld w f.1 f.2.1 (clampNat f.2.2.1 f.2.2.2 (fld w f.1 f.2.1))

/-- A register after a write of `data` under a row: writable bits stored and brought into range, W1C bits cleared where the data
holds 1, all others left (R13, R15). -/
def RegRow.store (r : RegRow) (isSealed : Bool) (old data : Word) : Word :=
  let m : Word := BitVec.ofNat 32 (r.rw ||| (if isSealed then 0 else r.rws))
  let w1c : Word := BitVec.ofNat 32 r.w1c
  let w := ((old &&& ~~~m) ||| (data &&& m)) &&& ~~~(w1c &&& data)
  if isSealed && r.rw == 0 then w
  else
    let w := r.fields.foldl clampField w
    if r.atLeast && decide (fld w 31 16 < fld w 15 0) then putFld w 31 16 (fld w 15 0) else w

end Sys2Proof.Machine
end

