-- ==== Sys2Proof/Machine/State.lean ====
section
/-! DEFINITION. The state of an SZ8: eight channels, the hub, and the queue of commands that wait. Plain data. -/

namespace Sys2Proof.Machine

open Sys2Proof

/-- Why a command stops with a fault. Nothing in the spec stops the block: whatever a rule forbids is discarded, answered or logged, and
the machine goes on. So no command faults, and there is no constructor. Safe. -/
inductive Fault where
  deriving DecidableEq, Repr

/-- Why a command has no meaning here. -/
inductive Refusal where
  /-- Raised by Dispatch for a command that has no meaning yet; every command has one, so no arm raises it. Safe. -/
  | notModelled (mnemonic : String)
  deriving DecidableEq, Repr, Inhabited

/-- A channel: gateway channel CHn (R17), with all that its die, engine, combs and LPDDR6 hold. -/
structure Chan where
  /-- Configuration registers, counters and latched status words that differ from their reset values, by offset in the
  channel window. -/
  regs     : Cells Word := []
  /-- Tick tokens received since power-good (R32). -/
  us       : Nat := 0
  ms       : Nat := 0
  /-- Edge clocks follow the channel reference crystal (R22). -/
  crystal  : Bool := false
  /-- The hub has failed (R21): violations wait here, and count when 16 wait (R560). -/
  hubLost  : Bool := false
  viols    : List Viol := []
  violLost : Nat := 0
  /-- Error statuses given to the channel's cores, trigger actions and host accesses (R557). -/
  errs     : Nat := 0
  cfg      : Sealed := {}
  boot     : Boot := {}
  ctrl     : Ctrl := {}
  fab      : Fab := {}
  mem      : Mem := {}
  col      : Col := {}
  codec    : Codec := {}
  mtx      : Mtx := {}
  sch      : Sch := {}
  line     : Line := {}
  opt      : Opt := {}
  sec      : Sec := {}
  prov     : Prov := {}
  time     : Time := {}
  hlth     : Hlth := {}
  part     : Part := {}
  evr      : Recorder := {}
  /-- What a cold restart has left to be sealed (R593). -/
  oldEvr   : Option OldEvr := none
  deriving DecidableEq, Repr, Inhabited

/-- The hub die, and what the module as a whole has: board pins, module time, the module's recorder, sealed areas. -/
structure Hub where
  regs     : Cells Word := []
  us       : Nat := 0
  ms       : Nat := 0
  failed   : Bool := false
  /-- GLB.CAPS (R3): the reset value is that of SZ8-A B1. -/
  caps     : Word := 0x21FFFF01
  host     : HostPort := {}
  pwr      : Power := {}
  boot     : HubBoot := {}
  spdm     : Spdm := {}
  gtime    : GTime := {}
  evr      : Recorder := {}
  /-- Sealed areas of the configuration memory, 0–7 the channels', 8 the module's (R590); seals requested, in order; the one that
  runs (R588). -/
  areas    : Vector SealArea 9 := Vector.replicate 9 {}
  sealQ    : List Nat := []
  sealing  : Option Nat := none
  deriving DecidableEq, Repr, Inhabited

/-- The machine. `free` counts the free values taken so far (log entry 2). -/
structure State where
  pending : List Instr := []
  hub     : Hub := {}
  chans   : Vector Chan 8 := Vector.replicate 8 {}
  free    : Nat := 0
  deriving DecidableEq, Repr, Inhabited

/-- The machine right after reset. -/
def State.reset : State := {}

end Sys2Proof.Machine
end

