-- ==== Sys2Proof/Machine/Ops.lean ====
section
/-! DEFINITION. The named operations every command uses: channels of the state, registers and counters, events, violations, time and
trigger slots, tributary messages. -/

namespace Sys2Proof.Machine

open Sys2Proof

/-! ### Channels of the state -/

/-- Channel `n` is populated: CH_PRESENT of GLB.CAPS (R3). -/
def State.present (s : State) (n : Nat) : Bool := bitOf s.hub.caps (8 + n)

/-- The window of channel `n` is there; when no image is accepted every window is absent (R6, R523). -/
def State.hasWindow (s : State) (n : Nat) : Bool := s.present n && decide (s.hub.boot.phase ≠ 3)

/-- Channel `n` has a matrix engine: MTX_PRESENT of GLB.CAPS (R3). -/
def State.mtxPresent (s : State) (n : Nat) : Bool := bitOf s.hub.caps (16 + n)

/-- Channel `n`. -/
def State.chan (s : State) (n : Fin 8) : Chan := s.chans[n]

/-- The state with channel `n` replaced. -/
def State.setChan (s : State) (n : Fin 8) (c : Chan) : State := { s with chans := s.chans.set n c }

/-- The state with the hub changed by `f`. -/
def State.modHub (s : State) (f : Hub → Hub) : State := { s with hub := f s.hub }

/-- A command to channel `n`: nothing happens where the channel is not populated (log entry 3). -/
def onChan (n : Fin 8) (f : Chan → Chan) (s : State) : State :=
  if s.present n then s.setChan n (f (s.chan n)) else s

/-- A command to channel `n` that draws `k` free values (log entry 2). -/
def onChanFree (n : Fin 8) (k : Nat) (f : Nat → Chan → Chan) (s : State) : State :=
  if s.present n then { s.setChan n (f s.free (s.chan n)) with free := s.free + k } else s

/-- The channel is out of reset: in a start-up step, in service or in recovery (R545 PHASE 1–8). -/
def Chan.live (c : Chan) : Bool := decide (1 ≤ c.boot.phase) && decide (c.boot.phase ≤ 8)

/-- Its data path and control sequencer run too: no recovery is under way (R529, R535). -/
def Chan.inPath (c : Chan) : Bool := decide (1 ≤ c.boot.phase) && decide (c.boot.phase ≤ 7)

/-- A command to the data path or the control sequencer of channel `n`. -/
def onPath (n : Fin 8) (f : Chan → Chan) (s : State) : State := onChan n (fun c => if c.inPath then f c else c) s

/-- As `onPath`, drawing `k` free values. -/
def onPathFree (n : Fin 8) (k : Nat) (f : Nat → Chan → Chan) (s : State) : State :=
  onChanFree n k (fun v c => if c.inPath then f v c else c) s

/-- A command to channel `n` that a channel in reset, in restart, held or out of service does not answer (R20, R526, R529). -/
def onLive (n : Fin 8) (f : Chan → Chan) (s : State) : State := onChan n (fun c => if c.live then f c else c) s

/-- As `onLive`, drawing `k` free values. -/
def onLiveFree (n : Fin 8) (k : Nat) (f : Nat → Chan → Chan) (s : State) : State :=
  onChanFree n k (fun v c => if c.live then f v c else c) s

/-- A command ends in a next state. -/
abbrev Out := Host.Outcome State Fault Refusal

/-- The outcome of a command whose operands are well formed. -/
def done (s : State) : Out := .next s

/-! ### Registers and counters -/

/-- A register of the channel window as stored. -/
def Chan.reg (c : Chan) (off : Nat) : Word := cget (chanReset off) c.regs off

/-- The channel with a register stored; the reset value is not listed. -/
def Chan.setReg (c : Chan) (off : Nat) (w : Word) : Chan :=
  { c with regs := if w = chanReset off then cdel c.regs off else cput c.regs off w }

/-- A counter raised by `n`, stopping at 0xFFFF_FFFF. -/
def Chan.count (c : Chan) (off : Nat) (n : Nat := 1) : Chan := if n = 0 then c else c.setReg off (satAdd (c.reg off) n)

/-- A BAR0 register as stored. -/
def Hub.reg (h : Hub) (off : Nat) : Word := cget (hubReset off) h.regs off

/-- The hub with a register stored; the reset value is not listed. -/
def Hub.setReg (h : Hub) (off : Nat) (w : Word) : Hub :=
  { h with regs := if w = hubReset off then cdel h.regs off else cput h.regs off w }

/-- A BAR0 counter raised by `n`, stopping at 0xFFFF_FFFF. -/
def Hub.count (h : Hub) (off : Nat) (n : Nat := 1) : Hub := if n = 0 then h else h.setReg off (satAdd (h.reg off) n)

/-! ### Regions of the deep buffer (R118, R122–R125, R131, R132) -/

/-- Base and size of a region, in bytes (R149). -/
def Chan.regionBase (c : Chan) (r : Nat) : Nat := fld (c.reg (0x300100 + 4 * r)) 31 23 * 268435456
def Chan.regionSize (c : Chan) (r : Nat) : Nat := fld (c.reg (0x300100 + 4 * r)) 22 14 * 268435456

/-- The region that holds a physical address, and the offset in it. -/
def Chan.regionOf (c : Chan) (a : Nat) : Option (Nat × Nat) :=
  match (List.range 9).find? fun r => decide (c.regionBase r ≤ a) && decide (a < c.regionBase r + c.regionSize r) with
  | some r => some (r, a - c.regionBase r)
  | none => none

/-- Offset of a line of a mirrored region of a given size in its copy A (R124). -/
def mirrorHome (size off : Nat) : Nat := if off < size / 2 then off else (off - size / 2) ^^^ 0x8000

/-- The 4 KiB units of a region that are retired without a replacement, by number in the region, or in a copy of a mirrored one, in
ascending order and each once (R124, R132). -/
def Chan.badUnits (c : Chan) (r : Nat) : List Nat :=
  let size := c.regionSize r
  let offs := (c.mem.retired.filter fun x => x.repl.isNone).filterMap fun x =>
    if c.regionBase r ≤ x.unit * 4096 ∧ x.unit * 4096 < c.regionBase r + size then some (x.unit * 4096 - c.regionBase r) else none
  let units := offs.map fun o => (if r = 5 ∨ r = 6 then mirrorHome size o else o) / 4096
  sortBy (fun a b : Nat => decide (a ≤ b)) units.eraseDups

/-- The MiB of a region that hold units retired without a replacement, as runs: the allocator of whole MiB skips them (R132). -/
def Chan.badMibs (c : Chan) (r : Nat) : List (Nat × Nat) := ((c.badUnits r).map fun u => u / 256).eraseDups.map fun m => (m, 1)

/-- The place `pos` of an allocator that skips the units named (R132). -/
def skipUnits (bad : List Nat) (pos : Nat) : Nat := bad.foldl (fun p b => if b ≤ p / 4096 then p + 4096 else p) pos

/-- The place that an allocator that skips the units named counts at an offset; none inside such a unit. -/
def unskip (bad : List Nat) (off : Nat) : Option Nat :=
  if bad.contains (off / 4096) then none else some (off - 4096 * (bad.filter fun b => decide (b < off / 4096)).length)

/-- Records of `n` bytes that a mirrored region holds behind its first 64 KiB (R132, R135, R424, R586). -/
def Chan.mirrorCap (c : Chan) (r n : Nat) : Nat :=
  (c.regionSize r / 2 - 65536 - 4096 * ((c.badUnits r).filter fun b => decide (16 ≤ b)).length) / n

/-- Number of the record of `n` bytes that an offset in a copy of a mirrored region belongs to (R135). -/
def Chan.mirrorRec (c : Chan) (r n off : Nat) : Option Nat :=
  if off < 65536 then none else (unskip ((c.badUnits r).filter fun b => decide (16 ≤ b)) off).map fun p => (p - 65536) / n

/-! ### Time -/

/-- The channel's time, whole nanoseconds (R436). -/
def Chan.now (c : Chan) : Instant := c.time.unit.now / 65536

/-- Module time, whole nanoseconds. -/
def Hub.now (h : Hub) : Instant := h.gtime.unit.now / 65536

/-- The measured round-trip time in ns; 10 ms until it has been measured (R448). -/
def Chan.rttNs (c : Chan) : Nat := if c.line.rttNs = 0 then 10000000 else c.line.rttNs

/-- The measured round-trip time in whole µs, rounded up. -/
def Chan.rttUs (c : Chan) : Nat := (c.rttNs + 999) / 1000

/-- A full stamp of 6 bytes of seconds and 4 of nanoseconds (R432). -/
def stampBytes (t : Instant) : List Byte := beBytes 6 (t / 1000000000) ++ beBytes 4 (t % 1000000000)

/-- The instant a full stamp names; none when its NANOSECONDS is 10⁹ or more (R432). -/
def instantOf (sec : BitVec 48) (ns : BitVec 32) : Option Instant :=
  if ns.toNat < 1000000000 then some (sec.toNat * 1000000000 + ns.toNat) else none

/-! ### Events -/

/-- U is unbounded, or the stamp lies within U of a window boundary of length `len` seconds (R464). -/
def nearBoundary (unc : Option Nat) (t : Fine) (len : Nat) : Bool :=
  match unc with
  | none => true
  | some u =>
    let l := len * 1000000000 * 65536
    let r := t % l
    decide (r < u * 256) || decide (l ≤ r + u * 256)

/-- An event handed to the channel's recorder (R574). -/
def Chan.raise (c : Chan) (r : Raised) : Chan := { c with evr := { c.evr with input := c.evr.input ++ [r] } }

/-- An event handed to the module's recorder. -/
def Hub.raise (h : Hub) (r : Raised) : Hub := { h with evr := { h.evr with input := h.evr.input ++ [r] } }

/-- Events handed to the channel's recorder when a condition holds. -/
def Chan.raiseIf (c : Chan) (b : Bool) (r : Raised) : Chan := if b then c.raise r else c

/-! ### Violations (R558–R560) -/

/-- A violation of a channel's own: to the hub's log by VIOLATION_DELIVERY while the hub is up; kept, at most 16, and otherwise
counted, while the hub is lost (R560). A core or an action that asked for the access gets an error status (R557). -/
def Chan.viol (c : Chan) (v : Viol) : Chan :=
  let v := { v with stamp := c.now }
  let c := { c with errs := c.errs + (if v.source.inside then 1 else 0) }
  if c.hubLost && decide (16 ≤ c.viols.length) then { c with violLost := c.violLost + 1 }
  else { c with viols := c.viols ++ [v] }

/-- An entry written into GLB.VIOL_LOG, or counted on the newest entry when it matches that within 1 s (R558, R559). -/
def logViol (h : HostPort) (v : Viol) : HostPort :=
  let i := (h.violWr - 1).toNat % 64
  let same := match cget? h.violLog i with
    | some e => decide (h.violWr ≠ 0) && decide (e.viol.source = v.source) && decide (e.viol.ch = v.ch)
        && decide (e.viol.kind = v.kind) && decide (e.viol.addr = v.addr) && decide (v.stamp ≤ e.viol.stamp + 1000000000)
    | none => false
  match same, cget? h.violLog i with
  | true, some e => { h with violLog := cput h.violLog i { e with reps := min (e.reps + 1) 0xFFFFFF } }
  | _, _ => { h with violLog := cput h.violLog (h.violWr.toNat % 64) { viol := v }, violWr := h.violWr + 1 }

/-! ### Trigger slots (R457–R460) -/

/-- Slot `j` replaced. -/
def Chan.setSlot (c : Chan) (j : Nat) (t : TrigSlot) : Chan :=
  { c with time := { c.time with slots := vset c.time.slots j t } }

/-- Slot `j` armed at an instant. An instant already passed counts as late (R459). -/
def Chan.arm (c : Chan) (j : Nat) (t : Instant) : Chan :=
  let slot := vget c.time.slots j
  let c := c.setSlot j { slot with at_ := t, armed := true, fired := false }
  if decide (t < c.now) then
    (c.count 0xC00080).raise { ev := .timeTrigLate, plane := .control, value := j, scope := j }
  else c

/-- Slot `j` disarmed. -/
def Chan.disarm (c : Chan) (j : Nat) : Chan :=
  c.setSlot j { vget c.time.slots j with armed := false }

/-- Slot `j` fires: FIRED is set, and the slot stays armed only when it is periodic (R458). -/
def Chan.fire (c : Chan) (j : Nat) : Chan :=
  let slot := vget c.time.slots j
  let again := slot.armed && decide (slot.period ≠ 0)
  c.setSlot j { slot with fired := true, armed := again, at_ := slot.at_ + slot.period }

/-- No lower slot waits to fire at the instant `t` (R460). Slot 3's token is with the recorder for the 1 ms of R583, and holds back none. -/
def Chan.turn (c : Chan) (j : Nat) (t : Instant) : Bool :=
  !((List.range j).any fun i => decide (i ≠ 3) && (vget c.time.slots i).armed && decide ((vget c.time.slots i).at_ = t))

/-- Slot `j` is armed, its instant has come, and it is its turn (R458, R460). -/
def Chan.due (c : Chan) (j : Nat) : Bool :=
  let slot := vget c.time.slots j
  slot.armed && decide (slot.at_ ≤ c.now) && c.turn j slot.at_

/-- Both ends are LOCKED, or the channel has stepped to the offset that the lanes gave: ALIGNED (R449, R465). -/
def Chan.isAligned (c : Chan) : Bool := c.time.aligned || (decide (c.time.unit.state = .locked) && decide (fld c.time.peerState 7 5 = 2))

/-- The instant at which a channel arms what its peer named: until it is ALIGNED, receipt plus 10 ms, counted (R451). -/
def Chan.peerInstant (c : Chan) (t : Instant) : Instant × Chan :=
  if c.isAligned then (t, c) else (c.now + 10000000, c.count 0xC00094)

/-! ### Keys of sealed messages and the tributaries (R318, R380, R385, R386) -/

/-- ASCII bytes of a label. -/
def ascii (x : String) : List Byte := x.toList.map fun ch => BitVec.ofNat 8 ch.toNat

/-- The sealed suite: false A, true S (R378). -/
def Chan.suite (c : Chan) : Bool := bitOf (c.reg 0xA00004) 31

/-- A is the end at the lower site number (R382). -/
def Chan.isA (c : Chan) : Bool := decide (c.cfg.site.toNat < c.cfg.peerSite.toNat)

/-- d of R380 for the direction this channel sends in (true) or receives in (false). -/
def Chan.dir (c : Chan) (sending : Bool) : Nat := if c.isA == sending then 0 else 1

/-- A key of a secret: KDF(X ‖ label ‖ d, L), L = 256 in suite A and 128 in suite S (R380). -/
def Chan.key (c : Chan) (x : BitVec 256) (label : String) (sending : Bool) : BitVec 256 :=
  Config.kdf (beBytes 32 x.toNat ++ ascii label ++ beBytes 1 (c.dir sending)) (if c.suite then 128 else 256)

/-- GCM: the body under the key stream, and the tag, as 16 bytes. -/
def gcmSeal (suite : Bool) (key : BitVec 256) (nonce aad body : List Byte) : List Byte :=
  let ct := (List.range body.length).map fun i => lget 0 body i ^^^ Config.gcmStream suite key nonce i
  ct ++ beBytes 16 (Config.gcmTag suite key nonce aad ct).toNat

/-- Number of the key that seals messages now: the current epoch's, or the handshake key's (R385, R386). -/
def sealKey (s : Sec) : Option (Nat × Nat × BitVec 256) :=
  match s.cur, s.hs with
  | some e, _ => some (0, e.num.toNat, e.secret)
  | none, some (k, _) => some (1, 0, k)
  | none, none => none

/-- Key of an MSEQ counter: KSEL, KEPOCH and TRIB. -/
def mseqKey (ksel kepoch trib : Nat) : Nat := (ksel * 256 + kepoch) * 8 + trib

/-- A whole message, TYPE and body, put at the end of a tributary's queue; FRAME_SEND adds the CRC of R318. -/
def Chan.queueTrib (c : Chan) (trib : Nat) (bytes : List Byte) : Chan :=
  let t := vget c.line.tribs trib
  { c with line := { c.line with tribs := vset c.line.tribs trib { t with tx := t.tx ++ [bytes] } } }

/-- A clear message of the KEY tributary or a message of the MGMT tributary (R379, R397). -/
def Chan.sendClear (c : Chan) (trib type : Nat) (body : List Byte) : Chan := c.queueTrib trib (beBytes 1 type ++ body)

/-- A message under a key given: the sealed form of R385 with the next MSEQ. -/
def Chan.sealUnder (c : Chan) (trib type : Nat) (body : List Byte) (k : Nat × Nat × BitVec 256) : Chan :=
  let mk := mseqKey k.1 k.2.1 trib
  let n := cget 0 c.sec.mseqTx mk
  let head := beBytes 1 k.1 ++ beBytes 1 k.2.1
  let nonce := beBytes 1 trib ++ head ++ beBytes 1 0 ++ beBytes 8 n
  let aad := beBytes 1 trib ++ beBytes 1 type ++ head ++ beBytes 8 n
  let c1 := { c with sec := { c.sec with mseqTx := cput c.sec.mseqTx mk (n + 1) } }
  c1.queueTrib trib (beBytes 1 type ++ head ++ beBytes 8 n ++ gcmSeal c.suite (c.key k.2.2 "SEAL" true) nonce aad body)

/-- A sealed message of the TIME, KEY, PROV or HLTH tributary; held while no key exists (R385, R386). -/
def Chan.sendSealed (c : Chan) (trib type : Nat) (body : List Byte) : Chan :=
  match sealKey c.sec with
  | some k => c.sealUnder trib type body k
  | none => { c with sec := { c.sec with held := c.sec.held ++ [(trib, type, body)] } }

/-- A received message leaves the tributary's receive queue: the first one there with its TYPE, where it is listed. -/
def Chan.takeTrib (c : Chan) (trib type : Nat) : Chan :=
  let t := vget c.line.tribs trib
  let rxq := eraseFirst (fun m => decide ((m.head?.map BitVec.toNat) = some type)) t.rxq
  { c with line := { c.line with tribs := vset c.line.tribs trib { t with rxq := rxq } } }

/-- The key a sealed message names is held: the handshake key, the current epoch's, or within the window the previous one's. -/
def secHolds (s : Sec) (h : SealHdr) : Bool :=
  if h.ksel = 1 then s.hs.isSome && decide (h.kepoch = 0)
  else if h.ksel = 0 then
    (match s.cur with | some e => decide (e.num = h.kepoch) | none => false)
      || (match s.prev with | some e => decide (e.num = h.kepoch) | none => false)
  else false

/-- R385: a sealed message is accepted, and its MSEQ noted, or discarded and counted. A message that names an epoch not held is
counted in EPOCH_BAD_CNT too (R390). -/
def Chan.accept (c : Chan) (trib : Nat) (h : SealHdr) : Bool × Chan :=
  let mk := mseqKey h.ksel.toNat h.kepoch.toNat trib
  if secHolds c.sec h && h.tagOk && decide (cget 0 c.sec.mseqRx mk ≤ h.mseq.toNat) then
    (true, { c with sec := { c.sec with mseqRx := cput c.sec.mseqRx mk (h.mseq.toNat + 1) } })
  else
    let c := (c.count 0xA00088).raise { ev := .secSealFail, plane := .control, value := trib }
    if decide (h.ksel = 0) && !(secHolds c.sec h) then
      (false, (c.count 0xA00084).raise { ev := .secEpochBad, plane := .control, value := h.kepoch.toNat })
    else (false, c)

/-- A sealed message's effect: it leaves the receive queue, and takes effect when it is accepted. -/
def Chan.onSealed (c : Chan) (trib type : Nat) (h : SealHdr) (f : Chan → Chan) : Chan :=
  let r := (c.takeTrib trib type).accept trib h
  if r.1 then f r.2 else r.2

end Sys2Proof.Machine
end

