-- ==== Sys2Proof/Machine/Recorder.lean ====
section
/-! DEFINITION. The event recorder: records, ring, metrics, event history, sealing (Event Recorder, R572–R601). EVENT_RECORD_TAKE itself
stands in Machine/Take.lean, beside the health evidence it feeds. -/

namespace Sys2Proof.Machine

open Sys2Proof

/-- What a recorder needs to know of its die: channel number or 0xFF, its time, U, millisecond ticks, CFG, ring slots, descriptor of
each metric as (mode, base, width) when enabled, whether the history can be written, and its CAP. -/
structure RecCtx where
  ch      : Nat
  now     : Fine
  unc     : Option Nat
  ms      : Nat
  cfg     : Word
  slots   : Nat
  desc    : Nat → Option (Nat × Int × Nat)
  histUp  : Bool
  histCap : Nat

/-- A recorder with what an operation on it leaves to be done outside: counters raised, by offset in the EVR block, and an interrupt
to signal. -/
structure RecFx where
  r    : Recorder
  cnts : List (Nat × Nat) := []
  irq  : Bool := false

/-- A counter of the EVR block raised. -/
def RecFx.cnt (x : RecFx) (off n : Nat) : RecFx := if n = 0 then x else { x with cnts := x.cnts ++ [(off, n)] }

/-- An EVR event handed to the recorder's own input. -/
def RecFx.ev (x : RecFx) (e : Ev) (v : Nat := 0xFFFFFFFF) : RecFx :=
  { x with r := { x.r with input := x.r.input ++ [{ ev := e, plane := .management, value := v }] } }

/-- Events that a rule limits to one record a second in their scope (R576). -/
def limited : Ev → Bool
  | .poolStageSpill | .codecLag | .schPolDrop | .schSysPolDrop | .linePathErr | .lineTribDrop | .lineOof | .lineUncorr
  | .lineResync | .secTagFail | .secEpochBad | .secSealFail | .provUnmatched | .provHeldDrop | .timeAsym | .timeTrigLate
  | .timePpsBad | .partStale | .partStallDrop | .hostViol | .hostViolLost | .hostHdmUnavail | .hostMbxTimeout
  | .evrRingFull | .evrLate | .evrR6Lost => true
  | _ => false

/-- Order of age: the distance of an RSEQ back from the next one (R574). -/
def rseqAge (next r : Nat) : Nat := (next + 4294967296 - r) % 4294967296

/-! ### Metrics (R580–R585) -/

/-- Seconds of a window length 0–2 (R463). -/
def winLen (w : Nat) : Nat := lget 1 [1, 60, 3600] w

/-- The bin of a sample (R581). -/
def binOf (d : Nat × Int × Nat) (v : Int) : Nat :=
  match d.1 with
  | 0 => clamp15 v
  | 1 => clamp15 ((v - d.2.1) / (max 1 d.2.2 : Nat))
  | _ => if v ≤ d.2.1 then 0 else clamp15 (1 + (Nat.log2 (v - d.2.1).toNat : Int))

/-- Saturation at the ends of a signed 64-bit number (R582). -/
def sat64 (v : Int) : Int := max (-9223372036854775808) (min 9223372036854775807 v)

/-- A window after one sample (R582). -/
def addSample (d : Nat × Int × Nat) (v : Int) (boundary : Bool) (w : MetricWin) : MetricWin :=
  let b := binOf d v
  { w with
    bins := w.bins.set b (min (lget 0 w.bins b + 1) 0xFFFFFFFF), mn := min w.mn v, mx := max w.mx v, count := w.count + 1,
    sum := sat64 (w.sum + v), boundary := if boundary then min (w.boundary + 1) 0xFFFFFFFF else w.boundary }

/-- One sample in the window of one length: the window that holds the stamp, open or about to close, or the open one, marked LATE, when that is
closed (R582, R583). -/
def sampleIn (x : RecCtx) (m : Nat) (d : Nat × Int × Nat) (v : Int) (f : RecFx) (w : Nat) : RecFx :=
  let k := 3 * m + w
  let sec := x.now / (1000000000 * 65536)
  let start := sec / winLen w * winLen w
  let near := nearBoundary x.unc x.now (winLen w)
  match (cget? f.r.closing k).filter fun o => o.startS == start, cget? f.r.openW k with
  | some o, _ => { f with r := { f.r with closing := cput f.r.closing k (addSample d v near o) } }
  | none, some o =>
    if o.startS = start then { f with r := { f.r with openW := cput f.r.openW k (addSample d v near o) } }
    else if o.startS < start then
      { f with r := { f.r with
        closing := cput f.r.closing k o, openW := cput f.r.openW k (addSample d v near { startS := start }) } }
    else
      let o := { addSample d v true o with late := true }
      ({ f with r := { f.r with openW := cput f.r.openW k o } }.cnt 0x54 1).ev .evrLate
  | none, none =>
    let closed := decide (start + winLen w ≤ f.r.closedS)
      || match cget? f.r.closedW k with | some z => decide (start ≤ z.startS) | none => false
    if closed then
      let o := { addSample d v true { startS := start + winLen w } with late := true }
      ({ f with r := { f.r with openW := cput f.r.openW k o } }.cnt 0x54 1).ev .evrLate
    else { f with r := { f.r with openW := cput f.r.openW k (addSample d v near { startS := start }) } }

/-- A sample of a metric: all three window lengths; nothing when the metric is disabled (R581, R582). -/
def sampleRec (x : RecCtx) (m : Nat) (v : Int) (f : RecFx) : RecFx :=
  match x.desc m with
  | some d => [0, 1, 2].foldl (sampleIn x m d v) f
  | none => f

/-! ### History and ring (R578, R579, R586, R587) -/

/-- A record written to the event history. -/
def histPut (x : RecCtx) (rseq : Nat) (h : HistRec) (r : Recorder) : Recorder :=
  { r with hist := cput r.hist (rseq % max 1 x.histCap) h, histWr := r.histWr + 1 }

/-- An event record that left the ring, or never entered it, before it was copied: a record of KIND 3 is owed (R587). -/
def histLost (e : EvtRec) (f : RecFx) : RecFx :=
  ({ f with r := { f.r with
    owed := f.r.owed.filter fun q => q ≠ e.rseq, lostQueue := f.r.lostQueue ++ [(e.rseq, e.code, e.sev)] } }.cnt 0x58 1).ev .evrR6Lost

/-- The ring slot of the oldest record whose severity is at most `s`; never that of a FATAL record (R578). -/
def victimSlot (r : Recorder) (s : Sev) : Option (Nat × EvtRec) :=
  r.ring.foldl (fun (best : Option (Nat × EvtRec)) p =>
    if sevNum p.2.sev ≤ sevNum s && decide (p.2.sev ≠ .fatal) then
      match best with
      | some b => if rseqAge r.rseq b.2.rseq < rseqAge r.rseq p.2.rseq then some p else best
      | none => some p
    else best) none

/-- The interrupt of a record that enters the ring (R594). -/
def ringIrq (x : RecCtx) (e : EvtRec) (f : RecFx) : RecFx :=
  if fld x.cfg 29 28 ≤ sevNum e.sev && !f.r.irq then { f with r := { f.r with irq := true }, irq := true } else f

/-- A record into the ring: an empty slot, or the oldest of no greater severity, or lost (R578, R579). An empty slot is the lowest
(log entry 26). -/
def ringWrite (x : RecCtx) (e : EvtRec) (f : RecFx) : RecFx :=
  if f.r.ring.length < x.slots then
    ringIrq x e { f with r := { f.r with ring := cput f.r.ring (firstGap f.r.ring 0) e } }
  else match victimSlot f.r e.sev with
  | some (k, old) =>
    let f := if f.r.owed.contains old.rseq then histLost old f else f
    ringIrq x e { f with r := { f.r with ring := cput f.r.ring k e } }
  | none =>
    let f := (f.cnt (0x40 + 4 * sevNum e.sev) 1).ev .evrRingFull
    if f.r.owed.contains e.rseq then histLost e f else f

/-- One event taken: sampled; then numbered, stamped, written to history and ring, unless R576 suppresses its record. A FAULT or FATAL
record that is not the recorder's own asks for a seal (R588). -/
def takeEvent (x : RecCtx) (b : Raised) (f : RecFx) : RecFx :=
  let code := evCode b.ev
  let f := sampleRec x (evMetric b.ev) (if b.unit = 0xFF then 0 else b.unit) f
  let recent := f.r.limits.any fun l => decide (l.code = code) && decide (l.scope = b.scope) && decide (x.ms ≤ l.atMs + 1000)
  if limited b.ev && recent then
    { f with r := { f.r with suppressed := cput f.r.suppressed code (cget 0 f.r.suppressed code + 1) } }.cnt 0x50 1
  else
    let sev := evSev b.ev
    let e : EvtRec := {
      rseq := f.r.rseq, sev := sev, code := code, stamp := x.now / 65536, unc := x.unc.getD 0xFFFFFFFF, ch := x.ch,
      reps := cget 0 f.r.suppressed code, body := { b with boundary := nearBoundary x.unc x.now 1, raw := b.raw.take 192 } }
    let marks := f.r.limits.filter fun l => !(decide (l.code = code) && decide (l.scope = b.scope))
    let f := { f with r := { f.r with
      rseq := (f.r.rseq + 1) % 4294967296, suppressed := cdel f.r.suppressed code,
      limits := if limited b.ev then marks ++ [⟨code, b.scope, x.ms⟩] else marks } }
    let f := if x.ch = 0xFF then f
      else if x.histUp then { f with r := histPut x e.rseq (.event e) f.r }
      else { f with r := { f.r with owed := f.r.owed ++ [e.rseq] } }
    let f := ringWrite x e f
    if 2 ≤ sevNum sev && decide (code / 256 ≠ 0x10) then { f with r := { f.r with sealReq := true } } else f

/-- The first `n` events of the input, taken in one handshake: by PLANE, then by CODE (R574). -/
def takeEvents (x : RecCtx) (n : Nat) (f : RecFx) : RecFx :=
  let le (a b : Raised) : Bool :=
    decide (planeNum a.plane < planeNum b.plane)
      || (decide (planeNum a.plane = planeNum b.plane) && decide (evCode a.ev ≤ evCode b.ev))
  let batch := sortBy le (f.r.input.take n)
  batch.foldl (fun f b => takeEvent x b f) { f with r := { f.r with input := f.r.input.drop n } }

/-! ### Closing windows (R583–R585) -/

/-- A window closed: the closed copy, and a window record of a 60 s or 3,600 s window that holds samples (R585, R587). -/
def closeOne (x : RecCtx) (k : Nat) (w : MetricWin) (f : RecFx) : RecFx :=
  let f := { f with r := { f.r with closedW := cput f.r.closedW k w } }
  if k % 3 = 0 || w.count = 0 || x.ch = 0xFF then f
  else
    let rec_ : WinRec := ⟨f.r.rseq, k / 3, k % 3, w⟩
    let f := { f with r := { f.r with rseq := (f.r.rseq + 1) % 4294967296 } }
    if x.histUp then { f with r := histPut x rec_.rseq (.window rec_) f.r }
    else if f.r.winQueue.length < 64 then { f with r := { f.r with winQueue := f.r.winQueue ++ [rec_] } }
    else
      ({ f with r := { f.r with lostQueue := f.r.lostQueue ++ [(rec_.rseq, rec_.metric, Sev.info)] } }.cnt 0x58 1).ev .evrR6Lost

/-- Every window whose end has passed by a second is closed; the end of a 3,600 s window asks for a seal (R583, R588). -/
def closeWindows (x : RecCtx) (sec : Nat) (f : RecFx) : RecFx :=
  let ovr (p : Nat × MetricWin) : Bool := decide (p.2.startS + winLen (p.1 % 3) ≤ sec)
  let old := f.r.closing
  let due := f.r.openW.filter ovr
  let f := { f with r := { f.r with
    closing := [], openW := f.r.openW.filter (fun p => !ovr p), closedS := sec,
    sealReq := f.r.sealReq || (decide (0 < f.r.closedS) && decide (f.r.closedS / 3600 < sec / 3600)) } }
  due.foldl (fun f p => closeOne x p.1 p.2 f) (old.foldl (fun f p => closeOne x p.1 p.2 f) f)

/-- Open windows that `p` selects closed at a step of time, with STEP_END set (R441, R584). -/
def closeOnStep (x : RecCtx) (p : Nat → MetricWin → Bool) (f : RecFx) : RecFx :=
  let due := f.r.openW.filter fun e => p e.1 e.2
  let f := { f with r := { f.r with openW := f.r.openW.filter fun e => !(p e.1 e.2) } }
  due.foldl (fun f e => closeOne x e.1 { e.2 with stepEnd := true } f) f

/-- HISTORY_COPY: what is owed goes to the history in RSEQ order (R587). -/
def copyHistory (x : RecCtx) (f : RecFx) : RecFx :=
  let evs := f.r.owed.filterMap fun q => (f.r.ring.find? fun p => decide (p.2.rseq = q)).map fun p => (q, HistRec.event p.2)
  let wins := f.r.winQueue.map fun w => (w.rseq, HistRec.window w)
  let lost := f.r.lostQueue.map fun l => (l.1, HistRec.lost l.1 l.2.1 l.2.2)
  let all := sortBy (fun a b => decide (rseqAge f.r.rseq b.1 ≤ rseqAge f.r.rseq a.1)) (evs ++ wins ++ lost)
  { f with r := all.foldl (fun r e => histPut x e.1 e.2 r) { f.r with owed := [], winQueue := [], lostQueue := [] } }

/-! ### Sealing (R588–R592) -/

/-- MEM_UNIT_RETIRED, which is sealed and carried whatever its severity (R589, R591). -/
def retiredCode : Nat := 0x030B

/-- The event records a recorder still holds from `sealSeq` on, by age, oldest first, each once. -/
def heldFrom (r : Recorder) : List EvtRec :=
  let inRange (q : Nat) : Bool := decide (rseqAge r.rseq q ≤ rseqAge r.rseq r.sealSeq) && decide (q ≠ r.rseq % 4294967296)
  let hs := r.hist.filterMap fun p => match p.2 with | .event e => if inRange e.rseq then some e else none | _ => none
  let rs := (r.ring.map Prod.snd).filter fun e => inRange e.rseq && !hs.any fun h => decide (h.rseq = e.rseq)
  sortBy (fun a b => decide (rseqAge r.rseq b.rseq ≤ rseqAge r.rseq a.rseq)) (hs ++ rs)

/-- Window records held from `sealSeq` on: considered, and not sealed. -/
def heldWindows (r : Recorder) : Nat :=
  let inRange (q : Nat) : Bool := decide (rseqAge r.rseq q ≤ rseqAge r.rseq r.sealSeq) && decide (q ≠ r.rseq % 4294967296)
  (r.hist.filter fun p => match p.2 with | .window w => inRange w.rseq | _ => false).length
    + (r.winQueue.filter fun w => inRange w.rseq).length

/-- A seal begins: its records chosen, and the records held by neither store counted as skipped (R589). -/
def sealBegin (cfg : Word) (f : RecFx) : RecFx :=
  let held := heldFrom f.r
  let todo := held.filter fun e => decide (fld cfg 31 30 ≤ sevNum e.sev) || decide (e.code = retiredCode)
  let total := rseqAge f.r.rseq f.r.sealSeq
  { f with r := { f.r with sealing := some { todo := todo, upto := f.r.rseq }, sealReq := false } }.cnt 0x64
    (total - held.length - heldWindows f.r)

/-- Records a sector must hand on before it is erased (R591). -/
def carried (s : SealSector) : List EvtRec :=
  s.pages.filterMap fun p => match p with
    | some e => if e.sev = .fatal || e.code = retiredCode then some e else none
    | none => none

/-- Sectors of an owner's area (R590). -/
def areaSectors (owner : Nat) : Nat := if owner < 8 then 56 else 64

/-- The head moves to the next sector when it is full or there is none. The sector after the new head, when in use, is to be carried and
erased; carried records beyond half the area are dropped, oldest first (R591). -/
def openSector (owner : Nat) (a : SealArea) (run : SealRun) : SealArea × SealRun × Nat :=
  let n := areaSectors owner
  let full := match cget? a.sectors a.head with | some s => decide (255 ≤ s.pages.length) | none => true
  if !full then (a, run, 0)
  else
    let h := if (cget? a.sectors a.head).isSome then (a.head + 1) % n else a.head
    let v := (h + 1) % n
    let next := cget? a.sectors v
    let a' : SealArea := { a with head := h, nextSseq := a.nextSseq + 1, sectors := cput a.sectors h { sseq := some a.nextSseq } }
    match next with
    | none => (a', run, 0)
    | some s =>
      let all := (a.sectors.map fun p => (carried p.2).length).foldl (· + ·) 0
      let drop := min (carried s).length (all - n * 255 / 2)
      let keep := (carried s).drop drop
      (a', { run with todo := keep ++ run.todo, carry := keep.length, erase := some v }, drop)

/-- A seal whose records are all programmed ends (R589). -/
def sealEnd (now : Fine) (f : RecFx) (run : SealRun) : RecFx :=
  ({ f with r := { f.r with sealing := none, sealSeq := run.upto, lastSealS := now / (1000000000 * 65536) % 4294967296 } }.cnt 0x5C 1).ev .evrSeal

/-! ### In a channel and in the hub -/

/-- LPDDR6 serves: the event history can be written (R587). -/
def Chan.histUp (c : Chan) : Bool := decide (c.mem.phase = .up)

/-- CAP of the event history for the sealed size of region 6 (R586). -/
def Chan.histCap (c : Chan) : Nat := c.mirrorCap 6 256

/-- The reset descriptor of a channel metric (R580), or the sealed one of a firmware metric (R599). -/
def Chan.desc (c : Chan) (m : Nat) : Option (Nat × Int × Nat) :=
  if m < 256 then some (0, 0, 0)
  else if m < 292 then some (1, 0, 10)
  else if m < 301 then some (0, 0, 0)
  else if m = 301 then some (1, 700, 50)
  else if m = 302 then some (1, 200, 50)
  else if m < 448 then none
  else
    let w := c.reg (0xE10000 + 16 * m)
    if bitOf w 29 && decide (fld w 31 30 ≠ 3) then
      some (fld w 31 30, (c.reg (0xE10004 + 16 * m)).toInt, (c.reg (0xE10008 + 16 * m)).toNat)
    else none

/-- U of the channel's unit now: it grows in HOLDOVER (R443). -/
def Chan.unc (c : Chan) : Option Nat :=
  let u := c.time.unit
  if u.state = .holdover && u.everLocked then some (u.uncAtHold + (c.ms - u.holdSinceMs) * 256 / 10000) else u.unc

/-- A channel recorder's surroundings; the channel number comes with the command. -/
def Chan.recCtx (c : Chan) (ch : Nat) : RecCtx :=
  { ch := ch, now := c.time.unit.now, unc := c.unc, ms := c.ms, cfg := c.reg 0xE00004, slots := 16384, desc := c.desc,
    histUp := c.histUp, histCap := c.histCap }

/-- The module recorder's surroundings (R580, R587). -/
def Hub.recCtx (h : Hub) : RecCtx :=
  { ch := 0xFF, now := h.gtime.unit.now, unc := h.gtime.unit.unc, ms := h.ms, cfg := h.reg 0x400004, slots := 2048,
    desc := fun m => if m < 256 then some (0, 0, 0) else none, histUp := false, histCap := 1 }

/-- What an operation on the recorder leaves, put into the channel: recorder and counters. -/
def Chan.putFx (c : Chan) (f : RecFx) : Chan := f.cnts.foldl (fun c n => c.count (0xE00000 + n.1) n.2) { c with evr := f.r }
def Hub.putFx (h : Hub) (f : RecFx) : Hub := f.cnts.foldl (fun h n => h.count (0x400000 + n.1) n.2) { h with evr := f.r }

/-- A sample of a metric of the channel (R582). -/
def Chan.sample (c : Chan) (m : Nat) (v : Int) : Chan := c.putFx (sampleRec (c.recCtx 0) m v { r := c.evr })

/-- Metric windows closed by a step of time: every open one, or those whose end the step passed (R441, R584). -/
def stepWindows (x : RecCtx) (r : Recorder) (all : Bool) : RecFx :=
  closeOnStep x (fun k w => all || decide (w.startS + winLen (k % 3) ≤ x.now / (1000000000 * 65536))) { r := r }

/-- An MSI-X vector signalled: its message goes out, or its pending bit is set while it is masked (R571). -/
def signalMsi (v : Nat) (h : HostPort) : HostPort :=
  if bitOf h.masked v then { h with msiPend := putBit h.msiPend v true }
  else { h with msiSent := cput h.msiSent v (cget 0 h.msiSent v + 1) }

/-- The hub signals a vector, unless it is lost or the link is down (R21, R571). -/
def Hub.msi (h : Hub) (v : Nat) : Hub := if h.failed then h else { h with host := signalMsi v h.host }

/-- A HOST_ event of the module, with vector 0 (R571). -/
def Hub.hostEv (h : Hub) (e : Ev) (scope : Nat := 0) : Hub := (h.raise { ev := e, plane := .management, scope := scope }).msi 0

/-- A violation entered in GLB.VIOL_LOG with the module time of its occurrence (R558, R559); the host's write through CXL.io is answered
by a Completer Abort error (R557). -/
def Hub.violate (h : Hub) (v : Viol) : Hub :=
  let p := logViol h.host { v with stamp := h.now }
  let p := { p with aborts := p.aborts + (if v.source = ViolSource.hostIo then 1 else 0) }
  { h with host := { p with errs := p.errs + (if v.source.inside then 1 else 0) } }.hostEv .hostViol

/-- The address of a page of a sector in the configuration memory (R590), and the only addresses that the xSPI port programs or erases
(R515, R516). -/
def sealAddr (owner sector page : Nat) : Nat :=
  (if owner < 8 then 0x2000000 + 0x380000 * owner else 0x3C00000) + 65536 * sector + 256 * page
def inHistory (a : Nat) : Bool := decide (0x2000000 ≤ a) && decide (a < 0x4000000)

/-- A program or erase command at an address: issued when it lies in the sealed event history, and otherwise a violation (R516). -/
def Hub.xspiWrite (h : Hub) (a : Nat) (f : Hub → Hub) : Hub :=
  if inHistory a then f h else h.violate { source := .xspi, ch := 0xFF, kind := .outsideHistory, addr := a }

/-- A seal requested: it joins the queue, unless one of its recorder waits already (R588). -/
def askSeal (owner : Nat) (h : Hub) : Hub := if h.sealQ.contains owner then h else { h with sealQ := h.sealQ ++ [owner] }

/-- The recorder, with surroundings, of an owner 0–8. -/
def State.recOf (s : State) (o : Nat) : RecCtx × Recorder :=
  if o < 8 then ((vget s.chans o).recCtx o, (vget s.chans o).evr) else (s.hub.recCtx, s.hub.evr)

/-- The state with what an operation on an owner's recorder leaves; an interrupt and a seal request go to the hub (R588, R594). -/
def State.putRec (s : State) (o : Nat) (f : RecFx) : State :=
  let ask := f.r.sealReq
  let s := if o < 8 then { s with chans := vset s.chans o ((vget s.chans o).putFx f) } else { s with hub := s.hub.putFx f }
  let s := if f.irq then s.modHub fun h => h.msi (if o < 8 then 1 + o else 0) else s
  if ask then s.modHub (askSeal o) else s

/-- The recorder whose seal the hub runs for an owner: the one that a cold restart has left to be sealed, or the owner's own (R593). -/
def State.sealOf (s : State) (o : Nat) : RecCtx × Recorder :=
  let x := s.recOf o
  match (vget s.chans o).oldEvr with
  | some r => if o < 8 then ({ x.1 with cfg := r.cfg }, r.r) else x
  | none => x

/-- The state with what a step of a seal leaves. A recorder left by a cold restart goes with its last seal, and its events and counters with it; a
seal that the new recorder has asked for then joins the queue (R588, R593). -/
def State.putSeal (s : State) (o : Nat) (f : RecFx) : State :=
  match (vget s.chans o).oldEvr with
  | some r =>
    if 8 ≤ o then s.putRec o f
    else
      let c := vget s.chans o
      if f.r.sealing.isSome then { s with chans := vset s.chans o { c with oldEvr := some { r with r := f.r } } }
      else
        let s := { s with chans := vset s.chans o { c with
          oldEvr := none, evr := { c.evr with sealStop := c.evr.sealStop || f.r.sealStop } } }
        if c.evr.sealReq then s.modHub (askSeal o) else s
  | none => s.putRec o f

/-- The seal of an owner's recorder that runs or waits is over: what it was to write is gone (R593). -/
def State.stopSeal (s : State) (o : Nat) : State := s.modHub fun h =>
  { h with sealing := if h.sealing = some o then none else h.sealing, sealQ := h.sealQ.filter fun q => q ≠ o }

/-! ### Meanings -/

/-- An owner of a recorder: a channel, or the module. -/
def ownerNum (o : Option (Fin 8)) : Nat := match o with | some n => n.val | none => 8

/-- The recorder of an owner answers: the channel is populated and powered, or the hub is up. -/
def State.recUp (s : State) (o : Option (Fin 8)) : Bool :=
  match o with
  | some n => s.present n.val && decide ((s.chan n).boot.phase ≠ 0)
  | none => !s.hub.failed

/-- HISTORY_COPY (R587). -/
def execHistoryCopy (ch : Fin 8) (s : State) : Out :=
  if s.recUp (some ch) && (s.chan ch).histUp then
    done (s.putRec ch.val (copyHistory ((s.chan ch).recCtx ch.val) { r := (s.chan ch).evr }))
  else done s

/-- WINDOW_CLOSE: 1 ms after a boundary, on the token of trigger slot 3 (R583). -/
def execWindowClose (o : Option (Fin 8)) (s : State) : Out :=
  if !s.recUp o then done s
  else match o with
  | some ch =>
    let c := s.chan ch
    if c.due 3 && decide ((vget c.time.slots 3).at_ + 1000000 ≤ c.now) then
      let s := s.setChan ch (c.fire 3)
      done (s.putRec ch.val (closeWindows ((s.chan ch).recCtx ch.val) (c.now / 1000000000) { r := (s.chan ch).evr }))
    else done s
  | none =>
    let h := s.hub
    let sec := h.now / 1000000000
    if h.evr.closedS < sec && decide (sec * 1000000000 + 1000000 ≤ h.now) then
      done (s.putRec 8 (closeWindows h.recCtx sec { r := h.evr }))
    else done s

/-- SEAL_START: the hub runs the seal at the head of the queue when none runs (R588, R589). A stopped area seals nothing (R592). -/
def execSealStart (o : Option (Fin 8)) (s : State) : Out :=
  let n := ownerNum o
  if s.hub.failed || s.hub.sealing.isSome || s.hub.sealQ.head? ≠ some n || !s.recUp o then done s
  else
    let s := s.modHub fun h => { h with sealQ := h.sealQ.drop 1 }
    let x := s.sealOf n
    if x.2.sealStop then done (s.putSeal n { r := { x.2 with sealReq := false } })
    else
      let f := sealBegin x.1.cfg { r := x.2 }
      match f.r.sealing with
      | some run =>
        if run.todo.isEmpty then done (s.putSeal n (sealEnd x.1.now f run))
        else
          let z := openSector n (vget s.hub.areas n) run
          let f := { f with r := { f.r with sealing := some z.2.1 } }.cnt 0x68 z.2.2
          let f := if z.2.2 = 0 then f else f.ev .evrSealFull z.2.2
          done ((s.putSeal n f).modHub fun h => { h with sealing := some n, areas := vset h.areas n z.1 })
      | none => done s

/-- After a page or an erase: a due erase starts, the head moves on, or the seal ends (R589, R591). -/
def State.sealNext (s : State) (n : Nat) (run : SealRun) (f : RecFx) : State :=
  let x := s.sealOf n
  if run.carry = 0 && run.erase.isSome then
    s.putSeal n { f with r := { f.r with sealing := some { run with erasing := true } } }
  else if run.todo.isEmpty then (s.putSeal n (sealEnd x.1.now f run)).modHub fun h => { h with sealing := none }
  else
    let z := openSector n (vget s.hub.areas n) run
    let f := { f with r := { f.r with sealing := some z.2.1 } }.cnt 0x68 z.2.2
    let f := if z.2.2 = 0 then f else f.ev .evrSealFull z.2.2
    (s.putSeal n f).modHub fun h => { h with areas := vset h.areas n z.1 }

/-- SEAL_PAGE_PROGRAM_DONE: the record at hand stands in the next page, or the page is spoilt (R592). -/
def execSealPageProgramDone (ok : Bool) (s : State) : Out :=
  match s.hub.failed, s.hub.sealing with
  | false, some n =>
    let x := s.sealOf n
    match x.2.sealing with
    | some run =>
      match run.erasing, run.todo with
      | false, e :: rest =>
        let a := vget s.hub.areas n
        let sec := cget {} a.sectors a.head
        let put (p : Option EvtRec) (h : Hub) : Hub := h.xspiWrite (sealAddr n a.head (sec.pages.length + 1)) fun h =>
          { h with areas := vset h.areas n { a with sectors := cput a.sectors a.head { sec with pages := sec.pages ++ [p] } } }
        if ok then
          let run := { run with todo := rest, carry := run.carry - 1 }
          done ((s.modHub (put (some e))).sealNext n run { r := { x.2 with sealFails := 0 } })
        else
          let fails := x.2.sealFails + 1
          let f := (RecFx.cnt { r := { x.2 with sealFails := fails } } 0x60 1).ev .evrSealFail
          let s := s.modHub (put none)
          if 16 ≤ fails then
            done ((s.putSeal n { f with r := { f.r with sealStop := true, sealing := none } }).modHub fun h => { h with sealing := none })
          else done (s.sealNext n run f)
      | _, _ => done s
    | none => done s
  | _, _ => done s

/-- SECTOR_ERASE_DONE: the sector whose records were carried is erased (R591). -/
def execSectorEraseDone (s : State) : Out :=
  match s.hub.failed, s.hub.sealing with
  | false, some n =>
    let x := s.sealOf n
    match x.2.sealing with
    | some run =>
      match run.erasing, run.erase with
      | true, some v =>
        let a := vget s.hub.areas n
        let s := s.modHub fun h => h.xspiWrite (sealAddr n v 0) fun h =>
          { h with areas := vset h.areas n { a with sectors := cdel a.sectors v } }
        done (s.sealNext n { run with erase := none, erasing := false } { r := x.2 })
      | _, _ => done s
    | none => done s
  | _, _ => done s

end Sys2Proof.Machine
end

