-- ==== Sys2Proof/Machine/Health.lean ====
section
/-! DEFINITION. Unit health and the sentinel (Partitions, Drift and Unit Health, R497–R506). A fence that takes effect and a
readmission act on other blocks and stand in Machine/Fence.lean. -/

namespace Sys2Proof.Machine

open Sys2Proof

/-- Units of a class (R497). -/
def unitCount (cls : Nat) : Nat := lget 0 [17, 17, 17, 17, 17, 2, 7, 36] cls

/-- Key of a unit. -/
def unitKey (cls u : Nat) : Nat := 64 * cls + u

/-- A unit of the channel. -/
def Chan.unit (c : Chan) (cls u : Nat) : HUnit := cget {} c.hlth.units (unitKey cls u)

/-- The channel with a unit replaced. -/
def Chan.setUnit (c : Chan) (cls u : Nat) (x : HUnit) : Chan :=
  { c with hlth := { c.hlth with units := cset {} c.hlth.units (unitKey cls u) x } }

/-- The unit is fenced, for now or until power-good. -/
def unitOut (x : HUnit) : Bool := decide (x.st = .fenced) || decide (x.st = .permanent)

/-- Score: max(0, 1000 − ⌊D⌋) (R498). -/
def unitScore (x : HUnit) : Nat := 1000 - x.demerit / 4294967296

/-- A whole demerit. -/
def demeritOf (w : Nat) : Nat := w * 4294967296

/-- An event about a unit. -/
def unitEv (e : Ev) (cls u : Nat) : Raised := { ev := e, plane := .management, uclass := cls, unit := u, scope := unitKey cls u }

/-- Floor of a class (R511). -/
def Chan.floor (c : Chan) (cls : Nat) : Nat :=
  let w := c.reg 0xD00004
  if cls ≤ 5 then fld w (29 - 5 * cls) (25 - 5 * cls) else unitCount cls

/-- Where the score leads a unit that is neither fenced nor in test (R499): suspect below 600, healthy again from 600 on, in test when it
falls below 300 in a class 0–5. -/
def Chan.weighUnit (c : Chan) (cls u old : Nat) : Chan :=
  let x := c.unit cls u
  let s := unitScore x
  if unitOut x || decide (x.st = .testing) then c
  else
    let c :=
      if x.st = .healthy ∧ s < 600 then (c.setUnit cls u { x with st := .suspect }).raise (unitEv .hlthSuspect cls u)
      else if x.st = .suspect ∧ 600 ≤ s then c.setUnit cls u { x with st := .healthy }
      else if x.st = .held ∧ 300 ≤ s then
        c.setUnit cls u { x with st := if s < 600 then .suspect else .healthy, refused := false }
      else c
    if s < 300 ∧ 300 ≤ old ∧ cls ≤ 5 ∧ x.st ≠ .held then c.setUnit cls u { c.unit cls u with st := .testing } else c

/-- Evidence adds its weight to D at once (R498). -/
def Chan.charge (c : Chan) (cls u w : Nat) : Chan :=
  if unitCount cls ≤ u then c
  else
    let x := c.unit cls u
    (c.setUnit cls u { x with demerit := x.demerit + demeritOf w }).weighUnit cls u (unitScore x)

/-- A lane retired by a spare-in (R498). -/
def Chan.laneRetired (c : Chan) (p : Nat) : Chan := c.charge 7 p 200

/-- The largest `x` with 2 × xᵏ ≤ dᵏ, found by halving steps: d × 2^(−1/k) rounded down. -/
def halveRoot (k d : Nat) : Nat → Nat → Nat
  | 0, x => x
  | n + 1, x => halveRoot k d n (if 2 * (x + 2 ^ n) ^ k ≤ d ^ k then x + 2 ^ n else x)

/-- D one minute later: it halves every `h` hours (R498; log entry 30). -/
def decayMinute (h d : Nat) : Nat := if d = 0 then 0 else halveRoot (60 * max 1 h) d (Nat.log2 d + 1) 0

/-- DEMERIT_DECAY: once per minute every demerit decays (R498). -/
def Chan.decay (c : Chan) : Chan :=
  if (c.hlth.decays + 1) * 60000 ≤ c.ms then
    let h := fld (c.reg 0xD00000) 19 15
    let keys := c.hlth.units.map Prod.fst
    let c := { c with hlth := { c.hlth with decays := c.hlth.decays + 1 } }
    keys.foldl (fun (c : Chan) k =>
      let x := c.unit (k / 64) (k % 64)
      (c.setUnit (k / 64) (k % 64) { x with demerit := decayMinute h x.demerit }).weighUnit (k / 64) (k % 64) 0) c
  else c

/-! ### Fence requests (R500, R501) -/

/-- Units of a class that would stay neither fenced nor held without unit `u`. -/
def Chan.standing (c : Chan) (cls u : Nat) : Nat :=
  ((List.range (unitCount cls)).filter fun v =>
    let x := c.unit cls v
    decide (v ≠ u) && !(unitOut x) && decide (x.st ≠ .held) && !(c.hlth.granted.any fun g => g.cls == cls && g.unit == v)).length

/-- Fences of a class in the trailing BUDGET_MIN minutes, those granted and not yet in effect among them. -/
def Chan.recentFences (c : Chan) (cls : Nat) : Nat :=
  let win := fld (c.reg 0xD00000) 27 20 * 60000
  (c.hlth.fences.filter fun f => f.1 == cls && decide (c.ms < f.2 + win)).length
    + (c.hlth.granted.filter fun g => g.cls == cls).length

/-- A refused unit is held, counted, and reported once per unit and episode (R500, R501). -/
def Chan.refuseFence (c : Chan) (cls u : Nat) (floorRule : Bool) : Chan :=
  let x := c.unit cls u
  let c := c.setUnit cls u { x with st := .held, refused := true, askedMs := c.ms }
  let c := c.count (if floorRule then 0xD0004C else 0xD00048)
  c.raiseIf (!x.refused) (unitEv (if floorRule then .hlthFloorRefuse else .hlthBudgetRefuse) cls u)

/-- A fence request: refused by the floor rule or the expulsion budget, or granted to take effect at the next tick. Among requests of
one tick the lower unit number goes first: a later request of a lower number takes the grant of the highest one (R500). -/
def Chan.requestFence (c : Chan) (cls u : Nat) : Chan :=
  let x := c.unit cls u
  if unitOut x || c.hlth.granted.any (fun g => g.cls == cls && g.unit == u) then c
  else
    let grant (c : Chan) : Chan := { c with hlth := { c.hlth with granted := c.hlth.granted ++ [⟨cls, u, c.us⟩] } }
    let low := decide (c.standing cls u < c.floor cls)
    let spent := decide (fld (c.reg 0xD00000) 31 28 ≤ c.recentFences cls)
    if !low && !spent then grant (c.setUnit cls u { x with askedMs := c.ms })
    else
      let later := c.hlth.granted.filter fun g => g.cls == cls && decide (u < g.unit) && decide (g.us = c.us)
      match later.foldl (fun (m : Option Nat) g => some (max g.unit (m.getD 0))) none with
      | some v =>
        let c := { c with hlth := { c.hlth with granted := c.hlth.granted.filter fun g => !(g.cls == cls && g.unit == v) } }
        (grant (c.setUnit cls u { x with askedMs := c.ms })).refuseFence cls v low
      | none => c.refuseFence cls u low

/-- TARGETED_SELFTEST_DONE: the test of a unit with a score below 300 ends (R499). -/
def Chan.selfTested (c : Chan) (cls u : Nat) (ok : Bool) : Chan :=
  let x := c.unit cls u
  if x.st ≠ .testing then c
  else if ok then c.setUnit cls u { x with st := .suspect, demerit := demeritOf 450 }
  else ((c.setUnit cls u { x with st := .suspect, demerit := x.demerit + demeritOf 700 }).count 0xD00050).requestFence cls u

/-- HELD_UNIT_RETRY: a held unit's fence is requested again each minute while its score is below 300 (R501). -/
def Chan.heldRetry (c : Chan) (cls u : Nat) : Chan :=
  let x := c.unit cls u
  if x.st = .held ∧ x.askedMs + 60000 < c.ms ∧ unitScore x < 300 then c.requestFence cls u else c

/-! ### The sentinel (R503–R506) -/

/-- Class whose spare re-executes a stream's items: tiles, transmit or receive pipelines (R503). -/
def streamClass (stream : Nat) : Nat := lget 0 [0, 0, 1, 2] stream

/-- Class and number of the unit that ran an item of a stream: stream 0 is the collective engine, class 6 unit 2. -/
def streamUnit (stream u : Nat) : Nat × Nat := if stream = 0 then (6, 2) else (streamClass stream, u)

/-- A stream runs while its spare exists and stands in for no fenced unit (R41, R503). -/
def Chan.streamOn (c : Chan) (mtx : Bool) (stream : Nat) : Bool :=
  let cls := streamClass stream
  (decide (cls ≠ 0) || mtx) && (cget? c.hlth.spare cls).isNone && !(unitOut (c.unit cls 16))

/-- Charges of the trailing 24 hours. -/
def Chan.charges24 (c : Chan) (x : HUnit) : List Charge := x.charges.filter fun h => decide (c.ms < h.atMs + 86400000)

/-- R506: at least 3 charges in 24 hours and at least 75 % of them in one temperature bin or in one load bin. -/
def concentrated (l : List Charge) : Bool :=
  decide (3 ≤ l.length) && (List.range 16).any fun b =>
    decide (3 * l.length ≤ 4 * (l.filter fun h => h.temp == b).length)
      || decide (3 * l.length ≤ 4 * (l.filter fun h => h.load == b).length)

/-- A charge (R504–R506): counted, raised, binned, sampled, and weighed with 150, or 300 when concentrated. -/
def Chan.sentCharge (c : Chan) (stream temp load : Nat) (w : Nat × Nat) : Chan :=
  let ev := if stream < 2 then Ev.mtxSentinelMismatch else Ev.hlthSentinel
  let c := (c.count 0xD00058).raise { unitEv ev w.1 w.2 with value := stream }
  let c := c.count (0xD01000 + 1024 * stream + 4 * (16 * temp + load))
  let c := (c.sample (293 + stream) temp).sample (297 + stream) load
  let x := c.unit w.1 w.2
  let x := { x with charges := c.charges24 x ++ [⟨c.ms, temp, load⟩] }
  (c.setUnit w.1 w.2 x).charge w.1 w.2 (if concentrated x.charges then 300 else 150)

/-- Temperature bin of a die temperature in tenths of a degree Celsius (R505). -/
def tempBin (t : Int) : Nat := clamp15 ((t - 200) / 50)

/-- SENTINEL_SAMPLE: a re-execution completes and its output is compared with the first one (R503, R504). -/
def Chan.sentSample (c : Chan) (mtx : Bool) (stream u : Nat) (first second : List Byte) (t : Int) (occ16 : Nat) : Chan :=
  if !(c.streamOn mtx stream) then c
  else
    let c := c.count 0xD00054
    if first = second then c
    else
      let m : Mismatch := ⟨stream, u, first, second, tempBin t, min 15 occ16, c.us⟩
      { c with hlth := { c.hlth with mismatches := c.hlth.mismatches ++ [m] } }

/-- SENTINEL_THIRD_RUN: the third run's unit and output, or none when no unit was free within 1 ms (R504). -/
def Chan.sentThird (c : Chan) (third : Option (Nat × List Byte)) : Chan :=
  match c.hlth.mismatches with
  | [] => c
  | m :: rest =>
    let orig := streamUnit m.stream m.unit
    let spare := (streamClass m.stream, 16)
    let charge (us : List (Nat × Nat)) : Chan :=
      us.foldl (fun c w => c.sentCharge m.stream m.temp m.load w) { c with hlth := { c.hlth with mismatches := rest } }
    match third with
    | some (v, out) =>
      if out = m.first then charge [spare]
      else if out = m.second then charge [orig]
      else charge [orig, spare, (streamClass m.stream, v)]
    | none => if m.us + 1000 < c.us then charge [orig] else c

/-! ### The commands -/

def execDemeritDecay (ch : Fin 8) (s : State) : Out := done (onLive ch Chan.decay s)
def execTargetedSelftestDone (ch : Fin 8) (cls unit : Nat) (ok : Bool) (s : State) : Out :=
  done (onLive ch (fun c => c.selfTested cls unit ok) s)
def execHeldUnitRetry (ch : Fin 8) (cls unit : Nat) (s : State) : Out := done (onLive ch (fun c => c.heldRetry cls unit) s)
def execSentinelSample (ch : Fin 8) (stream : Fin 4) (unit : Fin 17) (first second : List Byte) (temp : Int) (occ16 : Nat) (s : State) :
    Out :=
  done (onLive ch (fun c => c.sentSample (s.mtxPresent ch) stream unit first second temp occ16) s)
def execSentinelThirdRun (ch : Fin 8) (third : Option (Fin 17 × List Byte)) (s : State) : Out :=
  done (onLive ch (fun c => c.sentThird (third.map fun p => (p.1.val, p.2))) s)

end Sys2Proof.Machine
end

