-- ==== Sys2Proof/Machine/Time.lean ====
section
/-! DEFINITION. Time units, two-way time transfer, module time and the time pins (Time, Stamps and Triggers, R432–R469). Messages of the
fabric stand in Machine/TimeFab.lean, ticks in Machine/Tick.lean. -/

namespace Sys2Proof.Machine

open Sys2Proof

/-- What an update tells the unit's owner. -/
inductive UnitEv where
  | void | lock | holdover | exceed | jump
  /-- A step of the unit's time, forward when positive, once LOCKED has been reached, and before (R440). -/
  | step (d : Int)
  | settle (d : Int)
  deriving DecidableEq, Repr, Inhabited

/-- What an update finds: the offset, own minus source, that the primary and the alternate source give, none where void; their names;
whether the active source is invalid; LOCK_TH and STEP_US in 2⁻¹⁶ ns. -/
structure UpdIn where
  prim : Option Int
  alt  : Option Int
  primSrc : TSrc
  altSrc  : TSrc
  invalid : Bool := false
  lockTh : Int
  stepTh : Int
  ms   : Nat

/-- One second and one microsecond in units of 2⁻¹⁶ ns. -/
def fineS : Nat := 1000000000 * 65536
def fineUs : Nat := 1000 * 65536

/-- The unit enters HOLDOVER (R439, R443). -/
def enterHold (ms : Nat) (u : TimeUnit) : TimeUnit :=
  { u with state := .holdover, src := .none, holdSinceMs := ms, uncAtHold := u.unc.getD 0, exceeded := false,
           lockRun := 0, voidRun := 0, slew := 0 }

/-- Correction of an offset (R440). -/
def correct (i : UpdIn) (th : Int) (u : TimeUnit) : TimeUnit × List UnitEv :=
  if !u.everLocked then ({ u with slew := 0 }, [.settle (-th)])
  else if decide (th > fineS) || decide (th < -(fineS : Int)) then
    (enterHold i.ms { u with jump := some th }, [.jump, .holdover])
  else if th < -i.stepTh then ({ u with slew := 0 }, [.step (-th)])
  else ({ u with slew := th }, [])

/-- One update of a unit's state machine (R439). -/
def unitUpdate (i : UpdIn) (u : TimeUnit) : TimeUnit × List UnitEv :=
  let u := { u with primRun := if i.prim.isSome then u.primRun + 1 else 0, altRun := if i.alt.isSome then u.altRun + 1 else 0,
                    updMs := i.ms }
  let active := if u.src = .none then none else if u.src = i.primSrc then i.prim else if u.src = i.altSrc then i.alt else none
  let take (src : TSrc) (th : Int) : TimeUnit × List UnitEv :=
    let big := decide (th > fineS) || decide (th < -(fineS : Int))
    if u.everLocked && big then ({ u with jump := some th }, if u.jump.isSome then [] else [.jump])
    else
      let u := { u with state := .acquire, src := src, lockRun := 0, voidRun := 0, jump := none, offset := th }
      correct i th u
  let start : TimeUnit × List UnitEv :=
    match i.prim, i.alt with
    | some th, some ta =>
      if 16 ≤ u.primRun then take i.primSrc th else if 16 ≤ u.altRun then take i.altSrc ta else (u, [])
    | some th, none => if 16 ≤ u.primRun then take i.primSrc th else (u, [])
    | none, some ta => if 16 ≤ u.altRun then take i.altSrc ta else (u, [])
    | none, none => (u, [])
  let heldBad := (match u.unc with | some n => decide (n > 256000) | none => false) && !u.exceeded
  let idle := decide (i.prim = none) && decide (i.alt = none)
  let start := if idle then (start.1, .void :: start.2) else start
  match u.state with
  | .freerun => start
  | .holdover =>
    let r := start
    if r.1.state = .holdover && heldBad then ({ r.1 with exceeded := true }, r.2 ++ [.exceed]) else r
  | _ =>
    if i.invalid then (enterHold i.ms u, [.holdover])
    else match active with
    | none =>
      let n := u.voidRun + 1
      if n ≥ 3 then (enterHold i.ms u, [.void, .holdover]) else ({ u with voidRun := n }, [.void])
    | some th =>
      let small := decide (th < i.lockTh) && decide (-i.lockTh < th)
      let run := if small then u.lockRun + 1 else 0
      let locks := decide (u.state = .acquire) && decide (64 ≤ run)
      let u := { u with voidRun := 0, lockRun := run, offset := th, rates := if small then (th :: u.rates).take 64 else u.rates }
      let r := correct i th u
      if locks && decide (r.1.state ≠ .holdover) then
        ({ r.1 with state := .locked, everLocked := true }, r.2 ++ [.lock])
      else r

/-- U of a unit in HOLDOVER: 0.1 ns for each second (R443). -/
def holdUnc (ms : Nat) (u : TimeUnit) : Nat := u.uncAtHold + (ms - u.holdSinceMs) * 256 / 10000

/-! ### Channel units -/

/-- The channel with its time changed. -/
def Chan.modTime (c : Chan) (f : Time → Time) : Chan := { c with time := f c.time }
def Chan.modUnit (c : Chan) (f : TimeUnit → TimeUnit) : Chan := c.modTime fun t => { t with unit := f t.unit }

/-- A slot after a forward step from `old` to `now`: a slot whose instants were passed fires once, from its last instant passed; the number
passed (R459). -/
def skipSlot (old now : Instant) (t : TrigSlot) : TrigSlot × Nat :=
  let upTo (x : Instant) : Nat := if t.at_ ≤ x then (if t.period = 0 then 1 else (x - t.at_) / t.period + 1) else 0
  if t.armed && decide (t.at_ ≤ now) then ({ t with at_ := t.at_ + (upTo now - 1) * t.period }, upTo now - upTo old) else (t, 0)

/-- A periodic slot after a step back to `now`: armed at its first instant after the new time (R441). -/
def backSlot (now : Instant) (t : TrigSlot) : TrigSlot :=
  if t.armed && decide (t.period ≠ 0) && decide (now + t.period < t.at_) then
    { t with at_ := t.at_ - ((t.at_ - now - 1) / t.period) * t.period }
  else t

/-- Numbers of the slots that a step passed, with how many instants of each. -/
def passedSlots {n : Nat} (r : Vector (TrigSlot × Nat) n) : List (Nat × Nat) :=
  (r.toList.zipIdx.map fun e => (e.2, e.1.2)).filter fun e => decide (0 < e.2)

/-- A forward step (R440, R459, R584). -/
def Chan.stepForward (c : Chan) (d : Nat) : Chan :=
  let old := c.now
  let c := c.modUnit fun u => { u with now := u.now + d }
  let r := c.time.slots.map (skipSlot old c.now)
  let c := c.modTime fun t => { t with slots := r.map Prod.fst }
  let c := (passedSlots r).foldl (fun (c : Chan) e =>
    (c.count 0xC00084 e.2).raise { ev := .timeTrigSkip, plane := .control, value := e.1 }) c
  c.putFx (stepWindows (c.recCtx 0) c.evr false)

/-- A step backward: accepted by software (R441), or before the first LOCKED (R440). Periodic slots are armed again at their first
instant after the new time. -/
def Chan.stepBack (c : Chan) (d : Nat) : Chan :=
  let c := c.modUnit fun u => { u with now := u.now - d }
  let now := c.now
  let c := c.modTime fun t => { t with slots := t.slots.map (backSlot now) }
  c.putFx (stepWindows (c.recCtx 0) c.evr true)

/-- A step by a signed amount. -/
def Chan.step (c : Chan) (d : Int) : Chan := if d < 0 then c.stepBack d.natAbs else c.stepForward d.natAbs

/-- What an update's outcome does in a channel: counters, events, steps (R439, R440, R443). -/
def Chan.unitEv (c : Chan) (e : UnitEv) : Chan :=
  match e with
  | .void => c.count 0xC00090
  | .lock => c.raise { ev := .timeLock, plane := .control }
  | .holdover => (c.count 0xC0008C).raise { ev := .timeHoldover, plane := .control }
  | .exceed => c.raise { ev := .timeHoldExceed, plane := .control }
  | .jump => c.raise { ev := .timeJump, plane := .control }
  | .step d => ((c.step d).count 0xC00088).raise { ev := .timeStep, plane := .control }
  | .settle d => c.step d

/-- TIME.CFG fields (R465). -/
def srcOf (n : Nat) : TSrc := if n = 1 then .module else if n = 2 then .peer else .none
def Chan.timeSrc (c : Chan) : TSrc := srcOf (fld (c.reg 0xC00004) 31 30)
def Chan.timeAlt (c : Chan) : TSrc := srcOf (fld (c.reg 0xC00004) 29 28)

/-- TIME_EN of OPT.PLAN_HI (R373). -/
def Chan.timeEn (c : Chan) : Bool := bitOf (c.reg 0x90000C) 8

/-- Asymmetry of a fibre in units of 2⁻¹⁶ ns, and in ps: D(36.5) × 0.7880 (R446). -/
def asymFine (d0 slope : Int) : Int := (d0 * 1000 + slope * 185) * 788 * 65536 / 1000000000
def asymPs (d0 slope : Int) : Int := (d0 * 1000 + slope * 185) * 788 / 1000000

/-- Mean of integers, rounded down; 0 of none. -/
def meanInt (l : List Int) : Int := if l.isEmpty then 0 else l.foldl (· + ·) 0 / l.length

/-- (t2 − t1) − (t4 − t3) and (t2 − t1) + (t4 − t3) of a pair (R446, R448). -/
def pairDiff (p : TimePair) : Int := ((p.t2 : Int) - p.t1) - ((p.t4 : Int) - p.t3)
def pairSum (p : TimePair) : Int := ((p.t2 : Int) - p.t1) + ((p.t4 : Int) - p.t3)

/-- What the pairs of an update give: θ, th_x − th_y, and the round-trip time in ns when it can be measured (R446, R448, R450). -/
structure PeerMeas where
  theta : Int
  diff  : Int
  rtt   : Option Nat

/-- The peer's offset of this update; none where it is void (R439). -/
def Chan.peerMeas (c : Chan) : Option PeerMeas :=
  let t := c.time
  if t.frameMode then
    if t.pairsX.length < 32 then none
    else
      let pAsym := (c.reg 0xC0002C).toInt * 65536 / 1000
      let lane (m : Vector MapEnt 32) : Nat := (vget m 0).phys.toNat
      let g := Config.groupDelay c.opt.d0 c.opt.slope (lane c.opt.rxMap) - Config.groupDelay c.opt.txD0 c.opt.txSlope (lane c.opt.txMap)
      some ⟨(meanInt (t.pairsX.map pairDiff) - pAsym - g) / 2, 0, none⟩
  else if t.pairsX.length < 32 || t.pairsY.length < 32 then none
  else
    let ax := asymFine c.opt.d0 c.opt.slope
    let ay := asymFine c.opt.txD0 c.opt.txSlope
    let thx := (meanInt (t.pairsX.map pairDiff) - ax) / 2
    let thy := (meanInt (t.pairsY.map pairDiff) + ay) / 2
    let dx := (meanInt (t.pairsX.map pairSum) + ax) / 2
    let dy := (meanInt (t.pairsY.map pairSum) + ay) / 2
    some ⟨(thx + thy) / 2, thx - thy, some ((dx + dy + 5680 * 65536).toNat / 65536)⟩

/-- Active source of the peer as it last reported it (R444). -/
def Chan.peerSrc (c : Chan) : TSrc := srcOf (fld c.time.peerState 4 3)

/-- U of the channel's unit in 1/256 ns; none = unbounded (R443). `modUnc` is the module's. -/
def Chan.newUnc (c : Chan) (modUnc : Option Nat) : Option Nat :=
  let u := c.time.unit
  match u.state with
  | .freerun => none
  | .holdover => if u.everLocked then some (holdUnc c.ms u) else none
  | .acquire => if u.everLocked then u.unc else none
  | .locked =>
    match u.src with
    | .peer =>
      if c.time.peerUnc = 0xFFFFFFFF then none
      else some (c.time.peerUnc.toNat + 256 + (c.time.fibreDiff.natAbs / 256 + 1) / 2)
    | _ => modUnc.map fun n => n + 77

/-- TIME_UPDATE in a channel (R439–R443, R446–R448). `meas` is what the fan-out's mark gives, own time minus module time. -/
def Chan.timeUpdate (c : Chan) (meas : Option Int) (modUnc : Option Nat) : Chan :=
  let pm := c.peerMeas
  let loop := decide (c.peerSrc = .peer) && decide (c.time.unit.src = .peer) && decide (c.cfg.peerSite.toNat < c.cfg.site.toNat)
  let peerOk := decide (c.peerSrc ≠ .peer) || decide (c.cfg.site.toNat < c.cfg.peerSite.toNat)
  let give (s : TSrc) : Option Int :=
    match s with
    | .module => if c.crystal then none else meas
    | .peer => if peerOk then pm.map PeerMeas.theta else none
    | .none => none
  let cfg := c.reg 0xC00004
  let i : UpdIn := {
    prim := give c.timeSrc, alt := give c.timeAlt, primSrc := c.timeSrc, altSrc := c.timeAlt,
    invalid := loop || (decide (c.time.unit.src = .module) && c.crystal),
    lockTh := fld cfg 27 20 * 65536 / 10, stepTh := fld cfg 19 8 * fineUs, ms := c.ms }
  let c := if loop && !c.time.loop then c.raise { ev := .timeLoop, plane := .control } else c
  let asym := match pm with
    | some p => decide (p.diff.natAbs * 10 > fld cfg 7 0 * 65536)
    | none => c.time.asym
  let c := c.raiseIf (pm.isSome && asym) { ev := .timeAsym, plane := .control }
  let c := c.modTime fun t => { t with
    loop := loop, asym := asym, pairsX := [], pairsY := [],
    fibreDiff := (pm.map PeerMeas.diff).getD t.fibreDiff,
    asymTx := asymPs c.opt.txD0 c.opt.txSlope, asymRx := asymPs c.opt.d0 c.opt.slope }
  let c := match pm.bind PeerMeas.rtt with
    | some r => { c with line := { c.line with rttNs := r } }
    | none => c
  let r := unitUpdate i c.time.unit
  let c := r.2.foldl Chan.unitEv (c.modUnit fun _ => r.1)
  c.modUnit fun u => { u with unc := c.newUnc modUnc }

/-- The follower steps to the offset that the lanes give, once both have been received (R449). -/
def Chan.provisional (c : Chan) (p : TimePair) (onX : Bool) : Chan :=
  if decide (c.timeSrc = .peer) && !c.time.aligned && !c.time.unit.everLocked && c.time.lane36 && c.time.lane37 then
    let a := if onX then -(asymFine c.opt.d0 c.opt.slope) else asymFine c.opt.txD0 c.opt.txSlope
    (c.step (-((pairDiff p + a) / 2))).modTime fun t => { t with aligned := true }
  else c

/-- The instant, near a reference, at which the sender's clock showed a millisecond count modulo 2³² (R444). -/
def markTime (mark : BitVec 32) (ref : Fine) : Fine :=
  let ms := ref / (1000000 * 65536)
  let d := (mark - BitVec.ofNat 32 ms).toInt
  ((ms : Int) + d).toNat * (1000000 * 65536)

/-- The whole number, near `ref`, that a mark number modulo 2³² stands for (R444, R445). -/
def markNo (mark : BitVec 32) (ref : Nat) : Nat := ((ref : Int) + (mark - BitVec.ofNat 32 ref).toInt).toNat

/-- Own count of marks: milliseconds, or in frame mode superframes sent since line-up (R444, R450). -/
def Chan.markRef (c : Chan) : Nat :=
  if c.time.frameMode then (match c.time.deps.getLast? with | some e => e.1 | none => 0) else c.time.unit.now / (1000000 * 65536)

/-- Marks older than the newest 64 are forgotten. -/
def keepMarks (m : Cells Fine) : Cells Fine := m.drop (m.length - 64)

/-- Sealed calibration delay `k` of the configuration section, in ps, as fine time (Boot image, CAL; R444; log 173). -/
def Chan.calFine (c : Chan) (k : Nat) : Int := (c.cfg.cal.getD k 0).toInt * 65536 / 1000

/-- Arrival of a mark at the pigtail: the receiver's stamp less the sealed delay of its lane, RX36 or RX37 (R444; log 173). -/
def Chan.atPigtail (c : Chan) (f : TimeFrame) : Fine := ((f.arrival : Int) - c.calFine (if f.pos36 then 2 else 3)).toNat

/-- TIME_FRAME: a frame whose CRC passes is stamped and recorded; its STATE, which nothing authenticates, is not used (R444, R449). -/
def Chan.timeFrame (c : Chan) (f : TimeFrame) : Chan :=
  if !f.crcOk then c
  else
    let arrival := c.atPigtail f
    let k := markNo f.mark (arrival / (1000000 * 65536))
    let c := c.modTime fun t =>
      let t := { t with laneUs := c.us, frameMode := t.frameMode && !c.timeEn }
      if f.pos36 then { t with lane36 := true, arr36 := keepMarks (cput t.arr36 k arrival) }
      else { t with lane37 := true, arr37 := keepMarks (cput t.arr37 k arrival) }
    match f.rxStamp, cget? c.time.deps (markNo f.rxMark (arrival / (1000000 * 65536))) with
    | some t4, some t3 => c.provisional ⟨markTime f.mark t4, arrival, t3, t4⟩ f.pos36
    | _, _ => c

/-- TIME_FRAME_SEND: both lanes carry the mark of this millisecond (R444). -/
def Chan.timeFrameSend (c : Chan) : Chan :=
  let ms := c.time.unit.now / (1000000 * 65536)
  if c.timeEn && c.opt.tlTx && decide (c.time.sentMark < ms) then
    c.modTime fun t => { t with sentMark := ms, deps := keepMarks (cput t.deps ms (ms * (1000000 * 65536))) }
  else c

/-- STATE byte of time frames and TS (R444). -/
def stateByte (u : TimeUnit) : BitVec 8 :=
  let s : Nat := match u.state with | .freerun => 0 | .acquire => 1 | .locked => 2 | .holdover => 3
  let a : Nat := match u.src with | .none => 0 | .module => 1 | .peer => 2
  BitVec.ofNat 8 (s * 32 + a * 8)

/-- U as 4 bytes of 1/256 ns (R445, R466). -/
def uncWord (u : TimeUnit) : Nat := match u.unc with | some n => min n 0xFFFFFFFE | none => 0xFFFFFFFF

/-- A stamp not held is all zeros (R445). -/
def fineStamp (t : Option Fine) : List Byte := match t with | some f => stampBytes (f / 65536) | none => List.replicate 10 0

/-- TS_SEND: every 16 ms, the stamps of the last 16 marks (R445, R450). -/
def Chan.tsSend (c : Chan) : Chan :=
  let t := c.time
  let marks := (t.deps.map Prod.fst).drop (t.deps.length - 16)
  match marks with
  | [] => c
  | k0 :: _ =>
    if c.ms < t.tsMs + 16 then c
    else
      let entry (k : Nat) : List Byte :=
        fineStamp (cget? t.deps k) ++ (if t.frameMode then List.replicate 10 0 else fineStamp (cget? t.arr37 k)) ++ fineStamp (cget? t.arr36 k)
      let n := min 16 (marks.length)
      let body := beBytes 4 (k0 % 4294967296) ++ beBytes 1 n ++ [stateByte t.unit, if t.frameMode then 2 else 1, 0] ++ beBytes 4 (uncWord t.unit)
        ++ (List.range n).flatMap fun i => entry (k0 + i)
      (c.modTime fun t => { t with tsMs := c.ms }).sendSealed 1 1 body

/-- The pairs an entry of mark `k` completes (R446, R450). -/
def Chan.tsEntry (c : Chan) (k : Nat) (e : TsEntry) : Chan :=
  let t := c.time
  let x := if t.frameMode then e.arr36 else e.arr37
  let c := match e.dep, cget? t.arr36 k, cget? t.deps k, x with
    | some t1, some t2, some t3, some t4 =>
      (c.modTime fun t => { t with pairsX := t.pairsX ++ [⟨t1, t2, t3, t4⟩] }).provisional ⟨t1, t2, t3, t4⟩ true
    | _, _, _, _ => c
  match e.dep, cget? t.arr37 k, cget? t.deps k, e.arr36, t.frameMode with
  | some t1, some t2, some t3, some t4, false => c.modTime fun t => { t with pairsY := t.pairsY ++ [⟨t1, t2, t3, t4⟩] }
  | _, _, _, _, _ => c

/-- TS: stamps of a message that verifies count toward the next update (R445, R449); those of the other MODE number other marks, and pair with
none. -/
def Chan.ts (c : Chan) (b : TsBody) : Chan :=
  if b.count.toNat = 0 || 16 < b.count.toNat || b.entries.length ≠ b.count.toNat then c
  else
    let c := c.modTime fun t => { t with peerState := b.state, peerUnc := b.unc }
    if b.mode ≠ (if c.time.frameMode then 2 else 1) then c
    else (b.entries.zipIdx).foldl (fun c e => c.tsEntry (markNo b.firstMark c.markRef + e.2) e.1) c

/-- FRAME_MODE_ENTRY (R450). -/
def Chan.frameModeEntry (c : Chan) : Chan :=
  if !c.timeEn || decide (c.time.laneUs + 1000000 < c.us) then
    if c.time.frameMode then c
    else c.modTime fun t => { t with
      frameMode := true, lane36 := false, lane37 := false, deps := [], arr36 := [], arr37 := [], pairsX := [], pairsY := [] }
  else c

/-- ACCEPT_JUMP: the unit takes the pending jump (R440, R441). -/
def Chan.acceptJump (c : Chan) : Chan :=
  match c.time.unit.jump with
  | some th => ((c.step (-th)).count 0xC00088).modUnit fun u => { u with jump := none, primRun := 0, altRun := 0 }
  | none => c

/-! ### Module time -/

/-- The hub with module time changed. -/
def Hub.modG (h : Hub) (f : GTime → GTime) : Hub := { h with gtime := f h.gtime }
def Hub.modUnit (h : Hub) (f : TimeUnit → TimeUnit) : Hub := h.modG fun g => { g with unit := f g.unit }

/-- A step of module time, with its slots and windows (R441, R459, R584). -/
def Hub.step (h : Hub) (d : Int) : Hub :=
  let old := h.now
  let h := h.modUnit fun u => { u with now := ((u.now : Int) + d).toNat }
  let now := h.now
  let h :=
    if d < 0 then h.modG fun g => { g with slots := g.slots.map (backSlot now) }
    else
      let r := h.gtime.slots.map (skipSlot old now)
      (passedSlots r).foldl (fun (h : Hub) e => h.raise { ev := .timeTrigSkip, plane := .control, value := e.1 })
        (h.modG fun g => { g with slots := r.map Prod.fst })
  h.putFx (stepWindows h.recCtx h.evr (decide (d < 0)))

/-- What an update's outcome does in the module time unit. -/
def Hub.unitEv (h : Hub) (e : UnitEv) : Hub :=
  match e with
  | .void => h
  | .lock => h.raise { ev := .timeLock, plane := .control }
  | .holdover => h.raise { ev := .timeHoldover, plane := .control }
  | .exceed => h.raise { ev := .timeHoldExceed, plane := .control }
  | .jump => h.raise { ev := .timeJump, plane := .control }
  | .step d => (h.step d).raise { ev := .timeStep, plane := .control }
  | .settle d => h.step d

/-- TIME_UPDATE of module time (R439, R452): from PPS_IN, or from channel `n` while that channel is LOCKED and in service. LOCK_TH and
STEP_US are those of TIME.CFG at reset, which GTIME.CFG does not hold (log entry 24). -/
def State.gtimeUpdate (s : State) : State :=
  let h := s.hub
  let n := fld (h.reg 0x200004) 31 28
  let fromCh : Option (Int × Option Nat) :=
    if 8 ≤ n then
      let c := vget s.chans (n - 8)
      if s.present (n - 8) && c.inPath && decide (c.time.unit.state = .locked) then
        some ((h.gtime.unit.now : Int) - c.time.unit.now, c.time.unit.unc)
      else none
    else none
  let off := if 8 ≤ n then fromCh.map Prod.fst else if n = 0 && h.gtime.ppsOk then some h.gtime.ppsOfs else none
  let i : UpdIn := {
    prim := off, alt := none, primSrc := .module, altSrc := .none, invalid := decide (8 ≤ n) && off.isNone,
    lockTh := 20 * 65536 / 10, stepTh := 100 * fineUs, ms := h.ms }
  let r := unitUpdate i h.gtime.unit
  let h := r.2.foldl Hub.unitEv (h.modUnit fun _ => r.1)
  let unc := match h.gtime.unit.state with
    | .freerun => none
    | .holdover => if h.gtime.unit.everLocked then some (holdUnc h.ms h.gtime.unit) else none
    | .acquire => if h.gtime.unit.everLocked then h.gtime.unit.unc else none
    | .locked => if 8 ≤ n then (fromCh.bind Prod.snd) else some (fld (h.reg 0x200004) 27 16 * 256)
  { s with hub := h.modUnit fun u => { u with unc := unc } }

/-- PPS_IN_EDGE at a stamp of module time (R453). -/
def Hub.ppsIn (h : Hub) (t : Fine) : Hub :=
  if fld (h.reg 0x200004) 31 28 ≠ 0 then h
  else if h.gtime.todArmed then
    let sec := (h.reg 0x20000C).toNat % 65536 * 4294967296 + (h.reg 0x200008).toNat
    let h := h.step ((sec * fineS : Nat) - (t : Int))
    h.modG fun g => { g with todArmed := false, todSet := true, ppsOk := true, ppsLastMs := h.ms, ppsOfs := 0 }
  else if !h.gtime.todSet then h
  else
    let r := t % fineS
    let off : Int := if r * 2 < fineS then r else (r : Int) - fineS
    if off.natAbs > fineUs then (h.count 0x200080).raise { ev := .timePpsBad, plane := .control }
    else h.modG fun g => { g with ppsOk := true, ppsLastMs := h.ms, ppsOfs := off }

/-- PPS_OUT_EDGE: PPS_OUT rises at the second plus OFS (R454). -/
def Hub.ppsEdge (h : Hub) : Hub :=
  let w := h.reg 0x20001C
  let ofs := (BitVec.ofNat 16 (fld w 31 16)).toInt
  let sec := ((h.now : Int) - ofs) / 1000000000
  if bitOf w 0 && decide (h.gtime.unit.state ≠ .freerun) && decide (h.gtime.lastPps ≠ some sec) then
    h.modG fun g => { g with
      ppsOut := true, lastPps := some sec, ppsFall := (sec * 1000000000 + ofs).toNat + fld w 15 8 * 1000000 }
  else h

/-- TIME_CAP_EDGE on input `k` at a stamp in 1/256 ns (R455). -/
def Hub.capEdge (h : Hub) (k : Fin 4) (t : Nat) : Hub :=
  let close : Bool := match vget h.gtime.lastEdge k.val with | some p => decide (t ≤ p + 256000) | none => false
  let h := h.modG fun g => { g with lastEdge := g.lastEdge.set k (some t) }
  if close then h
  else
    if 16 ≤ (h.gtime.caps[k]).length then
      (h.modG fun g => { g with lost := g.lost.set k (min (g.lost[k] + 1) 0xFF) }).raise
        { ev := .timeCapLost, plane := .control, value := k.val }
    else h.modG fun g => { g with caps := g.caps.set k (g.caps[k] ++ [t]) }

/-- GLOBAL_SLOT_ARM: a write of ARMED = 1 to word 1 of global slot `j` (R459, R467). -/
def Hub.gArm (h : Hub) (j : Fin 8) (data : Word) : Hub :=
  let base := 0x200100 + 16 * j.val
  let ns := (h.reg (base + 8)).toNat
  if ns ≥ 1000000000 then
    h.violate { source := .hostIo, ch := 0xFF, kind := .badValue, addr := base + 4 }
  else
    let t := (fld data 15 0 * 4294967296 + (h.reg base).toNat) * 1000000000 + ns
    let h := h.setReg (base + 4) (data &&& 0x3FFFFFFF)
    let slot : TrigSlot := { at_ := t, period := (h.reg (base + 12)).toNat, width := fld data 29 16, armed := true,
                             fired := (h.gtime.slots[j]).fired }
    let h := h.modG fun g => { g with slots := g.slots.set j slot }
    if t < h.now then (h.count 0x200084).raise { ev := .timeTrigLate, plane := .control, value := j.val, scope := j.val } else h

/-- GLOBAL_TRIGGER_FIRE: slots 0–3 drive their pin for WIDTH, clipped to the period less 10 ns; slots 4–7 raise TIME_GTRIG
(R458, R462). Lower slots fire first at one instant (R460). -/
def Hub.gFire (h : Hub) (j : Fin 8) : Hub :=
  let t := h.gtime.slots[j]
  let lower := (List.range j.val).any fun i => (vget h.gtime.slots i).armed && decide ((vget h.gtime.slots i).at_ = t.at_)
  if t.armed && decide (t.at_ ≤ h.now) && !lower then
    let again : TrigSlot := { t with fired := true, armed := decide (t.period ≠ 0), at_ := t.at_ + t.period }
    let h := h.modG fun g => { g with slots := g.slots.set j again }
    if j.val < 4 then
      let w := if t.period = 0 then t.width * 100 else min (t.width * 100) (t.period - 10)
      h.modG fun g => { g with trigOut := putBit g.trigOut j.val true, trigFall := vset g.trigFall j.val (t.at_ + w) }
    else h.raise { ev := .timeGtrig, plane := .control, value := j.val }
  else h

/-! ### Meanings -/

/-- The exchanges pause while the channel recovers (R442). -/
def execTimeFrame (ch : Fin 8) (f : TimeFrame) (s : State) : Out := done (onPath ch (fun c => c.timeFrame f) s)
def execTimeFrameSend (ch : Fin 8) (s : State) : Out := done (onPath ch Chan.timeFrameSend s)

def execTs (ch : Fin 8) (h : SealHdr) (b : TsBody) (s : State) : Out :=
  done (onPath ch (fun c => c.onSealed 1 1 h fun c => c.ts b) s)

def execTsSend (ch : Fin 8) (s : State) : Out := done (onPath ch Chan.tsSend s)

/-- TIME_UPDATE of a channel's unit, or of module time (none); at most every 64 ms (R439). -/
def execTimeUpdate (unit : Option (Fin 8)) (meas : Option Int) (s : State) : Out :=
  match unit with
  | some ch =>
    done (onChan ch (fun c => if c.time.unit.updMs + 64 ≤ c.ms then c.timeUpdate meas s.hub.gtime.unit.unc else c) s)
  | none => done (if !s.hub.failed && decide (s.hub.gtime.unit.updMs + 64 ≤ s.hub.ms) then s.gtimeUpdate else s)

def execFrameModeEntry (ch : Fin 8) (s : State) : Out := done (onLive ch Chan.frameModeEntry s)

/-- A command to the hub die: nothing happens once the hub has failed (R21). -/
def onHub (f : Hub → Hub) (s : State) : State := if s.hub.failed then s else s.modHub f

def execPpsInEdge (t : Fine) (s : State) : Out := done (onHub (fun h => h.ppsIn t) s)

/-- PPS_IN_LOSS: no usable edge for 2 s makes the source void (R453). -/
def execPpsInLoss (s : State) : Out :=
  done (onHub (fun h => if h.gtime.ppsLastMs + 2000 < h.ms then h.modG fun g => { g with ppsOk := false } else h) s)

/-- TOD_SET: a write to TOD_SET_HI arms both words (R468). -/
def execTodSet (hi : BitVec 16) (s : State) : Out :=
  done (onHub (fun h => (h.setReg 0x20000C (hi.setWidth 32)).modG fun g => { g with todArmed := true }) s)

def execPpsOutEdge (s : State) : Out := done (onHub Hub.ppsEdge s)
def execTimeCapEdge (k : Fin 4) (t : Nat) (s : State) : Out := done (onHub (fun h => h.capEdge k t) s)

/-- CAP_ENTRY_REMOVE: a read of word 3 removes the entry and clears LOST (R468). -/
def execCapEntryRemove (k : Fin 4) (s : State) : Out :=
  done (onHub (fun h => h.modG fun g => { g with caps := g.caps.set k (g.caps[k].drop 1), lost := g.lost.set k 0 }) s)

/-- NOW_LATCH: a read of NOW_S_LO latches NOW_S_HI and NOW_NS (R466). -/
def execNowLatch (unit : Option (Fin 8)) (s : State) : Out :=
  match unit with
  | some ch => done (onChan ch (fun c => c.modTime fun t => { t with
      latchHi := BitVec.ofNat 16 (c.now / 1000000000 / 4294967296), latchNs := BitVec.ofNat 32 (c.now % 1000000000) }) s)
  | none => done (onHub (fun h => h.modG fun g => { g with
      latchHi := BitVec.ofNat 16 (h.now / 1000000000 / 4294967296), latchNs := BitVec.ofNat 32 (h.now % 1000000000) }) s)

def execGlobalSlotArm (j : Fin 8) (data : Word) (s : State) : Out := done (onHub (fun h => h.gArm j data) s)
/-- GLOBAL_TRIGGER_FIRE waits until every channel slot due at the same instant has fired (R460). -/
def execGlobalTriggerFire (j : Fin 8) (s : State) : Out :=
  let t := s.hub.gtime.slots[j].at_
  let first := (List.range 8).any fun n => s.present n && (vget s.chans n).live && decide (t ≤ (vget s.chans n).now) && !(vget s.chans n).turn 16 t
  done (if first then s else onHub (fun h => h.gFire j) s)

end Sys2Proof.Machine
end

