-- ==== Sys2Proof/Machine/Optical.lean ====
section
/-! DEFINITION. The optical engine: margins, calibration, margin test, spare-ins, comb take-over, safety (Optical Lanes and Their
Control, R339–R377). -/

namespace Sys2Proof.Machine

open Sys2Proof

/-- The channel with its optical engine changed. -/
def Chan.modOpt (c : Chan) (f : Opt → Opt) : Chan := { c with opt := f c.opt }

/-- A receive or a transmit lane changed. -/
def Chan.modRx (c : Chan) (p : Nat) (f : OLane → OLane) : Chan := c.modOpt fun o => { o with rx := vset o.rx p (f (vget o.rx p)) }
def Chan.modTx (c : Chan) (p : Nat) (f : OLane → OLane) : Chan := c.modOpt fun o => { o with tx := vset o.tx p (f (vget o.tx p)) }

/-- A list of lanes changed. -/
def Chan.setRx (c : Chan) (ps : List Nat) (st : LaneSt) (ook : Bool) : Chan :=
  ps.foldl (fun c p => c.modRx p fun l => { l with st := st, ook := ook }) c
def Chan.setTx (c : Chan) (ps : List Nat) (st : LaneSt) (ook : Bool) : Chan :=
  ps.foldl (fun c p => c.modTx p fun l => { l with st := st, ook := ook }) c

/-! ### Plan and thresholds -/

/-- Lane `p` is in the sealed plan mask (R340). -/
def Chan.allowed (c : Chan) (p : Nat) : Bool := if p < 32 then bitOf (c.reg 0x900008) p else decide (p < 36) && bitOf (c.reg 0x90000C) (p - 32)

/-- The allowed lanes, ascending. -/
def Chan.plan (c : Chan) : List Nat := (List.range 36).filter fun p => c.allowed p

/-- SPARE_TH, and MT_PASS read as at least SPARE_TH + 10, in units of 0.05 dB (R372). -/
def Chan.spareTh (c : Chan) : Int := fld (c.reg 0x900004) 31 24 * 2
def Chan.mtPass (c : Chan) : Int := max (fld (c.reg 0x900004) 23 16 * 2 : Int) (c.spareTh + 20)

/-- DISP_SEAL in ps/nm, and the trial step: the larger of 1 % of it and 10 ps/nm (R355). -/
def Chan.dispSeal (c : Chan) : Int := (BitVec.ofNat 16 (fld (c.reg 0x90000C) 31 16)).toInt
def Chan.trialStep (c : Chan) : Int := max (c.dispSeal.natAbs / 100 : Nat) 10

/-- R340, R350: fewer than 32 allowed lanes, a reserved reach class, or a sealed dispersion outside the class's range. -/
def Chan.planBad (c : Chan) : Bool :=
  let r := fld (c.reg 0x90000C) 15 12
  decide (c.plan.length < 32) || decide (3 < r) || decide (lget 0 [1000, 2500, 8000, 18000] r < c.dispSeal.natAbs)

/-! ### The margin estimate (R348) -/

/-- The lesser of two ratios. -/
def ratMin (a b : Nat × Nat) : Nat × Nat := if a.1 * b.2 ≤ b.1 * a.2 then a else b

/-- q_eye: the least eye over adjacent levels. -/
def qEye : List Nat → List Nat → Option (Nat × Nat)
  | m0 :: m1 :: ms, s0 :: s1 :: ss =>
    let q := (m1 - m0, s0 + s1)
    match qEye (m1 :: ms) (s1 :: ss) with
    | some r => some (ratMin q r)
    | none => some q
  | _, _ => none

/-- The greatest k, from `lo` up in `n` halvings, with 10^k ≤ (a / b)^200: ⌊200 × log10 (a / b)⌋. -/
def logSearch (a b : Nat) : Nat → Int → Int
  | 0, lo => lo
  | n + 1, lo =>
    let k := lo + 2 ^ n
    let le := if 0 ≤ k then decide (b ^ 200 * 10 ^ k.toNat ≤ a ^ 200) else decide (b ^ 200 ≤ a ^ 200 * 10 ^ (-k).toNat)
    logSearch a b n (if le then k else lo)

/-- 10 × log10 of a ratio in units of 0.05 dB, rounded down and clamped to the field (R348, R375; log entry 25). -/
def dB20 (a b : Nat) : Int := if a = 0 then -512 else if b = 0 then 511 else logSearch a b 10 (-512)

/-- The margin estimate of a lane, in units of 0.05 dB. -/
def marginOf (ook : Bool) (m : LaneMeas) : Int :=
  let n := if ook then 2 else 4
  match qEye (m.mu.take n) (m.sg.take n) with
  | none => -512
  | some e =>
    let q := if 100 ≤ m.corrected then ratMin e (Config.qFec ook m.corrected m.bits, 65536) else e
    dB20 (q.1 * 1000) (q.2 * (if ook then 2257 else 2144))

/-! ### Messages and operations -/

/-- An HLTH message of this chapter (R361). -/
def Chan.sendHlth (c : Chan) (type : Nat) (body : List Byte) : Chan := c.sendSealed 4 type body

/-- Physical lanes of a request: PHYS, and PAIR when there is one. -/
def SpareReqLanes (r : SpareReq) : List Nat := if r.pair = 0xFF then [r.phys.toNat] else [r.phys.toNat, r.pair.toNat]

/-- Physical lanes of a map entry. -/
def entLanes (e : MapEnt) : List Nat := if e.pair = 0x3F then [e.phys.toNat] else [e.phys.toNat, e.pair.toNat]

/-- The map entry a request leads to. -/
def reqEnt (r : SpareReq) : MapEnt :=
  { ook := decide (r.pair ≠ 0xFF), phys := r.phys.setWidth 6, pair := if r.pair = 0xFF then 0x3F else r.pair.setWidth 6 }

/-- Bytes of a SPARE_REQ. -/
def reqBytes (r : SpareReq) : List Byte := [r.op, r.lane, r.kind, r.phys, r.pair, r.comb]

/-- Body bytes of the request an operation repeats. -/
def OptOpBody (o : OptOp) : Nat × List Byte := if o.burst then (0x09, [o.req.op, o.req.phys]) else (0x02, reqBytes o.req)

/-- A physical lane belongs to an open operation of a direction (R364). -/
def inOps (ops : List OptOp) (p : Nat) : Bool := ops.any fun o => (SpareReqLanes o.req).contains p

/-- An operation replaced by number. -/
def setOp (ops : List OptOp) (o : OptOp) : List OptOp := ops.map fun x => if x.req.op = o.req.op then o else x
def dropOp (ops : List OptOp) (n : BitVec 8) : List OptOp := ops.filter fun x => x.req.op ≠ n

/-- The next operation number not open in the receive direction (R361). -/
def freshOp (ops : List OptOp) (n : BitVec 8) : Nat → BitVec 8
  | 0 => n
  | k + 1 => if ops.any (fun o => o.req.op = n) then freshOp ops (n + 1) k else n

/-- Lanes of the new carrier that the old one does not use. -/
def newOnly (o : OptOp) : List Nat := (SpareReqLanes o.req).filter fun p => !(entLanes o.old).contains p
/-- Lanes of the old carrier that the new one does not use. -/
def oldOnly (o : OptOp) : List Nat := (entLanes o.old).filter fun p => !(SpareReqLanes o.req).contains p

/-- The SPARE receive lanes outside every operation, best margin first, ties to the lower lane (R362). -/
def Chan.spares (c : Chan) (tried : List Nat) : List Nat :=
  let ps := c.plan.filter fun p => decide ((vget c.opt.rx p).st = .spare) && !inOps c.opt.rxOps p && !tried.contains p
  sortBy (fun a b => decide ((vget c.opt.rx b).margin ≤ (vget c.opt.rx a).margin)) ps

/-- The open burst of a physical receive lane. -/
def Chan.burstOn (c : Chan) (p : Nat) : Option OptOp := c.opt.rxOps.find? fun o => o.burst && decide (o.req.phys.toNat = p)

/-- The lanes that a spare-in may take, best first: SPARE lanes, and behind them those that were SPARE before a burst lit them (R354, R362). -/
def Chan.candidates (c : Chan) (tried : List Nat) : List Nat :=
  let lit := c.plan.filter fun p => !tried.contains p && match c.burstOn p with | some o => decide (o.was = .spare) | none => false
  c.spares tried ++ sortBy (fun a b => decide ((vget c.opt.rx b).margin ≤ (vget c.opt.rx a).margin)) lit

/-- The logical lane a physical receive lane carries, alone or as half of a pair. -/
def logicalOf (m : Vector MapEnt 32) (p : Nat) : Option Nat := (List.range 32).find? fun l => (entLanes (vget m l)).contains p

/-- A receive operation opened: its request sent, its new lanes taken (R362 step 2). -/
def Chan.openOp (c : Chan) (req : SpareReq) (burst cold : Bool) (old : MapEnt) : Chan :=
  let n := freshOp c.opt.rxOps c.opt.nextOp 256
  let o : OptOp := { req := { req with op := n }, burst := burst, stage := .requested, startUs := c.us, sentUs := c.us,
                     old := old, cold := cold, was := if burst then (vget c.opt.rx req.phys.toNat).st else .spare }
  let c := (c.modOpt fun x => { x with rxOps := x.rxOps ++ [o], nextOp := n + 1 }).setRx (newOnly o) .shadow (req.pair ≠ 0xFF)
  c.sendHlth (OptOpBody o).1 (OptOpBody o).2

/-- A spare-in gives way to nothing; a burst, or a comb move before its step 8, gives way to a spare-in when four operations run
(R364). -/
def Chan.makeRoom (c : Chan) : Chan :=
  let ops := c.opt.rxOps
  if ops.length < 4 then c
  else
    let early (o : OptOp) : Bool := match o.stage with | .armed _ => false | .due _ => false | .copying _ => false | _ => true
    let victim := match ops.find? OptOp.burst with
      | some o => some o
      | none => ops.find? fun o => decide (o.req.kind = 3) && early o
    match victim with
    | none => c
    | some o =>
      let c := (c.setRx (newOnly o) o.was false).modOpt fun x => { x with
        rxOps := dropOp x.rxOps o.req.op, moveQ := if o.burst then x.moveQ else o.req.lane.toNat :: x.moveQ }
      c.sendHlth 0x06 [o.req.op, 0x04]

/-- A burst on a lane that a spare-in claims is abandoned (R354). -/
def Chan.claim (c : Chan) (p : Nat) : Chan :=
  match c.burstOn p with
  | some o => ((c.setRx [p] o.was false).modOpt fun x => { x with rxOps := dropOp x.rxOps o.req.op }).sendHlth 0x06 [o.req.op, 0x04]
  | none => c

/-- A spare-in started for physical lane `p`: the best SPARE lane at PAM4, or failing that an OOK pair of the lane and the best SPARE
lane (R362, R363). `cold` as in R366. -/
def Chan.spareIn (c : Chan) (p : Nat) (cold : Bool) : Chan :=
  match logicalOf c.opt.rxMap p with
  | none => c
  | some l =>
    let lane := vget c.opt.rx p
    let old := vget c.opt.rxMap l
    let req : SpareReq := ⟨0, BitVec.ofNat 8 l, 1, 0, 0xFF, 0⟩
    match c.candidates lane.tried with
    | [] => (c.modRx p fun x => { x with tried := [] }).raise { ev := .optNoSpare, value := p, unit := p }
    | q :: _ =>
      let c := (c.claim q).makeRoom
      if 4 ≤ c.opt.rxOps.length then c.modRx p fun x => { x with low := 2 }
      else if c.spareTh + 20 ≤ (vget c.opt.rx q).margin || cold then
        (c.modRx p fun x => { x with tried := x.tried ++ [q] }).openOp { req with phys := BitVec.ofNat 8 q } false cold old
      else
        (c.modRx p fun x => { x with tried := x.tried ++ [q] }).openOp
          { req with kind := 2, phys := BitVec.ofNat 8 (min p q), pair := BitVec.ofNat 8 (max p q) } false cold old

/-- Lanes that wait for a spare are tried again when a lane returns to SPARE (R363). -/
def Chan.retrySpares (c : Chan) : Chan :=
  c.modOpt fun o => { o with rx := o.rx.map fun l => if 3 < l.low then { l with low := 2 } else l }

/-- Comb moves, onto SPARE lanes, up to four operations at a time, in ascending logical order (R367). -/
def Chan.nextMoves (c : Chan) : Nat → Chan
  | 0 => c
  | n + 1 =>
    match c.opt.moveQ, c.spares [] with
    | l :: r, q :: _ =>
      if 4 ≤ c.opt.rxOps.length then c
      else
        let req : SpareReq := ⟨0, BitVec.ofNat 8 l, 3, BitVec.ofNat 8 q, 0xFF, 1⟩
        ((c.modOpt fun o => { o with moveQ := r }).openOp req false false (vget c.opt.rxMap l)).nextMoves n
    | _, _ => c

/-- Calibration bursts on the lanes that await one (R353, R354, R364). -/
def Chan.nextBursts (c : Chan) : Nat → Chan
  | 0 => c
  | n + 1 =>
    match c.opt.burstQ with
    | p :: r =>
      if 4 ≤ c.opt.rxOps.length then c
      else
        let st := (vget c.opt.rx p).st
        let c := c.modOpt fun o => { o with burstQ := r }
        if (decide (st = .spare) || decide (st = .retired)) && !inOps c.opt.rxOps p then
          (c.openOp ⟨0, 0, 0, BitVec.ofNat 8 p, 0xFF, 0⟩ true false { phys := 0x3F }).nextBursts n
        else c.nextBursts n
    | [] => c

/-- Bursts queued for the SPARE lanes, and the RETIRED ones too when `all`; when none is free the refit is skipped (R353, R354). -/
def Chan.queueBursts (c : Chan) (all : Bool) : Chan :=
  let ps := c.plan.filter fun p =>
    let st := (vget c.opt.rx p).st
    (decide (st = .spare) || (all && decide (st = .retired))) && !inOps c.opt.rxOps p
  if ps.isEmpty then c.count 0x900058
  else (c.modOpt fun o => { o with burstQ := ps, refit := true, fitted := o.fitted }).nextBursts 4

/-- A receive operation ended before its switch (R363): the new lanes go dark, and the next candidate is tried. -/
def Chan.abortRx (c : Chan) (o : OptOp) (reason : Nat) (tell : Bool) : Chan :=
  let c := (c.setRx (newOnly o) o.was false).modOpt fun x => { x with rxOps := dropOp x.rxOps o.req.op }
  let c := if tell then c.sendHlth 0x06 [o.req.op, BitVec.ofNat 8 reason] else c
  if o.burst then c
  else
    let c := (c.count 0x900044).raise { ev := .optSpareAbort, value := reason, unit := o.req.phys.toNat }
    if o.req.kind = 3 then c
    else match (entLanes o.old).find? fun p => decide (3 ≤ (vget c.opt.rx p).low) with
      | some p => c.spareIn p o.cold
      | none => match entLanes o.old with
        | p :: _ => if o.cold then c.spareIn p true else c
        | [] => c

/-- The first of four trigger slots that is not armed. -/
def Chan.freeSlot (c : Chan) (base : Nat) : Nat :=
  ((List.range 4).find? fun i => !(vget c.time.slots (base + i)).armed).map (fun i => base + i) |>.getD base

/-- SPARE_SWITCH sent with T at least 2 × RTT ahead, or now for a cold spare-in (R362 step 8, R366). -/
def Chan.sendSwitch (c : Chan) (o : OptOp) : Chan :=
  let t := if o.cold then c.now else c.now + 2 * c.rttNs
  let j := c.freeSlot 6
  let c := (c.modOpt fun x => { x with rxOps := setOp x.rxOps { o with stage := .armed t, slot := j } }).arm j t
  c.sendHlth 0x04 ([o.req.op] ++ stampBytes t)

/-- An acknowledged operation at an estimate: SYNC within 30 ms, then 100 ms of margin at or above SPARE_TH + 1.0 dB (R362 steps 6, 7). -/
def Chan.opEstimate (c : Chan) (ms : List LaneMeas) (o : OptOp) : Chan :=
  let lanes := SpareReqLanes o.req
  let synced := lanes.all fun p => ms.any fun m => decide (m.phys.toNat = p) && m.sync
  match o.stage with
  | .syncing =>
    if synced then
      if o.cold then c.sendSwitch o
      else c.modOpt fun x => { x with rxOps := setOp x.rxOps { o with stage := .measuring c.us } }
    else if o.ackUs + 30000 < c.us then c.abortRx o 2 true else c
  | .measuring t =>
    if t + 100000 < c.us then
      if lanes.all fun p => decide (c.spareTh + 20 ≤ (vget c.opt.rx p).margin) then c.sendSwitch o else c.abortRx o 2 true
    else c
  | _ => c

/-! ### Fit and map (R355, R357, R358) -/

/-- Quotient rounded to the nearest integer (log entry 25). -/
def divNear (a b : Int) : Int := if b = 0 then 0 else (2 * a + b.natAbs * (if b < 0 then -1 else 1)) / (2 * b)

/-- Least-squares fit of D over position − 18: D0 in ps/nm and SLOPE in 0.01 ps/nm per position (R355). -/
def fitLine (pts : Cells Int) : Int × Int :=
  let n : Int := pts.length
  let sx := pts.foldl (fun a p => a + ((p.1 : Int) - 18)) 0
  let sy := pts.foldl (fun a p => a + p.2) 0
  let sxx := pts.foldl (fun a p => a + ((p.1 : Int) - 18) * ((p.1 : Int) - 18)) 0
  let sxy := pts.foldl (fun a p => a + ((p.1 : Int) - 18) * p.2) 0
  let det := n * sxx - sx * sx
  if det = 0 then (divNear sy n, 0)
  else (divNear (sy * sxx - sx * sxy) det, divNear (100 * (n * sxy - sx * sy)) det)

/-- The refit of the receive direction: DISP set and PRECOMP sent (R355). -/
def Chan.sendFit (c : Chan) : Chan :=
  if c.opt.fitted.isEmpty then c
  else
    let f := fitLine c.opt.fitted
    let w : Word := putFld (putFld 0 31 16 (f.1 % 65536).toNat) 15 0 (f.2 % 65536).toNat
    let c := (c.modOpt fun o => { o with d0 := f.1, slope := f.2, refit := false, fitted := [] }).setReg 0x900010 w
    c.sendHlth 0x0B (beBytes 2 (f.1 % 65536).toNat ++ beBytes 2 (f.2 % 65536).toNat)

/-- OOK pairs, in ascending lane order, until `need` are formed. -/
def ookPairs : Nat → List Nat → List MapEnt
  | 0, _ => []
  | n + 1, a :: b :: r => { ook := true, phys := BitVec.ofNat 6 a, pair := BitVec.ofNat 6 b } :: ookPairs n r
  | _, _ => []

/-- R358 rules 1 and 2 at a threshold, over (lane, PAM4 margin, OOK margin); logical lanes in ascending order of the carrier's lower
lane. -/
def chooseMap (th : Int) (ls : List (Nat × Int × Int)) : Option (List MapEnt) :=
  let good := ls.filter fun l => decide (th ≤ l.2.1)
  let byPhys (es : List MapEnt) : List MapEnt := sortBy (fun a b => decide (a.phys.toNat ≤ b.phys.toNat)) es
  let single (l : Nat × Int × Int) : MapEnt := { phys := BitVec.ofNat 6 l.1 }
  if 32 ≤ good.length then
    some (byPhys (((sortBy (fun a b => decide (b.2.1 ≤ a.2.1)) good).take 32).map single))
  else
    let rest := (ls.filter fun l => decide (l.2.1 < th) && decide (th ≤ l.2.2)).map Prod.fst
    let es := good.map single ++ ookPairs (32 - good.length) rest
    if es.length = 32 then some (byPhys es) else none

/-- Bytes of a MAP message (R361). -/
def mapBytes (t : Instant) (es : List MapEnt) : List Byte :=
  stampBytes t ++ es.flatMap fun e => beBytes 2 (e.ook.toNat * 32768 + e.phys.toNat * 256 + e.pair.toNat)

/-- The map chosen by the receiving end, sent and armed 2 × RTT ahead (R357 step 7, R358, R359); `final`: OOK margins are known. -/
def Chan.chooseSend (c : Chan) (ook : Cells Int) (final : Bool) : Chan :=
  let ls := c.plan.map fun p => (p, (vget c.opt.rx p).margin, cget (-512) ook p)
  let good := (ls.filter fun l => decide (c.mtPass ≤ l.2.1)).length
  if good < 32 && !final then
    c.modOpt fun o => { o with mtRun := o.mtRun.map fun r => { r with step := 6, sinceUs := c.us } }
  else
    let pick := match chooseMap c.mtPass ls with
      | some m => some (m, true)
      | none => (chooseMap c.spareTh ls).map fun m => (m, false)
    match pick with
    | some (m, passed) =>
      let t := c.now + 2 * c.rttNs
      let c := (c.modOpt fun o => { o with
        rxPend := some { at_ := t, ents := m }, mt := if passed then .passed else .marginal, mtRun := o.mtRun.map fun r => { r with step := 7 } }).arm 6 t
      let c := c.sendHlth 0x0C (mapBytes t m)
      c.raise { ev := if passed then .optMtPass else .optMarginLow }
    | none => (c.modOpt fun o => { o with mt := .failed, mtRun := none, mtFailMs := c.ms }).raise { ev := .optMtFail }

/-- The transmit filters at a trial of the sweep (R355, R357). -/
def Chan.trialFilters (c : Chan) (k : Nat) : Vector Int 36 := c.opt.filt.map fun _ => c.dispSeal + ((k : Int) - 16) * c.trialStep

/-- The margin test begins (R357 step 1). -/
def Chan.startMt (c : Chan) : Chan :=
  let lanes (v : Vector OLane 36) : Vector OLane 36 :=
    (List.range 36).foldl (fun v p => vset v p { (vget v p) with st := if c.allowed p then .shadow else .outside, ook := false }) v
  c.modOpt fun o => { o with
    mt := .running, mtRun := some { step := 2, sinceUs := c.us }, filt := c.trialFilters 0, rx := lanes o.rx, tx := lanes o.tx, tlTx := c.timeEn,
    rings := o.rings.map fun r => { r with locked := true, seeking := false } }

/-- The (l + 1)-th allowed lane counted from the third allowed lane upward and wrapping (R357 step 3). -/
def Chan.provisionalMap (c : Chan) : List MapEnt :=
  let pl := c.plan
  (List.range 32).map fun l => { phys := BitVec.ofNat 6 (lget 0 pl ((l + 2) % max 1 pl.length)) }

/-- One trial of the margin test measured; after the last, trial 16 again and frames on the provisional map (R357 steps 2, 3). -/
def Chan.mtTrial (c : Chan) (ms : List LaneMeas) : Chan :=
  match c.opt.mtRun with
  | some r =>
    if r.step ≠ 2 || c.us ≤ r.sinceUs + 20000 * (r.trial + 1) then c
    else
      let note (b : Cells (Nat × Nat)) (m : LaneMeas) : Cells (Nat × Nat) :=
        let v := (marginOf false m + 512).toNat
        match cget? b m.phys.toNat with
        | some (_, q) => if q < v then cput b m.phys.toNat (r.trial, v) else b
        | none => cput b m.phys.toNat (r.trial, v)
      let best := ms.foldl note r.best
      if r.trial < 32 then c.modOpt fun o => { o with
        mtRun := some { r with trial := r.trial + 1, best := best }, filt := c.trialFilters (r.trial + 1) }
      else
        let pm := c.provisionalMap
        c.modOpt fun o => { o with
          mtRun := some { r with step := 3, sinceUs := c.us, trial := 16, best := best }, filt := c.trialFilters 16
          txMap := (List.range 32).foldl (fun v l => vset v l (lget {} pm l)) o.txMap }
  | none => c

/-- Step 4 of the margin test begins: MT_RESULT and PRECOMP go to the transmitting end (R355, R357). -/
def Chan.mtExchange (c : Chan) (r : MtRun) : Chan :=
  let fitted := r.best.map fun e => (e.1, c.dispSeal + ((e.2.1 : Int) - 16) * c.trialStep)
  let c := c.modOpt fun o => { o with mtRun := some { r with step := 4, sinceUs := c.us, sent := true }, fitted := fitted }
  let ent (e : Nat × Nat × Nat) : List Byte :=
    [BitVec.ofNat 8 e.1, BitVec.ofNat 8 e.2.1, BitVec.ofInt 8 (max (-127) (min 127 (((e.2.2 : Int) - 512) / 2)))]
  (c.sendHlth 0x0A (beBytes 1 r.best.length ++ r.best.flatMap ent)).sendFit

/-- The margin test at an estimate: in frame or 50 ms past; the peer's PRECOMP or 20 ms + RTT past; 500 ms of margins; then 100 ms at OOK
where needed (R357 steps 3–7; log entry 167). -/
def Chan.mtEstimate (c : Chan) (ms : List LaneMeas) : Chan :=
  match c.opt.mtRun with
  | some r =>
    if r.step = 3 && (!c.line.oof || decide (r.sinceUs + 50000 < c.us)) then c.mtExchange r
    else if r.step = 4 && (r.peerFit || decide (r.sinceUs + 20000 + c.rttUs < c.us)) then
      c.modOpt fun o => { o with mtRun := some { r with step := 5, sinceUs := c.us } }
    else if r.step = 5 && decide (r.sinceUs + 500000 < c.us) then c.chooseSend [] false
    else if r.step = 6 && decide (r.sinceUs + 100000 < c.us) then
      c.chooseSend (ms.foldl (fun b m => cput b m.phys.toNat (marginOf true m)) []) true
    else c
  | none => c

/-! ### Margins -/

/-- One lane's estimate (R347, R348, R362): PAM4 or OOK as the lane runs. -/
def Chan.laneEstimate (c : Chan) (m : LaneMeas) : Chan :=
  let p := m.phys.toNat
  let l := vget c.opt.rx p
  let c := c.modTx p fun x => { x with pwr := m.txPwr.toInt }
  if decide (36 ≤ p) || (decide (l.st ≠ .mapped) && decide (l.st ≠ .shadow)) then c
  else
    let mg := marginOf l.ook m
    let low := if decide (l.st = .mapped) && decide (mg < c.spareTh) then min 4 (l.low + 1) else 0
    let c := c.modRx p fun x => { x with margin := mg, known := true, pwr := m.rxPwr.toInt, low := low }
    c.sample (256 + p) mg

/-- The mapped lanes that have just been below SPARE_TH a third time start a spare-in (R362); their count then stands above three. -/
def Chan.startSpares (c : Chan) : Chan :=
  (List.range 36).foldl (fun c p =>
    let l := vget c.opt.rx p
    let busy := match logicalOf c.opt.rxMap p with
      | some k => c.opt.rxOps.any fun o => !o.burst && decide (o.req.lane.toNat = k)
      | none => true
    if decide (l.low = 3) && !busy && decide (c.line.state = .up) then (c.modRx p fun x => { x with low := 4 }).spareIn p false else c) c

/-- MARGIN_ESTIMATE: the token of trigger slot 4 (R348, R457). -/
def Chan.marginEstimate (c : Chan) (ms : List LaneMeas) : Chan :=
  if !c.due 4 then c
  else
    let c := ms.foldl Chan.laneEstimate (c.fire 4)
    let c := c.opt.rxOps.foldl (fun c o => c.opEstimate ms o) c
    if c.opt.mt = .running then c.mtEstimate ms else c.startSpares

/-! ### Calibration (R351–R355) -/

/-- Target code of a ring at an engine temperature in 0.1 °C: linear between the entries that bracket it, rounded down (R351). -/
def ringTarget (codes : List (BitVec 12)) (t : Int) : Nat :=
  let at_ (i : Nat) : Nat := (lget 0 codes i).toNat
  if t ≤ 200 then at_ 0
  else if 950 ≤ t then at_ 15
  else
    let d := (t - 200).toNat
    let i := d / 50
    (((at_ i : Int) * 50 + ((at_ (i + 1) : Int) - at_ i) * (d % 50)) / 50).toNat

/-- A calibration action armed on trigger slot 5, now (R353, R457). -/
def Chan.queueCal (c : Chan) (a : Nat) : Chan :=
  let c := c.modOpt fun o => { o with calQ := if o.calQ.contains a then o.calQ else o.calQ ++ [a] }
  if (vget c.time.slots 5).armed then c else c.arm 5 c.now

/-- ENGINE_TEMP_SAMPLE (R351, R353). -/
def Chan.engineTemp (c : Chan) (t : Int) : Chan :=
  let c := c.modOpt fun o => { o with
    temp := t
    rings := o.rings.map fun r => { r with target := ringTarget r.codes t }
    setPts := o.combTables.map fun x => ringTarget x t }
  if decide ((t - c.opt.recalTemp).natAbs ≥ 100) then (c.modOpt fun o => { o with recalTemp := t }).queueCal 1 else c

/-- R371: a request outside the plan or above +4.0 dBm is refused, counted and logged with its trigger slot. -/
def Chan.planBlock (c : Chan) (slot : Nat) (ch : Nat) : Chan :=
  ((c.count 0x900064).raise { ev := .optPlanBlock, plane := .management, value := slot }).viol
    { source := .trigger, ch := ch, kind := .outsidePlan, addr := slot }

/-- CALIBRATION_ACTION: trigger slot 5 fires (R353). `light`: an action of firmware's that would light a lane at a power in 0.1 dBm
(R371). -/
def Chan.calAction (c : Chan) (ch : Nat) (light : Option (BitVec 6 × BitVec 10)) : Chan :=
  if !c.due 5 then c
  else
    let c := c.fire 5
    match light with
    | some (p, w) =>
      if !c.allowed p.toNat || decide (40 < w.toInt) then c.planBlock 5 ch
      else if decide ((vget c.opt.tx p.toNat).st = .mapped) then c
      else c.modTx p.toNat fun l => { l with st := .shadow }
    | none =>
      match c.opt.calQ with
      | [] => c
      | a :: r =>
        let c := c.modOpt fun o => { o with calQ := r }
        let c := if r.isEmpty then c else c.arm 5 c.now
        let recentre (o : Opt) : Opt :=
          if 100 ≤ a then { o with rings := vset o.rings (a - 100) { (vget o.rings (a - 100)) with trim := 0 } }
          else { o with rings := o.rings.map fun x => { x with trim := 0 } }
        let c := ((c.modOpt recentre).count 0x900050).raise { ev := .optRecal, plane := .management, value := a }
        if a = 2 then (c.modOpt fun o => { o with fullRecalMs := c.ms }).queueBursts true else c

/-- One ring at a check (R344, R352): one that hears a neighbour's tone steps its heater away from that neighbour. -/
def Chan.ringCheck (c : Chan) (ob : RingObs) : Chan :=
  let k := ob.ring.toNat
  let r := vget c.opt.rings k
  if decide (76 ≤ k) || !r.locked then c
  else
    let put (x : Ring) (c : Chan) : Chan := c.modOpt fun o => { o with rings := vset o.rings k x }
    if ob.below || decide (ob.own < ob.prev) || decide (ob.own < ob.next) then
      let away : Int := if ob.own < ob.prev ∧ ob.next ≤ ob.prev then 1 else if ob.own < ob.next then -1 else 0
      ((put { r with locked := false, seeking := true, stepped := r.stepped + away } c).count 0x90004C).raise { ev := .optWrongLock, value := k, unit := k }
    else if 256 ≤ ob.trim.natAbs then put { r with locked := false, seeking := true, trim := 0 } c
    else
      let c := put { r with trim := ob.trim } c
      if 192 ≤ ob.trim.natAbs && r.trim.natAbs < 192 then c.queueCal (100 + k) else c

/-! ### The transmitting end -/

/-- An operation of the transmit direction whose rings are all locked begins to mirror with its filters loaded, and is acknowledged (R362
step 4). -/
def Chan.ackReady (c : Chan) (o : OptOp) : Chan :=
  let ready := (SpareReqLanes o.req).all fun p => (vget c.opt.rings p).locked
  if decide (o.stage = .requested) && ready then
    (c.modOpt fun x => { x with
      txOps := setOp x.txOps { o with stage := .mirroring }, answered := (o.req, 0) :: x.answered.filter fun a => a.1.op ≠ o.req.op,
      combReq := x.combReq && decide (o.req.kind ≠ 3)
      filt := (newOnly o).foldl (fun v p => vset v p (x.txD0 + x.txSlope * ((p : Int) - 18) / 100)) x.filt }).sendHlth 0x03 [o.req.op, 0]
  else c

/-- SPARE_REQ (R361–R364, R371): the STATUS that refuses it. -/
def Chan.spareStatus (c : Chan) (r : SpareReq) : Nat :=
  let lanes := SpareReqLanes r
  let old := entLanes (vget c.opt.txMap r.lane.toNat)
  let spareOps := c.opt.txOps.filter fun o => !o.burst
  let free (p : Nat) : Bool :=
    (decide ((vget c.opt.tx p).st = .spare) || old.contains p || c.opt.txOps.any fun o => o.burst && decide (o.req.phys.toNat = p))
      && !inOps spareOps p
  let other := vget c.opt.combs (if c.opt.combSel then 0 else 1)
  if lanes.any fun p => !c.allowed p then 1
  else if 32 ≤ r.lane.toNat || !lanes.all free || 4 ≤ spareOps.length then 2
  else if r.comb = 1 && decide (other.st ≠ .locked) then 3
  else 0

/-- SPARE_REQ at the transmitting end (R361, R362 step 4). -/
def Chan.spareReq (c : Chan) (ch : Nat) (r : SpareReq) : Chan :=
  match c.opt.answered.find? fun a => decide (a.1 = r) with
  | some (_, st) => c.sendHlth 0x03 [r.op, st]
  | none =>
    if c.opt.txOps.any fun o => decide (o.req = r) then c
    else
      let st := c.spareStatus r
      if st ≠ 0 then
        let c := if st = 1 then c.planBlock 10 ch else c
        (c.modOpt fun o => { o with answered := (r, BitVec.ofNat 8 st) :: o.answered.filter fun a => a.1.op ≠ r.op }).sendHlth 0x03
          [r.op, BitVec.ofNat 8 st]
      else
        let comb := if r.comb = 1 then !c.opt.combSel else c.opt.combSel
        let o : OptOp := { req := r, stage := .requested, startUs := c.us, old := vget c.opt.txMap r.lane.toNat }
        let keep := c.opt.txOps.filter fun x => !(x.burst && (SpareReqLanes r).contains x.req.phys.toNat) && x.req.op ≠ r.op
        let c := (c.modOpt fun x => { x with txOps := keep ++ [o] }).setTx (newOnly o) .shadow (r.pair ≠ 0xFF)
        let c := (newOnly o).foldl (fun c p => c.modTx p fun l => { l with comb := comb }) c
        c.ackReady o

/-- SPARE_ACK at the receiving end (R361, R363). -/
def Chan.spareAck (c : Chan) (n st : BitVec 8) : Chan :=
  match c.opt.rxOps.find? fun o => decide (o.req.op = n) && !o.burst && decide (o.stage = .requested) with
  | some o =>
    if st = 0 then c.modOpt fun x => { x with rxOps := setOp x.rxOps { o with stage := .syncing, ackUs := c.us } }
    else c.abortRx o 4 true
  | none => c

/-- SPARE_ACK_TIMEOUT: none within 50 ms + RTT (R363). -/
def Chan.ackTimeout (c : Chan) (n : BitVec 8) : Chan :=
  match c.opt.rxOps.find? fun o => decide (o.req.op = n) && !o.burst && decide (o.stage = .requested) with
  | some o => if o.startUs + 50000 + c.rttUs < c.us then c.abortRx o 1 true else c
  | none => c

/-- SPARE_SWITCH at the transmitting end: the change is armed at T (R362 step 9). An instant already past is a cold spare-in's
(R366). -/
def Chan.spareSwitch (c : Chan) (n : BitVec 8) (sec : BitVec 48) (ns : BitVec 32) : Chan :=
  match c.opt.txOps.find? (fun o => decide (o.req.op = n) && decide (o.stage = .mirroring)), instantOf sec ns with
  | some o, some t =>
    let cold := decide (t ≤ c.now)
    let r := c.peerInstant t
    let j := r.2.freeSlot 10
    (r.2.modOpt fun x => { x with txOps := setOp x.txOps { o with stage := .armed r.1, slot := j, cold := cold } }).arm j r.1
  | _, _ => c

/-- The old lanes of a change go dark: RETIRED, or SPARE after a comb move (R362 step 10, R367). -/
def Chan.endTx (c : Chan) (o : OptOp) : Chan :=
  let st : LaneSt := if o.req.kind = 3 then .spare else .retired
  let c := (c.setTx (oldOnly o) st false).modOpt fun x => { x with txOps := dropOp x.txOps o.req.op }
  if o.req.kind = 3 then (oldOnly o).foldl (fun c p => c.modTx p fun l => { l with comb := !c.opt.combSel }) c else c

/-- As `endTx`, at the receiving end: a retired lane is reported to the health monitor (R366). -/
def Chan.endRx (c : Chan) (o : OptOp) : Chan :=
  let move := decide (o.req.kind = 3)
  let c := (c.setRx (oldOnly o) (if move then .spare else .retired) false).modOpt fun x => { x with rxOps := dropOp x.rxOps o.req.op }
  let c := if move then c.retrySpares else (oldOnly o).foldl Chan.laneRetired c
  if move then
    if c.opt.moveQ.isEmpty && !c.opt.rxOps.any (fun x => decide (x.req.kind = 3)) then c.queueBursts false else c.nextMoves 4
  else c.nextBursts 4

/-- A take-over completes when every lit data lane is on the new comb: the time lanes move and the old comb goes off (R367). -/
def Chan.takeoverDone (c : Chan) : Chan :=
  let lit := (List.range 36).filter fun p => decide ((vget c.opt.tx p).st = .mapped)
  if c.opt.takeover && lit.all fun p => decide ((vget c.opt.tx p).comb ≠ c.opt.combSel) then
    let old := if c.opt.combSel then 1 else 0
    (c.modOpt fun o => { o with
      takeover := false, combReq := false, combSel := !o.combSel,
      combs := vset (vset o.combs old { (vget o.combs old) with st := .faded }) (1 - old) { (vget o.combs (1 - old)) with st := .serving }
      }).raise { ev := .optCombTakeover }
  else c

/-- The receive map of a change (R362 step 9), and SPARE_DONE (step 10). -/
def Chan.applyRx (c : Chan) (o : OptOp) (t : Instant) : Chan :=
  let e := reqEnt o.req
  let c := (c.modOpt fun x => { x with
    rxMap := vset x.rxMap o.req.lane.toNat e, rxOps := setOp x.rxOps { o with stage := .copying t } })
  let c := c.setRx (SpareReqLanes o.req) .mapped e.ook
  let c := (SpareReqLanes o.req ++ entLanes o.old).foldl (fun c p => c.modRx p fun l => { l with low := 0, tried := [] }) c
  let c := if o.req.kind = 3 then c.count 0x90005C
    else (c.count 0x900040).raise { ev := .optSpareIn, value := o.req.phys.toNat, unit := o.req.phys.toNat }
  let c := if o.req.kind = 2 then (c.count 0x900048).raise { ev := .optOok, unit := o.req.phys.toNat } else c
  if o.cold then c.endRx o else c.sendHlth 0x05 [o.req.op]

/-- The transmit map of a change (R362 step 9). -/
def Chan.applyTx (c : Chan) (o : OptOp) (t : Instant) : Chan :=
  let e := reqEnt o.req
  let c := (c.modOpt fun x => { x with
    txMap := vset x.txMap o.req.lane.toNat e, txOps := setOp x.txOps { o with stage := .copying t } })
  let c := c.setTx (SpareReqLanes o.req) .mapped e.ook
  if o.cold then c.endTx o else c

/-- Lane states under a whole map: the lanes left over become SPARE (R358). -/
def mapStates (plan : List Nat) (es : List MapEnt) (v : Vector OLane 36) : Vector OLane 36 :=
  plan.foldl (fun v p =>
    let e := es.find? fun e => (entLanes e).contains p
    vset v p { (vget v p) with st := if e.isSome then .mapped else .spare, ook := (e.map MapEnt.ook).getD false }) v

/-- The margin test is complete, and its maps are in force on both sides (R357, R525). -/
def Chan.mapsInForce (c : Chan) : Bool :=
  (decide (c.opt.mt = .passed) || decide (c.opt.mt = .marginal)) && c.opt.mtRun.isNone && c.opt.rxPend.isNone
    && c.opt.txPend.isNone && c.opt.tx.toList.any fun l => decide (l.st = .mapped)

/-- Start-up step 6 ends once the lane maps are in force, and step 7 begins (R525). -/
def Chan.step6Ends (c : Chan) : Chan :=
  if c.boot.phase = 5 ∧ c.mapsInForce then { c with boot := { c.boot with phase := 6, late := false, stepUs := c.us } } else c

/-- A superframe begins on the receive side: the changes whose instant has passed are applied to the frames received (R362 step 9). -/
def Chan.rxBoundary (c : Chan) : Chan :=
  let c := c.opt.rxOps.foldl (fun c o => match o.stage with | .due t => c.applyRx o t | _ => c) c
  match c.opt.rxPend with
  | some m =>
    if m.due then (c.modOpt fun o => { o with
      rxPend := none, mtRun := none, rxMap := (List.range 32).foldl (fun v l => vset v l (lget {} m.ents l)) o.rxMap,
      rx := mapStates c.plan m.ents o.rx }).step6Ends
    else c
  | none => c

/-- A superframe begins on the transmit side (R362 step 9). -/
def Chan.txBoundary (c : Chan) : Chan :=
  let c := c.opt.txOps.foldl (fun c o => match o.stage with | .due t => c.applyTx o t | _ => c) c
  match c.opt.txPend with
  | some m =>
    if m.due then (c.modOpt fun o => { o with
      txPend := none, txMap := (List.range 32).foldl (fun v l => vset v l (lget {} m.ents l)) o.txMap,
      tx := mapStates c.plan m.ents o.tx }).step6Ends
    else c
  | none => c

/-- An instant of slots 6–13 has come, and every lower slot of that instant has fired (R458, R460). -/
def Chan.mapDue (c : Chan) (t : Instant) : Bool := decide (t ≤ c.now) && c.turn 6 t

/-- Operations whose instant has come, from then on due at the next superframe boundary. -/
def dueOps (p : Instant → Bool) (ops : List OptOp) : List OptOp :=
  ops.map fun o => match o.stage with | .armed t => if p t then { o with stage := .due t } else o | _ => o

/-- Trigger slots of the operations whose instant has come. -/
def dueSlots (p : Instant → Bool) (ops : List OptOp) : List Nat :=
  ops.filterMap fun o => match o.stage with | .armed t => if p t then some o.slot else none | _ => none

/-- MAP_CHANGE_INSTANT: the triggers of the map changes whose instant has come fire, and each change takes effect at its end's next superframe
boundary (R357 step 7, R362 step 9, R458); on the receive side at once while no boundary can be seen. A map that names a lane outside the
plan is refused (R371). -/
def Chan.mapInstant (c : Chan) (ch : Nat) : Chan :=
  let p := c.mapDue
  let pend (m : Option MapArmed) : Bool := m.any fun m => p m.at_ && !m.due
  let rx := pend c.opt.rxPend
  let tx := pend c.opt.txPend
  let slots := dueSlots p c.opt.rxOps ++ dueSlots p c.opt.txOps ++ (if rx then [6] else []) ++ (if tx then [10] else [])
  let c := ((List.range 16).filter slots.contains).foldl (fun (c : Chan) j => c.fire j) c
  let c := c.modOpt fun o => { o with rxOps := dueOps p o.rxOps, txOps := dueOps p o.txOps }
  let c := match c.opt.rxPend with
    | some m => if rx then c.modOpt fun o => { o with rxPend := some { m with due := true } } else c
    | none => c
  let c := match c.opt.txPend with
    | some m =>
      if tx then
        if m.ents.any fun e => (entLanes e).any fun p => !c.allowed p then (c.modOpt fun o => { o with txPend := none }).planBlock 10 ch
        else c.modOpt fun o => { o with txPend := some { m with due := true } }
      else c
    | none => c
  if c.line.oof then c.rxBoundary else c

/-- SPARE_COPY_END: T + 2 × RTT has passed, and at the transmitting end SPARE_DONE has come (R362 step 10). -/
def Chan.copyEnd (c : Chan) : Chan :=
  let ovr (t : Instant) : Bool := decide (t + 2 * c.rttNs ≤ c.now)
  let c := c.opt.rxOps.foldl (fun c o => match o.stage with | .copying t => if ovr t then c.endRx o else c | _ => c) c
  let c := c.opt.txOps.foldl (fun c o => match o.stage with | .copying t => if ovr t && o.doneIn then c.endTx o else c | _ => c) c
  c.takeoverDone

/-- A transmit operation ended before its switch: the new lanes go dark (R361, R364). -/
def Chan.abortTx (c : Chan) (o : OptOp) : Chan :=
  (c.setTx (newOnly o) o.was false).modOpt fun x => { x with txOps := dropOp x.txOps o.req.op }

/-- The instant of an operation has not come. -/
def beforeSwitch (o : OptOp) : Bool := match o.stage with | .copying _ => false | .due _ => false | _ => true

/-- SPARE_ABORT received (R361): the transmit operation of that number, or failing that the receive one. -/
def Chan.spareAbort (c : Chan) (n : BitVec 8) : Chan :=
  match c.opt.txOps.find? fun o => decide (o.req.op = n) && beforeSwitch o with
  | some o => c.abortTx o
  | none => match c.opt.rxOps.find? fun o => decide (o.req.op = n) && beforeSwitch o with
    | some o => c.abortRx o 4 false
    | none => c

/-- R365: when the line leaves UP, the changes whose instant has not passed are abandoned, and counted (R377); those past it take effect. -/
def Chan.optLineDown (c : Chan) : Chan :=
  let early (o : OptOp) : Bool := match o.stage with | .copying _ => false | .due _ => false | .armed t => decide (c.now < t) | _ => true
  let c := c.rxBoundary
  let c := c.opt.rxOps.foldl (fun c o =>
    if early o then
      let c := ((c.setRx (newOnly o) o.was false).modOpt fun x => { x with rxOps := dropOp x.rxOps o.req.op }).sendHlth 0x06 [o.req.op, 0x03]
      if o.burst ∨ o.req.kind = 3 then c else c.count 0x900044
    else c) c
  c.opt.txOps.foldl (fun c o => if early o then c.abortTx o else c) c

/-- BURST_REQ: the transmitting end lights a SPARE or RETIRED lane in SHADOW (R354). -/
def Chan.burstReq (c : Chan) (ch : Nat) (n phys : BitVec 8) : Chan :=
  let p := phys.toNat
  let st := (vget c.opt.tx p).st
  if c.opt.txOps.any fun o => decide (o.req.op = n) then c
  else if !c.allowed p then (c.planBlock 5 ch).sendHlth 0x06 [n, 0x04]
  else if (decide (st = .spare) || decide (st = .retired)) && decide (c.opt.txOps.length < 4) && !inOps c.opt.txOps p then
    let o : OptOp := { req := ⟨n, 0, 0, phys, 0xFF, 0⟩, burst := true, stage := .burst 0, startUs := c.us, old := { phys := 0x3F }, was := st }
    (c.modOpt fun x => { x with txOps := x.txOps ++ [o], filt := vset x.filt p (c.dispSeal - 16 * c.trialStep) }).setTx [p] .shadow false
  else c.sendHlth 0x06 [n, 0x04]

/-- BURST_TRIAL_STEP at the transmitting end: the next TRIAL every 20 ms (R354). -/
def Chan.burstTx (c : Chan) (n : BitVec 8) : Chan :=
  match c.opt.txOps.find? fun o => decide (o.req.op = n) && o.burst with
  | some o =>
    match o.stage with
    | .burst k =>
      if c.us ≤ o.startUs + 20000 * (k + 1) then c
      else if k < 32 then c.modOpt fun x => { x with
        txOps := setOp x.txOps { o with stage := .burst (k + 1) }, filt := vset x.filt o.req.phys.toNat (c.dispSeal + ((k : Int) - 15) * c.trialStep) }
      else c.abortTx o
    | _ => c
  | none => c

/-- BURST_TRIAL_STEP at the receiving end: the trial measured; after the last, MT_RESULT, the lane's state, and the refit when no burst
is left (R354, R355). -/
def Chan.burstRx (c : Chan) (n : BitVec 8) (m : LaneMeas) : Chan :=
  match c.opt.rxOps.find? fun o => decide (o.req.op = n) && o.burst with
  | some o =>
    let k := match o.stage with | .burst k => k | _ => 0
    let start := if o.stage = .requested then c.us else o.startUs
    if decide (o.stage ≠ .requested) && decide (c.us ≤ start + 20000 * k) then c
    else
      let mg := marginOf false m
      let best := match o.best with | some b => if b.2 < mg then (k, mg) else b | none => (k, mg)
      if k < 32 then
        c.modOpt fun x => { x with rxOps := setOp x.rxOps { o with stage := .burst (k + 1), startUs := start, best := some best } }
      else
        let p := o.req.phys.toNat
        let ok := decide (c.mtPass ≤ best.2)
        let c := (c.setRx [p] (if ok then .spare else .retired) false).modRx p fun l => { l with margin := best.2, known := true }
        let c := c.modOpt fun x => { x with
          rxOps := dropOp x.rxOps n, fitted := cput x.fitted p (c.dispSeal + ((best.1 : Int) - 16) * c.trialStep) }
        let c := (c.count 0x900054).sendHlth 0x0A
          [1, o.req.phys, BitVec.ofNat 8 best.1, BitVec.ofInt 8 (max (-127) (min 127 (best.2 / 2)))]
        let c := (if ok then c.retrySpares else c).nextBursts 4
        if c.opt.refit && c.opt.burstQ.isEmpty && !c.opt.rxOps.any OptOp.burst then c.sendFit else c
  | none => c

/-- MT_RESULT at the transmitting end (R354, R357): the lane's margin at its best trial, and its state after a burst. -/
def Chan.mtResult (c : Chan) (es : List (BitVec 8 × BitVec 8 × BitVec 8)) : Chan :=
  es.foldl (fun c e =>
    let p := e.1.toNat
    let mg := e.2.2.toInt
    let c := c.modTx p fun l => { l with peer := some mg }
    match c.opt.txOps.find? fun o => o.burst && decide (o.req.phys = e.1) with
    | some o =>
      (c.setTx [p] (if c.mtPass ≤ mg * 2 then .spare else .retired) false).modOpt fun x => { x with txOps := dropOp x.txOps o.req.op }
    | none => c) c

/-- PRECOMP: the transmit filters' new targets; in the margin test they are applied to every lane at once (R355, R357 step 4). -/
def Chan.precomp (c : Chan) (d0 slope : BitVec 16) : Chan :=
  let c := c.modOpt fun o => { o with txD0 := d0.toInt, txSlope := slope.toInt }
  if c.opt.mt = .running then
    c.modOpt fun o => { o with
      mtRun := o.mtRun.map fun r => { r with peerFit := true },
      filt := (List.range 36).foldl (fun v p => vset v p (d0.toInt + slope.toInt * ((p : Int) - 18) / 100)) o.filt }
  else c

/-- At a superframe boundary one lit lane's filter moves toward its target, by at most one trial step (R355). -/
def Chan.filterStep (c : Chan) : Chan :=
  let target (p : Nat) : Int := c.opt.txD0 + c.opt.txSlope * ((p : Int) - 18) / 100
  match (List.range 36).find? fun p => decide ((vget c.opt.tx p).st = .mapped) && decide (vget c.opt.filt p ≠ target p) with
  | some p =>
    let d := max (-c.trialStep) (min c.trialStep (target p - vget c.opt.filt p))
    c.modOpt fun o => { o with filt := vset o.filt p (vget o.filt p + d) }
  | none => c

/-- MAP received: the transmit map and its instant (R357 step 7, R360). -/
def Chan.mapIn (c : Chan) (sec : BitVec 48) (ns : BitVec 32) (es : List MapEnt) : Chan :=
  match instantOf sec ns with
  | some t =>
    let r := c.peerInstant t
    (r.2.modOpt fun o => { o with txPend := some { at_ := r.1, ents := es } }).arm 10 r.1
  | none => c

/-- MARGIN received: 36 margins, 0x80 = not measured (R361). -/
def Chan.marginIn (c : Chan) (ms : List Byte) : Chan :=
  ms.zipIdx.foldl (fun (c : Chan) (m : Byte × Nat) => c.modTx m.2 fun l => { l with peer := if m.1 = (0x80 : Byte) then none else some (BitVec.toInt m.1) }) c

/-- MARGIN_REPORT_SEND: every 1 s (R361). -/
def Chan.marginSend (c : Chan) : Chan :=
  if c.ms < c.opt.marginMs + 1000 then c
  else
    let one (p : Nat) : Byte :=
      let l := vget c.opt.rx p
      if l.known then BitVec.ofInt 8 (max (-127) (min 127 (l.margin / 2))) else 0x80
    (c.modOpt fun o => { o with marginMs := c.ms }).sendHlth 0x07 ((List.range 36).map one)

/-- HLTH_REQUEST_REPEAT: requests not yet answered go out again every 5 ms (R361). -/
def Chan.hlthRepeat (c : Chan) : Chan :=
  let c := c.opt.rxOps.foldl (fun c o =>
    if decide (o.stage = .requested) && decide (o.sentUs + 5000 < c.us) then
      (c.modOpt fun x => { x with rxOps := setOp x.rxOps { o with sentUs := c.us } }).sendHlth (OptOpBody o).1 (OptOpBody o).2
    else c) c
  if c.opt.combReq && decide (c.opt.combReqUs + 5000 < c.us) then
    (c.modOpt fun x => { x with combReqUs := c.us }).sendHlth 0x08 [1]
  else c

/-- COMB_REQ at the receiving end: its logical lanes move, in ascending order (R367). A repeat changes nothing. -/
def Chan.combReqIn (c : Chan) : Chan :=
  if !c.opt.moveQ.isEmpty || c.opt.rxOps.any (fun o => decide (o.req.kind = 3)) then c
  else (c.modOpt fun o => { o with moveQ := List.range 32 }).nextMoves 4

/-- COMB_TAKEOVER_START: the serving comb's mean power has fallen by COMB_FLOOR, or its bias or cooler is at its limit (R367, R368).
Powers in 0.1 dBm. -/
def Chan.takeoverStart (c : Chan) (mean : BitVec 10) (atLimit : Bool) : Chan :=
  let k := if c.opt.combSel then 1 else 0
  let comb := vget c.opt.combs k
  let c := c.modOpt fun o => { o with combs := vset o.combs k { comb with mean := mean.toInt } }
  if c.opt.takeover || !(atLimit || decide ((fld (c.reg 0x900004) 15 8 : Int) ≤ comb.ref - mean.toInt)) then c
  else
    let c := c.raise { ev := .optCombFade }
    let other := vget c.opt.combs (1 - k)
    let anySpare := (List.range 36).any fun p => decide ((vget c.opt.tx p).st = .spare)
    if anySpare && decide (other.st = .off) then
      c.modOpt fun o => { o with takeover := true, combs := vset o.combs (1 - k) { other with st := .warming } }
    else c

/-- COMB_WARM_LOCKED: the other comb locks, and COMB_REQ is sent, or it fails (R367, R368). -/
def Chan.warmLocked (c : Chan) (ok : Bool) : Chan :=
  let k := if c.opt.combSel then 0 else 1
  let other := vget c.opt.combs k
  if other.st ≠ .warming then c
  else if ok then
    (c.modOpt fun o => { o with combs := vset o.combs k { other with st := .locked }, combReq := true, combReqUs := c.us }).sendHlth 0x08 [1]
  else
    (c.modOpt fun o => { o with combs := vset o.combs k { other with st := .failed }, takeover := false }).raise { ev := .optCombFail }

/-- COLD_COMB_SWITCH: every lit lane below SPARE_TH with the other comb locked, or the serving comb has died (R368). -/
def Chan.coldComb (c : Chan) (died : Bool) : Chan :=
  let k := if c.opt.combSel then 1 else 0
  let other := vget c.opt.combs (1 - k)
  let lit : List Nat := (List.range 36).filter fun p => decide ((vget c.opt.tx p).st = .mapped)
  let weak := lit.all fun p => match (vget c.opt.tx p).peer with | some m => decide (m * 2 < c.spareTh) | none => false
  let usable := decide (other.st = .locked) || (died && (decide (other.st = .off) || decide (other.st = .warming)))
  if usable && (died || weak) then
    c.modOpt fun o => { o with
      combSel := !o.combSel, takeover := false, combReq := false,
      combs := vset (vset o.combs k { (vget o.combs k) with st := if died then .failed else .faded }) (1 - k) { other with st := .serving },
      tx := o.tx.map fun l => { l with comb := !o.combSel } }
  else c

/-- The optics are dark: combs and drivers off (R369, R370). -/
def Chan.optDark (c : Chan) : Chan :=
  c.modOpt fun o => { o with
    laserOn := false, tlTx := false, takeover := false, combReq := false,
    combs := o.combs.map fun k => if k.st = .serving || k.st = .locked || k.st = .warming then { k with st := .off } else k }

/-- The serving comb relit from the kept tuning and lane map (R370). -/
def Chan.optRelight (c : Chan) : Chan :=
  if c.opt.safeTrip then c
  else
    let k := if c.opt.combSel then 1 else 0
    c.modOpt fun o => { o with
      laserOn := true, tlTx := c.timeEn, combs := vset o.combs k { (vget o.combs k) with st := .serving } }

/-- Step 5 of start-up ends: combs and rings locked from the tuning tables, time lanes lit, and step 6 begins (R357, R525). -/
def Chan.lightUp (c : Chan) : Chan :=
  let c := c.optRelight.startMt
  { c with boot := { c.boot with phase := 5, late := false, stepUs := c.us } }

/-- LASER_EN_N changes level in one channel (R370); a channel that waits at step 5 goes on (R612). A channel in reset is dark already. -/
def Chan.laserLevel (c : Chan) (high : Bool) : Chan :=
  if c.boot.phase = 0 then c
  else if high then c.optDark.raise { ev := .optLaserDisabled }
  else if c.boot.phase = 4 then c.lightUp
  else if c.live && decide (5 ≤ c.boot.phase) then c.optRelight else c

/-! ### Meanings -/

def execMarginEstimate (ch : Fin 8) (ms : List LaneMeas) (s : State) : Out := done (onLive ch (fun c => c.marginEstimate ms) s)

def execWrongLockCheck (ch : Fin 8) (obs : List RingObs) (s : State) : Out :=
  done (onLive ch (fun c => obs.foldl Chan.ringCheck c) s)

def execEngineTempSample (ch : Fin 8) (t : Int) (s : State) : Out := done (onLive ch (fun c => c.engineTemp t) s)

/-- RECAL_TIMER: RECAL_H hours since the last full recalibration (R353). -/
def execRecalTimer (ch : Fin 8) (s : State) : Out :=
  done (onLive ch (fun c =>
    if c.opt.fullRecalMs + fld (c.reg 0x900004) 7 3 * 3600000 ≤ c.ms then c.queueCal 2 else c) s)

def execCalibrationAction (ch : Fin 8) (light : Option (BitVec 6 × BitVec 10)) (s : State) : Out :=
  done (onLive ch (fun c => c.calAction ch.val light) s)

def execBurstReq (ch : Fin 8) (h : SealHdr) (n phys : BitVec 8) (s : State) : Out :=
  done (onLive ch (fun c => c.onSealed 4 0x09 h fun c => c.burstReq ch.val n phys) s)

def execBurstTrialStep (ch : Fin 8) (n : BitVec 8) (meas : Option LaneMeas) (s : State) : Out :=
  done (onLive ch (fun c => match meas with | some m => c.burstRx n m | none => c.burstTx n) s)

def execPrecomp (ch : Fin 8) (h : SealHdr) (d0 slope : BitVec 16) (s : State) : Out :=
  done (onLive ch (fun c => c.onSealed 4 0x0B h fun c => c.precomp d0 slope) s)

def execMarginTestTrialStep (ch : Fin 8) (ms : List LaneMeas) (s : State) : Out := done (onLive ch (fun c => c.mtTrial ms) s)

def execMtResult (ch : Fin 8) (h : SealHdr) (es : List (BitVec 8 × BitVec 8 × BitVec 8)) (s : State) : Out :=
  done (onLive ch (fun c => c.onSealed 4 0x0A h fun c => c.mtResult es) s)

def execMap (ch : Fin 8) (h : SealHdr) (sec : BitVec 48) (ns : BitVec 32) (es : List MapEnt) (s : State) : Out :=
  done (onLive ch (fun c => c.onSealed 4 0x0C h fun c => c.mapIn sec ns es) s)

/-- MARGIN_TEST_RETRY: 60 s after a failed test (R359). -/
def execMarginTestRetry (ch : Fin 8) (s : State) : Out :=
  done (onLive ch (fun c => if decide (c.opt.mt = .failed) && decide (c.opt.mtFailMs + 60000 < c.ms) then c.startMt else c) s)

def execSpareReq (ch : Fin 8) (h : SealHdr) (r : SpareReq) (s : State) : Out :=
  done (onLive ch (fun c => c.onSealed 4 0x02 h fun c => c.spareReq ch.val r) s)

def execSpareAck (ch : Fin 8) (h : SealHdr) (n st : BitVec 8) (s : State) : Out :=
  done (onLive ch (fun c => c.onSealed 4 0x03 h fun c => c.spareAck n st) s)

def execSpareSwitch (ch : Fin 8) (h : SealHdr) (n : BitVec 8) (sec : BitVec 48) (ns : BitVec 32) (s : State) : Out :=
  done (onLive ch (fun c => c.onSealed 4 0x04 h fun c => c.spareSwitch n sec ns) s)

def execSpareDone (ch : Fin 8) (h : SealHdr) (n : BitVec 8) (s : State) : Out :=
  done (onLive ch (fun c => c.onSealed 4 0x05 h fun c => c.modOpt fun o => { o with
    txOps := o.txOps.map fun x => if x.req.op = n then { x with doneIn := true } else x }) s)

def execSpareAbort (ch : Fin 8) (h : SealHdr) (n : BitVec 8) (s : State) : Out :=
  done (onLive ch (fun c => c.onSealed 4 0x06 h fun c => c.spareAbort n) s)

def execMargin (ch : Fin 8) (h : SealHdr) (ms : List Byte) (s : State) : Out :=
  done (onLive ch (fun c => c.onSealed 4 0x07 h fun c => c.marginIn ms) s)

def execMarginReportSend (ch : Fin 8) (s : State) : Out := done (onLive ch Chan.marginSend s)

def execCombReq (ch : Fin 8) (h : SealHdr) (s : State) : Out :=
  done (onLive ch (fun c => c.onSealed 4 0x08 h Chan.combReqIn) s)

def execHlthRequestRepeat (ch : Fin 8) (s : State) : Out := done (onLive ch Chan.hlthRepeat s)
def execSpareAckTimeout (ch : Fin 8) (n : BitVec 8) (s : State) : Out := done (onLive ch (fun c => c.ackTimeout n) s)
def execSpareCopyEnd (ch : Fin 8) (s : State) : Out := done (onLive ch Chan.copyEnd s)

/-- COLD_SPARE_IN: a mapped lane without light or SYNC for 100 ms while the receive direction is DOWN_LOF (R366). -/
def execColdSpareIn (ch : Fin 8) (l : Fin 32) (s : State) : Out :=
  done (onLive ch (fun c =>
    let lane := c.line.lanes[l]
    let lost := (lane.dark && decide (lane.darkUs + 100000 < c.us)) || (decide (lane.align ≠ .sync) && decide (lane.outUs + 100000 < c.us))
    let busy := c.opt.rxOps.any fun o => !o.burst && decide (o.req.lane.toNat = l.val)
    if lost && !busy && decide (c.line.state = .downLof) then c.spareIn (vget c.opt.rxMap l.val).phys.toNat true else c) s)

def execCombTakeoverStart (ch : Fin 8) (mean : BitVec 10) (atLimit : Bool) (s : State) : Out :=
  done (onLive ch (fun c => c.takeoverStart mean atLimit) s)

def execCombWarmLocked (ch : Fin 8) (ok : Bool) (s : State) : Out := done (onLive ch (fun c => c.warmLocked ok) s)
def execColdCombSwitch (ch : Fin 8) (died : Bool) (s : State) : Out := done (onLive ch (fun c => c.coldComb died) s)

/-- SAFETY_TRIP: comb and drivers are cut until the next recovery (R369). -/
def execSafetyTrip (ch : Fin 8) (s : State) : Out :=
  done (onLive ch (fun c => ((c.optDark.modOpt fun o => { o with safeTrip := true }).count 0x900060).raise { ev := .optSafetyTrip }) s)

/-- LASER_EN_N_CHANGE: the pin's new level, true = high, in every channel (R370, R612). -/
def execLaserEnNChange (high : Bool) (s : State) : Out :=
  let s := s.modHub fun h => { h with pwr := { h.pwr with laserEnN := high } }
  done ((List.finRange 8).foldl (fun s ch => onChan ch (fun c => c.laserLevel high) s) s)

/-- RING_LOCKED: a ring locks on its grid position; operations that waited for it are acknowledged (R345, R362 step 4). -/
def execRingLocked (ch : Fin 8) (k : Fin 76) (s : State) : Out :=
  done (onLive ch (fun c =>
    let c := c.modOpt fun o => { o with rings := o.rings.set k { o.rings[k] with locked := true, seeking := false, stepped := 0 } }
    c.opt.txOps.foldl Chan.ackReady c) s)

end Sys2Proof.Machine
end

