-- ==== Sys2Proof/Machine/Keys.lean ====
section
/-! DEFINITION. Key agreement, rekeys, rollover, and the stops of the cipher (Line Encryption and Keys, R378–R402). The resume of R404
stands in Machine/Resume.lean. -/

namespace Sys2Proof.Machine

open Sys2Proof

/-- The channel with its security domain changed. -/
def Chan.modSec (c : Chan) (f : Sec → Sec) : Chan := { c with sec := f c.sec }

/-- The certificates of a HELLO in their order (R383). -/
def helloCerts (b : HelloBody) : List Cert := [b.device, b.inter] ++ b.owner.toList

/-- The certificate field: each certificate with its 2-byte length (R383). -/
def certField (l : List Cert) : List Byte := l.flatMap fun x => beBytes 2 x.der.length ++ x.der

/-- The prime, the coefficient b and the test y² = x³ − 3x + b of the SM2 curve of GB/T 32918.5 (R384; log entry 21). -/
def sm2P : Nat := 0xFFFFFFFEFFFFFFFFFFFFFFFFFFFFFFFFFFFFFFFF00000000FFFFFFFFFFFFFFFF
def sm2B : Nat := 0x28E9FA9E9D9F5E344D5A9E4BCF6509A7F39789F515AB8F92DDBCBD414D940E93
def onCurve (pt : BitVec 512) : Bool :=
  let x := pt.toNat / 2 ^ 256
  let y := pt.toNat % 2 ^ 256
  decide (x < sm2P) && decide (y < sm2P) && decide (y * y % sm2P = (x * x * x + (sm2P - 3) * x + sm2B) % sm2P)

/-- Bytes of a KA_HELLO body as transcribed into TH (R380, R383); S_B only in KA_HELLO_B. -/
def helloBytes (b : HelloBody) (isB : Bool) : List Byte :=
  [b.ver, b.suite, b.site, b.rsvd] ++ beBytes 64 b.point.toNat
    ++ beBytes 2 (certField (helloCerts b)).length ++ certField (helloCerts b) ++ (if isB then beBytes 32 b.conf.toNat else [])

/-- Own HELLO body for an ephemeral point (R383). -/
def Chan.ownHello (c : Chan) (point : BitVec 512) (conf : Option (BitVec 256)) : List Byte :=
  [1, if c.suite then 1 else 0, c.cfg.site, 0] ++ beBytes 64 point.toNat ++ beBytes 2 c.cfg.certs.length ++ c.cfg.certs
    ++ (match conf with | some s => beBytes 32 s.toNat | none => [])

/-- A message of the KEY tributary sent now and, when it is to be repeated, every 5 ms (R387). `seal`: under the handshake key
(some true), under the current epoch's key (some false), or clear (none). -/
def Chan.sendKey (c : Chan) (type : Nat) (body : List Byte) (handshake : Option Bool) : Chan :=
  match handshake, c.sec.hs, c.sec.cur with
  | none, _, _ => c.sendClear 2 type body
  | some true, some (k, _), _ => c.sealUnder 2 type body (1, 0, k)
  | some false, _, some e => c.sealUnder 2 type body (0, e.num.toNat, e.secret)
  | _, _, _ => c

/-- How a message of the KEY tributary is sealed, by its TYPE (R383). -/
def kaSeal (type : Nat) : Option Bool :=
  if type = 3 || type = 4 then some true else if type = 1 || type = 2 || type = 0x3F then none else some false

/-- The messages held for want of a key are sent (R386). -/
def Chan.flushHeld (c : Chan) : Chan :=
  let h := c.sec.held
  h.foldl (fun c m => c.sendSealed m.1 m.2.1 m.2.2) (c.modSec fun s => { s with held := [] })

/-- The MSEQ counters of a new key start at 0 in both directions (R385). -/
def freshMseq (s : Sec) (ksel kepoch : Nat) : Sec :=
  let drop (m : Cells Nat) : Cells Nat := [1, 2, 3, 4].foldl (fun m t => cdel m (mseqKey ksel kepoch t)) m
  { s with mseqTx := drop s.mseqTx, mseqRx := drop s.mseqRx }

/-- R384: the first failing check of a HELLO, in the order of *Key agreement failures*. -/
def Chan.helloFail (c : Chan) (b : HelloBody) (conf : Option Bool) : Option Nat :=
  if b.ver ≠ 1 || b.suite ≠ (if c.suite then 1 else 0) || b.rsvd ≠ 0 then some 1
  else if b.site ≠ c.cfg.peerSite then some 2
  else if !(b.device.sigOk && b.inter.sigOk && decide (b.device.root = c.cfg.yupRoot) && decide (b.inter.root = c.cfg.yupRoot)) then some 3
  else if bitOf (c.reg 0xA00004) 30 && !(b.owner.any fun x => x.sigOk && decide (x.root = c.cfg.ownerRoot)) then some 4
  else if (helloCerts b).any fun x => c.cfg.deny.contains x.serial then some 5
  else if decide (c.time.unit.state = .locked) && (helloCerts b).any fun x => decide (c.now < x.notBefore) || decide (x.notAfter < c.now)
  then some 6
  else if b.owner.any fun x => decide (x.key ≠ b.device.key) then some 7
  else if !(onCurve b.point) then some 8
  else if conf = some false then some 9
  else none

/-- An agreement or rekey is dropped: nothing repeats and nothing is armed. -/
def Chan.dropKa (c : Chan) : Chan :=
  (c.modSec fun s => { s with
    repeating := none, answer := none, startedUs := none, rekey := none, next := none, resumeUs := none, hs := none,
    phase := .failed }).disarm 0

/-- A may start again 1 s after an abort, or 60 s after reasons 0x02–0x07 (R387). -/
def Chan.holdKa (c : Chan) (reason : Nat) : Chan :=
  let wait := if decide (2 ≤ reason) && decide (reason ≤ 7) then 60000000 else 1000000
  c.modSec fun s => { s with holdUs := some (c.us + wait) }

/-- KA_ABORT sent with a reason, ending the full agreement or the resume (R384, R387, R404). -/
def Chan.kaAbort (c : Chan) (reason : Nat) : Chan :=
  let c := (c.sendKey 0x3F [BitVec.ofNat 8 reason] none).count 0xA00094
  let ev : Ev := if reason = 2 then .secSiteMismatch else .secKaFail
  (c.dropKa.holdKa reason).raise { ev := ev, plane := .control, value := reason }

/-- A rekey is abandoned: counted, and after three in a row a full agreement follows (R388, R389). -/
def Chan.rekeyFailed (c : Chan) : Chan :=
  let n := c.sec.rekeyFails + 1
  let c := ((c.count 0xA00090).raise { ev := .secRekeyFail, plane := .control }).disarm 0
  c.modSec fun s => { s with
    rekey := none, next := none, repeating := none, answer := none, rekeyFails := n,
    phase := if n ≥ 3 then .failed else .service }

/-- A's KA_HELLO_A with a fresh point (R387 step 1). -/
def Chan.sendHelloA (c : Chan) (v : Nat) : Chan :=
  let pt := Config.freeBits v 512
  let body := c.ownHello pt none
  let c := c.modSec fun s => { s with
    phase := .hello, ownPoint := pt, helloA := body, helloB := [], hs := none, rekey := none, next := none,
    startedUs := some c.us, holdUs := none, repeating := some (1, body), repeatUs := c.us, rekeyFails := 0 }
  (c.disarm 0).sendKey 1 body none

/-- Certificates accepted without a validity check are counted (R384). -/
def Chan.countNoTime (c : Chan) (b : HelloBody) : Chan :=
  if c.time.unit.state = .locked then c else c.count 0xA000AC (helloCerts b).length

/-- KA_HELLO_A at B (R384, R387 step 2). -/
def Chan.helloA (c : Chan) (b : HelloBody) (v : Nat) : Chan :=
  let c := c.takeTrib 2 1
  let bytes := helloBytes b false
  if c.isA then c
  else if c.sec.helloA = bytes && c.sec.answer.isSome && decide (c.sec.phase = .handshake) then
    match c.sec.answer with
    | some (t, body) => if t = 2 then c.sendKey 2 body none else c
    | none => c
  else match c.helloFail b none with
    | some r => c.kaAbort r
    | none =>
      let pt := Config.freeBits v 512
      let body := c.ownHello pt (some (Config.sm2Conf b.point pt false))
      let c := c.countNoTime b
      let c := c.modSec fun s => freshMseq { s with
        phase := .handshake, ownPoint := pt, helloA := bytes, helloB := body, peerCert := Config.sm3 b.device.der, rekey := none, next := none,
        hs := some (Config.sm2Key b.point pt, Config.sm3 (bytes ++ body)), startedUs := some c.us, answer := some (2, body),
        resumeUs := none, rekeyFails := 0 } 1 0
      (c.sendKey 2 body none).flushHeld

/-- KA_HELLO_B at A (R387 step 3). T0 is max(2 × RTT, 10 ms) ahead. -/
def Chan.helloB (c : Chan) (b : HelloBody) : Chan :=
  let c := c.takeTrib 2 2
  if !c.isA || decide (c.sec.phase ≠ .hello) then c
  else match c.helloFail b (some (decide (b.conf = Config.sm2Conf c.sec.ownPoint b.point false))) with
    | some r => c.kaAbort r
    | none =>
      let bytes := helloBytes b true
      let t0 := c.now + max (2 * c.rttNs) 10000000
      let body := beBytes 32 (Config.sm2Conf c.sec.ownPoint b.point true).toNat ++ stampBytes t0
      let c := c.countNoTime b
      let c := c.modSec fun s => freshMseq { s with
        phase := .handshake, helloB := bytes, peerCert := Config.sm3 b.device.der, t0 := t0, repeating := some (3, body), repeatUs := c.us,
        hs := some (Config.sm2Key s.ownPoint b.point, Config.sm3 (s.helloA ++ bytes)) } 1 0
      (c.sendKey 3 body (some true)).flushHeld

/-- ES_0 of the handshake secret and transcript hash (R380). -/
def firstSecret (hs : BitVec 256 × BitVec 256) : BitVec 256 :=
  Config.kdf (beBytes 32 hs.1.toNat ++ ascii "SZ8-E" ++ beBytes 1 0 ++ beBytes 32 hs.2.toNat) 256

/-- Number of the first epoch of a full agreement: 0x00, or the current epoch plus 1 (R388). -/
def firstNum (s : Sec) : BitVec 8 := match s.cur with | some e => e.num + 1 | none => 0

/-- The full agreement's epoch armed at T0 on trigger slot 0 (R387). -/
def Chan.armFirst (c : Chan) (t : Instant) : Chan :=
  match c.sec.hs with
  | some h => (c.modSec fun s => { s with next := some ⟨firstNum s, firstSecret h, t⟩ }).arm 0 t
  | none => c

/-- KA_FINISH at B (R387 step 4); a repeat gets the same answer. -/
def Chan.finish (c : Chan) (sA : BitVec 256) (sec : BitVec 48) (ns : BitVec 32) : Chan :=
  if c.isA || decide (c.sec.phase ≠ .handshake) then c
  else match c.sec.answer with
    | some (4, body) => c.sendKey 4 body (some true)
    | _ =>
      let rA := BitVec.ofNat 512 (beAt c.sec.helloA 4 64)
      if sA ≠ Config.sm2Conf rA c.sec.ownPoint true then c.kaAbort 9
      else match instantOf sec ns with
        | none => c
        | some t =>
          let r := c.peerInstant t
          let body := stampBytes t
          let c := (r.2.armFirst r.1).modSec fun s => { s with answer := some (4, body) }
          c.sendKey 4 body (some true)

/-- KA_START at A, which arms T0 (R387 step 4). -/
def Chan.kaStart (c : Chan) (sec : BitVec 48) (ns : BitVec 32) : Chan :=
  match c.sec.repeating with
  | some (3, _) =>
    if c.isA && decide (instantOf sec ns = some c.sec.t0) then
      (c.modSec fun s => { s with repeating := none }).armFirst c.sec.t0
    else c
  | _ => c

/-- ES_(e+1) of an epoch and a rekey secret (R380). -/
def nextSecret (e : Epoch) (k : BitVec 256) : BitVec 256 :=
  Config.kdf (beBytes 32 e.secret.toNat ++ beBytes 32 k.toNat ++ ascii "SZ8-E" ++ [e.num + 1]) 256

/-- KA_REKEY at B: answered KA_REKEY_B with a fresh point; a repeat gets the same answer (R389). -/
def Chan.kaRekey (c : Chan) (num : BitVec 8) (rA : BitVec 512) (sec : BitVec 48) (ns : BitVec 32) (v : Nat) : Chan :=
  match c.sec.cur, instantOf sec ns with
  | some e, some t =>
    if c.isA || decide (num ≠ e.num + 1) then c
    else if (match c.sec.rekey with | some r => decide (r.rA = rA) | none => false) then
      match c.sec.answer with
      | some (0x11, body) => c.sendKey 0x11 body (some false)
      | _ => c
    else
      let r := c.peerInstant t
      let rB := Config.freeBits v 512
      let body := [num] ++ beBytes 64 rB.toNat ++ beBytes 32 (Config.sm2Conf rA rB false).toNat
      let c := r.2.modSec fun s => { s with
        phase := .rekeying, rekey := some ⟨num, rA, rB, r.1, 2⟩, next := none, answer := some (0x11, body) }
      (c.disarm 0).sendKey 0x11 body (some false)
  | _, _ => c

/-- KA_REKEY_B at A: confirmed, answered KA_REKEY_FIN, and T armed (R389). -/
def Chan.kaRekeyB (c : Chan) (num : BitVec 8) (rB : BitVec 512) (sB : BitVec 256) : Chan :=
  match c.sec.cur, c.sec.rekey with
  | some e, some r =>
    if !c.isA || decide (r.stage ≠ 1) || decide (num ≠ r.num) then c
    else if sB ≠ Config.sm2Conf r.rA rB false then
      ((c.sendKey 0x3F [9] none).count 0xA00094 |>.raise { ev := .secKaFail, plane := .control, value := 9 }).rekeyFailed.holdKa 9
    else
      let body := [num] ++ beBytes 32 (Config.sm2Conf r.rA rB true).toNat
      let c := c.modSec fun s => { s with
        rekey := some { r with rB := rB, stage := 2 }, repeating := some (0x12, body), repeatUs := c.us,
        next := some ⟨num, nextSecret e (Config.sm2Key r.rA rB), r.at_⟩ }
      (c.sendKey 0x12 body (some false)).arm 0 r.at_
  | _, _ => c

/-- KA_REKEY_FIN at B: confirmed, and T armed (R389). -/
def Chan.kaRekeyFin (c : Chan) (num : BitVec 8) (sA : BitVec 256) : Chan :=
  match c.sec.cur, c.sec.rekey with
  | some e, some r =>
    if c.isA || decide (num ≠ r.num) || c.sec.next.isSome then c
    else if sA ≠ Config.sm2Conf r.rA r.rB true then
      ((c.sendKey 0x3F [9] none).count 0xA00094 |>.raise { ev := .secKaFail, plane := .control, value := 9 }).rekeyFailed
    else
      (c.modSec fun s => { s with next := some ⟨num, nextSecret e (Config.sm2Key r.rA r.rB), r.at_⟩ }).arm 0 r.at_
  | _, _ => c

/-- KA_ABORT received: the agreement, rekey or resume ends, and a new one is scheduled (R387, R389, R404). -/
def Chan.abortIn (c : Chan) (reason : Nat) : Chan :=
  let c := (c.takeTrib 2 0x3F).count 0xA00094
  if c.sec.rekey.isSome then c.rekeyFailed.holdKa reason
  else if c.sec.resumeUs.isSome then
    (c.dropKa.holdKa reason).raise { ev := .secResumeFail, plane := .control }
  else if decide (c.sec.phase = .service) then
    if reason = 0x0A then (c.modSec fun s => { s with phase := .failed }).holdKa reason else c
  else c.dropKa.holdKa reason

/-- Age of the current epoch in ms. -/
def Chan.epochAge (c : Chan) : Nat := c.ms - c.sec.actMs

/-- ROLL_MIN in ms and ROLL_LOG2 (R405). -/
def Chan.rollMs (c : Chan) : Nat := fld (c.reg 0xA00004) 29 22 * 60000
def Chan.rollLog (c : Chan) : Nat := fld (c.reg 0xA00004) 21 16

/-- The current epoch's age or bytes call for a rekey (R389). -/
def Chan.rekeyDue (c : Chan) : Bool :=
  let lim := 2 ^ c.rollLog - 2 ^ (c.rollLog - 4)
  decide (c.rollMs ≤ c.epochAge + 1000) || decide (lim ≤ c.sec.txBytes) || decide (lim ≤ c.sec.rxBytes)

/-- A's KA_REKEY with a fresh point, its instant 4 × RTT + 20 ms ahead (R389). -/
def Chan.sendRekey (c : Chan) (v : Nat) : Chan :=
  match c.sec.cur with
  | some e =>
    let rA := Config.freeBits v 512
    let t := c.now + 4 * c.rttNs + 20000000
    let body := [e.num + 1] ++ beBytes 64 rA.toNat ++ stampBytes t
    let c := c.modSec fun s => { s with
      phase := .rekeying, rekey := some { num := e.num + 1, rA := rA, at_ := t }, next := none,
      repeating := some (0x10, body), repeatUs := c.us }
    c.sendKey 0x10 body (some false)
  | none => c

/-- The receive direction is in frame (R387). -/
def Chan.inFrame (c : Chan) : Bool := decide (c.line.state = .rxUp) || decide (c.line.state = .up)

/-- REKEY_START: A starts a rekey when one is due and the last window has closed (R389); while the line is away it waits, and starts at
once when the line returns (R391; log entry 169). -/
def Chan.rekeyStart (c : Chan) (v : Nat) : Chan :=
  let free := match c.sec.holdUs with | some t => decide (t < c.us) | none => true
  if c.isA && decide (c.sec.phase = .service) && c.sec.saddle.isNone && free && c.inFrame && c.rekeyDue then c.sendRekey v else c

/-- IV_MGMT of an epoch secret for a direction (R380). -/
def Chan.ivMgmt (c : Chan) (x : BitVec 256) (sending : Bool) : BitVec 128 :=
  (Config.kdf (beBytes 32 x.toNat ++ ascii "MIV" ++ beBytes 1 (c.dir sending)) 128).setWidth 128

/-- What is kept of an epoch through its saddle window: its keys, and not its secret (R380, R381, R390). -/
def Chan.keysOf (c : Chan) (e : Epoch) : EpochKeys :=
  ⟨e.num, c.key e.secret "ENC" true, c.key e.secret "MAC" true, c.key e.secret "ENC" false, c.key e.secret "MAC" false,
    c.key e.secret "MGT" false⟩

/-- The window W = max(SADDLE_US, 2 × RTT) of a key change, in µs (R390). -/
def Chan.keyWindow (c : Chan) : Nat := max (fld (c.reg 0xA00004) 15 0) (2 * c.rttUs)

/-- The next epoch becomes the current one (R390, R387 step 5): counters restart, STOP clears, the window opens when there was an
epoch before, and the MGMT streams change (R397, R398). -/
def Chan.activate (c : Chan) (n : NextEpoch) : Chan :=
  let full := c.sec.hs.isSome
  let c := c.modSec fun s => freshMseq { s with
    prev := s.cur.map c.keysOf, cur := some ⟨n.num, n.secret⟩, hs := none, next := none, rekey := none, repeating := none, answer := none,
    startedUs := none, changeAt := n.at_, actMs := c.ms, txBytes := 0, rxBytes := 0, stop := false, rekeyFails := 0,
    saddle := if s.cur.isSome then some (c.us + c.keyWindow) else none,
    phase := if s.resumeUs.isSome then .resuming else .service,
    mgmtTx := c.ivMgmt n.secret true, mgmtRxPrev := s.mgmtRx, mgmtRx := c.ivMgmt n.secret false } 0 n.num.toNat
  let c := (c.fire 0).count 0xA0008C
  (c.raise { ev := .secRekey, plane := .control, value := n.num.toNat }).raiseIf full { ev := .secKaOk, plane := .control }

/-- KEY_ROLLOVER_INSTANT: at the instant, the confirmed epoch is activated; an exchange of A's that is not complete is abandoned
and started again at once (R389, R390). -/
def Chan.rollover (c : Chan) (v : Nat) : Chan :=
  match c.sec.next, c.sec.rekey with
  | some n, _ => if decide (n.at_ ≤ c.now) then c.activate n else c
  | none, some r =>
    if c.isA && decide (r.at_ ≤ c.now) then
      let c := ((c.sendKey 0x3F [0x0A] none).count 0xA00094).rekeyFailed
      if c.sec.phase = .service then c.sendRekey v else c.holdKa 0x0A
    else c
  | none, none => c

/-- KEY_SADDLE_CLOSE: the window closes and the previous epoch's keys are erased (R390, R398). -/
def Chan.saddleClose (c : Chan) : Chan :=
  match c.sec.saddle with
  | some t => if t < c.us then c.modSec fun s => { s with prev := none, saddle := none, mgmtRxPrev := 0 } else c
  | none => c

/-- The byte or time limit of the current epoch is reached (R391). -/
def Chan.overLimit (c : Chan) : Bool := decide (2 ^ c.rollLog ≤ c.sec.txBytes) || decide (c.rollMs + 60000 ≤ c.epochAge)

/-- ROLL_LIMIT_STOP: the byte or time limit of the epoch stops encryption (R391). -/
def Chan.limitStop (c : Chan) : Chan :=
  if c.sec.cur.isSome && !c.sec.stop && c.overLimit then
    ((c.modSec fun s => { s with stop := true }).count 0xA000A4).raise { ev := .secLimitStop, plane := .control }
  else c

/-- The cipher engine may encrypt a TU (R388, R391, R402, R404). -/
def Chan.mayEncrypt (c : Chan) : Bool :=
  c.sec.cur.isSome && !c.sec.stop && !c.overLimit && !c.sec.rngStop && c.sec.resumeUs.isNone

/-- KA_RESTART: A starts a full agreement once the delay has passed and it is in frame (R387). -/
def Chan.kaRestart (c : Chan) (v : Nat) : Chan :=
  let idle := decide (c.sec.phase = .none) || decide (c.sec.phase = .failed)
  let free := match c.sec.holdUs with | some t => decide (t < c.us) | none => true
  if c.isA && idle && free && c.inFrame then c.sendHelloA v else c

/-- KA_REPEAT: the message that waits for its answer goes out again after 5 ms (R387, R389, R404). A KA_RESUME names the epoch that
is current when it is sent. -/
def Chan.kaRepeat (c : Chan) : Chan :=
  match c.sec.repeating with
  | some (t, body) =>
    if decide (c.sec.repeatUs + 5000 < c.us) then
      let body := if t = 0x20 then (match c.sec.cur with | some e => [e.num] | none => []) ++ beBytes 6 c.line.tseq else body
      (c.modSec fun s => { s with repeatUs := c.us }).sendKey t body (kaSeal t)
    else c
  | none => c

/-- KA_TIMEOUT: no agreement 1 s after its start (R387). -/
def Chan.kaTimeout (c : Chan) : Chan :=
  match c.sec.startedUs with
  | some t => if t + 1000000 < c.us then c.kaAbort 0x0A else c
  | none => c

/-! ### Meanings -/

def execKaHelloA (ch : Fin 8) (b : HelloBody) (s : State) : Out := done (onLiveFree ch 1 (fun v c => c.helloA b v) s)
def execKaHelloB (ch : Fin 8) (b : HelloBody) (s : State) : Out := done (onLive ch (fun c => c.helloB b) s)

def execKaFinish (ch : Fin 8) (h : SealHdr) (sA : BitVec 256) (sec : BitVec 48) (ns : BitVec 32) (s : State) : Out :=
  done (onLive ch (fun c => c.onSealed 2 3 h fun c => c.finish sA sec ns) s)

def execKaStart (ch : Fin 8) (h : SealHdr) (sec : BitVec 48) (ns : BitVec 32) (s : State) : Out :=
  done (onLive ch (fun c => c.onSealed 2 4 h fun c => c.kaStart sec ns) s)

def execKaRekey (ch : Fin 8) (h : SealHdr) (num : BitVec 8) (rA : BitVec 512) (sec : BitVec 48) (ns : BitVec 32) (s : State) : Out :=
  done (onLiveFree ch 1 (fun v c => c.onSealed 2 0x10 h fun c => c.kaRekey num rA sec ns v) s)

def execKaRekeyB (ch : Fin 8) (h : SealHdr) (num : BitVec 8) (rB : BitVec 512) (sB : BitVec 256) (s : State) : Out :=
  done (onLive ch (fun c => c.onSealed 2 0x11 h fun c => c.kaRekeyB num rB sB) s)

def execKaRekeyFin (ch : Fin 8) (h : SealHdr) (num : BitVec 8) (sA : BitVec 256) (s : State) : Out :=
  done (onLive ch (fun c => c.onSealed 2 0x12 h fun c => c.kaRekeyFin num sA) s)

def execKaAbort (ch : Fin 8) (reason : BitVec 8) (s : State) : Out := done (onLive ch (fun c => c.abortIn reason.toNat) s)
def execKaRepeat (ch : Fin 8) (s : State) : Out := done (onLive ch Chan.kaRepeat s)
def execKaTimeout (ch : Fin 8) (s : State) : Out := done (onLive ch Chan.kaTimeout s)
def execKaRestart (ch : Fin 8) (s : State) : Out := done (onLiveFree ch 1 (fun v c => c.kaRestart v) s)
def execRekeyStart (ch : Fin 8) (s : State) : Out := done (onLiveFree ch 1 (fun v c => c.rekeyStart v) s)
def execKeySaddleClose (ch : Fin 8) (s : State) : Out := done (onChan ch Chan.saddleClose s)
def execRollLimitStop (ch : Fin 8) (s : State) : Out := done (onLive ch Chan.limitStop s)

/-- RNG_TEST_FAIL (R402): RNG_OK clears, and the second of R402 begins. -/
def execRngTestFail (ch : Fin 8) (s : State) : Out :=
  done (onLive ch (fun c =>
    ((c.modSec fun x => { x with rngOk := false, rngFailUs := some c.us }).count 0xA000A8).raise
      { ev := .secRngFail, plane := .control }) s)

/-- RNG_MASK_EXPIRE (R402): 1 s after the failure the channel encrypts no further TU. -/
def execRngMaskExpire (ch : Fin 8) (s : State) : Out :=
  done (onLive ch (fun c => match c.sec.rngFailUs with
    | some t => if t + 1000000 < c.us then c.modSec fun x => { x with rngStop := true } else c
    | none => c) s)

/-- RNG_TEST_PASS (R402). -/
def execRngTestPass (ch : Fin 8) (s : State) : Out :=
  done (onLive ch (fun c => c.modSec fun x => { x with rngOk := true, rngFailUs := none, rngStop := false }) s)

end Sys2Proof.Machine
end

