-- ==== Sys2Proof/Machine/LineCode.lean ====
section
/-! DEFINITION. The line's codes, bit for bit: lane blocks, scrambler, parity bytes, inner Hamming code, outer staircase code, lane units,
TU headers and elements, the cipher and tag of a TU (Line Frame, R293–R303, R311, R321–R323; Line Encryption, R392, R393, R397). -/

namespace Sys2Proof.Machine

open Sys2Proof

/-! ### Scrambler and parity bytes (R297, R311) -/

/-- Eight scrambler bits, and the state after them (R297). -/
def scramByte (s : Nat) : Nat × Nat :=
  (List.range 8).foldl (fun a _ =>
    let out := (a.2 / 1073741824 + a.2 / 134217728) % 2
    (a.1 * 2 + out, (a.2 * 2) % 2147483648 + out)) (0, s)

/-- Bytes XORed with the generator from a state on. -/
def scramFrom (s : Nat) : List Byte → List Byte
  | [] => []
  | b :: r => let x := scramByte s; (b ^^^ BitVec.ofNat 8 x.1) :: scramFrom x.2 r

/-- A lane block scrambled, or descrambled: bytes 8–1,023, the generator reset by the lane's number (R297). -/
def scramble (l : Nat) (blk : List Byte) : List Byte := blk.take 8 ++ scramFrom (0x40000000 + l) (blk.drop 8)

/-- XOR of bytes: BIP-8 (R311). -/
def bip (bs : List Byte) : Byte := bs.foldl (· ^^^ ·) 0

/-- Number of bits in which two bytes differ. -/
def bitDiff (a b : Byte) : Nat := popcount (a ^^^ b) 8

/-! ### Inner code (R300) -/

/-- The 128 bits, or 72, of an inner codeword: information bits, the 7 remainder bits modulo x⁷ + x³ + 1, the even parity bit. -/
def innerWord (info : List Bool) : List Bool :=
  let r := (info ++ List.replicate 7 false).foldl (fun r b => let x := r * 2 + b.toNat; if 128 ≤ x then x ^^^ 0x89 else x) 0
  let w := info ++ toBits 7 r
  w ++ [w.foldl xor false]

/-- The 8,704 information bits of a lane in 73 codewords. -/
def innerLane (bits : List Bool) : List Bool := (pieces 120 bits).flatMap innerWord

/-- Remainder of a received codeword without its parity bit: zero in a codeword. -/
def innerRem (bits : List Bool) : Nat := bits.foldl (fun r b => let x := r * 2 + b.toNat; if 128 ≤ x then x ^^^ 0x89 else x) 0

/-- A word is a codeword of the inner code. -/
def innerSound (w : List Bool) : Bool := decide (innerRem w.dropLast = 0) && !(w.foldl xor false)

/-- A word with one bit changed. -/
def flipAt (j : Nat) (w : List Bool) : List Bool := w.zipIdx.map fun x => if x.2 = j then !x.1 else x.1

/-- The first `n` of some bits, filled up with zeros. -/
def fitBits (n : Nat) (bs : List Bool) : List Bool := (bs ++ List.replicate (n - bs.length) false).take n

/-- The inner decoder (R300): a codeword as it is, a single-bit error corrected; what else it detects is decoded by a method of its own. The
information bits, and how many bits were corrected. -/
def innerDecode (w : List Bool) : List Bool × Nat :=
  let n := w.length - 8
  if innerSound w then (w.take n, 0)
  else match (List.range w.length).find? fun j => innerSound (flipAt j w) with
    | some j => ((flipAt j w).take n, 1)
    | none => let r := Config.innerSoft w; (fitBits n r.1, r.2)

/-- A lane's 73 received codewords decoded: its 8,704 bits, and the bits corrected. -/
def innerLaneDecode (raw : List Bool) : List Bool × Nat :=
  let ws := (pieces 128 (fitBits 9288 raw)).map innerDecode
  (ws.flatMap Prod.fst, (ws.map Prod.snd).foldl (· + ·) 0)

/-! ### Outer code (R301) -/

/-- Generator of the outer component code: m₁ · m₃ with m₁ = x¹⁶ + x¹² + x³ + x + 1 and m₃ the minimal polynomial of α³,
x¹⁶ + x¹² + x¹¹ + x⁹ + x⁸ + x⁴ + x³ + x² + 1. -/
def bchGen : Nat := 0x10AA725CF

/-- Remainder of x³² · m(x) modulo the generator. -/
def bchRem (bits : List Bool) : BitVec 32 :=
  BitVec.ofNat 32 ((bits ++ List.replicate 32 false).foldl (fun r b =>
    let x := r * 2 + b.toNat
    if 4294967296 ≤ x then x ^^^ bchGen else x) 0)

/-- Row `r` of a block: bytes 2r and 2r + 1 of every lane block, in lane order. -/
def blockRow (blk : List (List Byte)) (r : Nat) : List Bool :=
  blk.flatMap fun lane => bitsOfBytes ((lane.drop (2 * r)).take 2)

/-- Bits 0–479 of column `r` of a block. -/
def blockCol (blk : List (List Byte)) (r : Nat) : List Bool :=
  let lane := lget [] blk (r / 16)
  (List.range 480).map fun row => (lget 0 lane (2 * row + r % 16 / 8)).getLsbD (7 - r % 8)

/-- Parity row `r` of a block after the one before it (R301). -/
def parityRow (prev blk : List (List Byte)) (r : Nat) : BitVec 32 := bchRem (blockCol prev r ++ blockRow blk r)

/-- The parity matrix of a block, 512 rows. -/
def parityOf (prev blk : List (List Byte)) : List (BitVec 32) := (List.range 512).map (parityRow prev blk)

/-- The block of all zeros (R302). -/
def zeroBlock : List (List Byte) := List.replicate 32 (List.replicate 1024 0)

/-- Every component codeword of a block has syndrome zero (R303). -/
def staircaseOk (prev blk : List (List Byte)) (parity : List (BitVec 32)) : Bool := decide (parityOf prev blk = parity)

/-- A received frame as a block of the decoding window, and the bits corrected on each lane (R293, R300, R301). -/
def rxBlockOf (raw : List (List Bool)) : RxBlock × List Nat :=
  let ds := (List.range 32).map fun l => innerLaneDecode (lget [] raw l)
  ({ lanes := ds.map fun d => bytesOfBits (d.1.take 8192)
     parity := ds.flatMap fun d => (pieces 32 (d.1.drop 8192)).map fun w => BitVec.ofNat 32 (ofBits w) }, ds.map Prod.snd)

/-- The oldest block of the window as decoding leaves it (R302): as it is where every syndrome is zero. -/
def decodeOldest (prev : List (List Byte)) (b : RxBlock) (rest : List RxBlock) : RxBlock :=
  if staircaseOk prev b.lanes b.parity then b
  else
    let r := Config.staircase prev ((b :: rest).map fun x => (x.lanes, x.parity))
    { lanes := (List.range 32).map fun l => (lget [] r.1 l ++ List.replicate 1024 0).take 1024, parity := r.2 }

/-- The training field's symbols as bits, by the Gray map of R294. -/
def trainingBits : List Bool :=
  [3, 0, 3, 0, 2, 1, 2, 1, 0, 3, 1, 2, 0, 3, 3].flatMap fun lv => toBits 2 (lget 0 [0, 1, 3, 2] lv)

/-- Bits as PAM4 levels: 0b00 level 0, 0b01 level 1, 0b11 level 2, 0b10 level 3 (R294). -/
def pam4Levels : List Bool → List (BitVec 2)
  | a :: b :: r => (if a then (if b then 2 else 3) else if b then 1 else 0) :: pam4Levels r
  | _ => []

/-- The even-numbered bits of a lane unit, those of the first lane of an OOK pair, and the odd-numbered ones (R294). -/
def evenBits : List Bool → List Bool
  | a :: _ :: r => a :: evenBits r
  | l => l
def oddBits : List Bool → List Bool
  | _ :: b :: r => b :: oddBits r
  | _ => []

/-- The 48 FAS bits of an OOK pair from the halves on its first and second lane (R294, R304). -/
def joinFas (first second : BitVec 24) : BitVec 48 :=
  (List.range 24).foldl (fun (w : BitVec 48) k => putBit (putBit w (2 * k + 1) (bitOf first k)) (2 * k) (bitOf second k)) 0

/-- The lane unit of logical lane `l`: training field, inner codewords over the lane block and its 16 parity rows (R293). -/
def laneUnit (l : Nat) (blk : List Byte) (parity : List (BitVec 32)) : List Bool :=
  trainingBits ++ innerLane (bitsOfBytes blk ++ ((parity.drop (16 * l)).take 16).flatMap fun w => toBits 32 w.toNat)

/-! ### Overhead (R296, R299) -/

/-- The frame alignment pattern. -/
def fas : Nat := 0x53D4A71EC93B

/-- The test unit of physical lane `p` at a trial (R356): complemented FAS, lane, MFAS, TRIAL, then the generator of R297 on zero data, which
runs on through the parity positions. DESIGN CHOICE (log entry 163): the generator starts at byte 8 with the lane's number. -/
def testUnit (p : Nat) (mfas : Byte) (trial : Nat) : List Bool :=
  let gen := scramFrom (0x40000000 + p) (List.replicate 1080 0)
  trainingBits ++ innerLane (bitsOfBytes (beBytes 6 (0xFFFFFFFFFFFF - fas) ++ beBytes 1 p ++ [mfas] ++ beBytes 1 trial ++ gen.drop 1))

/-- A lane block before scrambling: FAS, LID, MFAS, SBIP, SBEI, overhead, payload (R296). -/
def laneBlock (l : Nat) (ook : Bool) (mfas sbip : Byte) (sbei : Nat) (coh payload : List Byte) : List Byte :=
  beBytes 6 fas ++ beBytes 1 (l * 8 + (if ook then 4 else 0)) ++ [mfas, sbip] ++ beBytes 1 (sbei * 16)
    ++ (coh.drop (6 * l)).take 6 ++ (payload.drop (1008 * l)).take 1008

/-- The channel overhead as fields (R299). -/
structure Coh where
  pbip   : Byte := 0
  pbei   : Nat := 0
  bdi    : Bool := false
  tuptr  : Nat := 0x7FFF
  txhi   : Nat := 0
  rack   : Nat := 0
  modes  : BitVec 32 := 0
  naks   : List Range := []
  gone   : Option Range := none
  rpoh   : List (BitVec 32) := [0, 0, 0, 0]
  /-- Slices of the five tributaries, CTL first. -/
  slices : List (List Byte) := []
  deriving DecidableEq, Repr, Inhabited

/-- Slice sizes and the places of the tributaries' bytes (R299, R317). -/
def sliceSize (t : Nat) : Nat := if t = 0 then 32 else 16
def sliceAt (t : Nat) : Nat := lget 0 [96, 128, 144, 160, 176] t

/-- A range as its 8 bytes. -/
def rangeBytes (r : Range) : List Byte := beBytes 6 r.first ++ beBytes 2 r.count

/-- Bytes filled with zeros up to a length. -/
def padTo (n : Nat) (bs : List Byte) : List Byte := bs ++ List.replicate (n - bs.length) 0

/-- The 192 overhead bytes (R299). -/
def cohBytes (c : Coh) : List Byte :=
  [c.pbip] ++ beBytes 1 (c.pbei * 16 + (if c.bdi then 8 else 0)) ++ beBytes 2 c.tuptr ++ beBytes 6 c.txhi ++ beBytes 6 c.rack
    ++ beBytes 1 (c.naks.length * 32 + (if c.gone.isSome then 16 else 0)) ++ beBytes 4 c.modes.toNat ++ beBytes 3 0
    ++ padTo 48 (c.naks.flatMap rangeBytes) ++ padTo 8 ((c.gone.map rangeBytes).getD [])
    ++ c.rpoh.flatMap (fun w => beBytes 4 w.toNat) ++ ((List.range 5).flatMap fun t => padTo (sliceSize t) (lget [] c.slices t))

/-- A range read from bytes. -/
def rangeOf (bs : List Byte) (off : Nat) : Range := ⟨beAt bs off 6, beAt bs (off + 6) 2⟩

/-- The overhead read from its 192 bytes; reserved bits are ignored (R298). -/
def cohOf (bs : List Byte) : Coh :=
  let b1 := beAt bs 1 1
  let b16 := beAt bs 16 1
  { pbip := lget 0 bs 0, pbei := b1 / 16, bdi := b1 / 8 % 2 == 1, tuptr := beAt bs 2 2 % 32768, txhi := beAt bs 4 6
    rack := beAt bs 10 6, modes := BitVec.ofNat 32 (beAt bs 17 4)
    naks := (List.range (min 6 (b16 / 32))).map fun i => rangeOf bs (24 + 8 * i)
    gone := if b16 / 16 % 2 = 1 then some (rangeOf bs 72) else none
    rpoh := (List.range 4).map fun j => BitVec.ofNat 32 (beAt bs (80 + 4 * j) 4)
    slices := (List.range 5).map fun t => (bs.drop (sliceAt t)).take (sliceSize t) }

/-! ### TUs on the line (R321, R322) -/

/-- The 12-byte TU header (R321). LEN counts header and body. -/
def tuHdr (e : Element) : List Byte :=
  beBytes 12 (2 ^ 94 + e.tc.toNat * 2 ^ 92 + e.slot.toNat * 2 ^ 88 + e.sys.toNat * 2 ^ 87 + e.rsnd.toNat * 2 ^ 86 + e.len * 2 ^ 72
    + e.kepoch.toNat * 2 ^ 64 + e.tseq * 65536 + e.mode.toNat * 16384 + e.prev)

/-- ORIG, where RSND is set. -/
def tuOrig (e : Element) : List Byte := if e.rsnd then beBytes 6 e.orig else []

/-- A line element's bytes (R322). -/
def lineElemBytes (e : Element) : List Byte := tuHdr e ++ tuOrig e ++ e.body ++ e.tag

/-- The element that whole element bytes spell. -/
def elemOf (bs : List Byte) : Element :=
  let w := BitVec.ofNat 96 (beAt bs 0 12)
  let rsnd := w.getLsbD 86
  let len := fld w 85 72
  let ext := if rsnd then 6 else 0
  { tc := w.extractLsb' 92 2, slot := w.extractLsb' 88 4, sys := w.getLsbD 87, rsnd := rsnd, len := len
    kepoch := w.extractLsb' 64 8, tseq := fld w 63 16, mode := w.extractLsb' 14 2, prev := fld w 13 0
    orig := if rsnd then beAt bs 12 6 else 0
    body := (bs.drop (12 + ext)).take (len - 12), tag := (bs.drop (len + ext)).take 16 }

/-- An object of a TU body: 4-byte header and bytes (R322). -/
def objBytes (otype : Nat) (bs : List Byte) : List Byte := beBytes 4 (otype * 2 ^ 28 + bs.length * 2 ^ 14) ++ bs

/-- The objects of a TU body, as OTYPE and bytes; none where a reserved type stands or an object runs past the end. A pad ends the body. -/
def objectsOf : Nat → List Byte → Option (List (Nat × List Byte))
  | 0, bs => if bs.isEmpty then some [] else none
  | n + 1, bs =>
    if bs.length < 4 then some []
    else
      let t := beAt bs 0 1 / 16
      let len := beAt bs 0 4 / 16384 % 16384
      if t = 0 then some []
      else if 3 < t ∨ bs.length < 4 + len then none
      else (objectsOf n (bs.drop (4 + len))).map fun r => (t, (bs.drop 4).take len) :: r

/-! ### Cipher and tag of a TU (R392, R393) -/

/-- The counter block of block `i` of a body (R392). -/
def ctrBlock (kepoch : BitVec 8) (tseq i : Nat) : BitVec 128 := BitVec.ofNat 128 (kepoch.toNat * 2 ^ 120 + tseq * 2 ^ 72 + i)

/-- A body under the cipher output of successive counter blocks. -/
def ctrBody (suite : Bool) (key : BitVec 256) (kepoch : BitVec 8) (tseq : Nat) (bs : List Byte) : List Byte :=
  (pieces 16 bs).zipIdx.flatMap fun (p : List Byte × Nat) =>
    let ks := beBytes 16 (Config.blockCipher suite key (ctrBlock kepoch tseq (p.2 + 1))).toNat
    List.zipWith (· ^^^ ·) p.1 ks

/-- The tag of an element: CMAC over header, ORIG and ciphertext body (R393). -/
def tuTag (suite : Bool) (key : BitVec 256) (e : Element) : List Byte :=
  beBytes 16 (Config.cmac suite key (tuHdr e ++ tuOrig e ++ e.body)).toNat

/-- An element sealed: body enciphered, tag added. -/
def sealElem (suite : Bool) (kEnc kMac : BitVec 256) (e : Element) : Element :=
  let e := { e with body := ctrBody suite kEnc e.kepoch e.tseq e.body }
  { e with tag := tuTag suite kMac e }

/-! ### CFB-8 (R397) -/

/-- One byte under CFB-8: the byte, and the shift register with the ciphertext byte shifted in. -/
def cfbByte (suite : Bool) (key : BitVec 256) (enc : Bool) (sr : BitVec 128) (b : Byte) : Byte × BitVec 128 :=
  let o := b ^^^ BitVec.extractLsb' 120 8 (Config.blockCipher suite key sr)
  (o, (sr <<< 8) ||| BitVec.setWidth 128 (if enc then o else b))

/-- Bytes under CFB-8. -/
def cfb8 (suite : Bool) (key : BitVec 256) (enc : Bool) (sr : BitVec 128) (bs : List Byte) : List Byte × BitVec 128 :=
  bs.foldl (fun a b => let x := cfbByte suite key enc a.2 b; (a.1 ++ [x.1], x.2)) ([], sr)

end Sys2Proof.Machine
end

