-- ==== Sys2Proof/Machine/Pool.lean ====
section
/-! DEFINITION. Staging pools, shares and spill queues (Staging Pools and Deep Buffer, R106–R117). -/

namespace Sys2Proof.Machine

open Sys2Proof

/-! ### Pools (R106–R113) -/

/-- Buffers and buffer size of a pool (R106). -/
def poolBufs (p : Nat) : Nat := lget 0 [32768, 27392, 12288, 9216] p
def poolSize (p : Nat) : Nat := lget 0 [256, 1024, 4352, 8448] p

/-- The smallest pool whose buffers hold `n` bytes; none above 8,448 (R107). -/
def poolFor (n : Nat) : Option Nat := (List.range 4).find? fun p => decide (n ≤ poolSize p)

/-- SYS_RES and CTX_RES of a pool (R143), and its slot share (R111). -/
def Chan.sysRes (c : Chan) (p : Nat) : Nat := fld (c.reg (0x200010 + 4 * p)) 31 20
def Chan.ctxRes (c : Chan) (p : Nat) : Nat := fld (c.reg (0x200010 + 4 * p)) 19 12
def Chan.slotShare (c : Chan) (p : Nat) : Nat := poolBufs p - c.sysRes p - 64 * c.ctxRes p

/-- Cap of slot `k` in pool `p`: slot share × CAP_PCT / 100 of the slot's class profile (R113); 0 while the slot is free (R144). -/
def Chan.slotCap (c : Chan) (k p : Nat) : Nat :=
  let slot := vget c.ctrl.slots k
  if slot.mode = .free then 0 else c.slotShare p * fld (c.reg (0x700200 + 4 * (slot.body.profile.toNat % 16))) 6 0 / 100

/-- A pool. -/
def Chan.pool (c : Chan) (p : Nat) : Pool := vget c.mem.pools p

/-- Buffers of a pool in use against a share. -/
def shareUse (q : Pool) (sh : Share) : Nat := (q.bufs.filter fun b => decide (b.2 = sh)).length

/-- Buffers of the slot share in use. -/
def slotUse (q : Pool) : Nat := (q.bufs.filter fun b => match b.2 with | .slot _ => true | _ => false).length

/-- FREE of POOL.STAT_p (R142). -/
def Chan.poolFree (c : Chan) (p : Nat) : Nat := poolBufs p - (c.pool p).bufs.length

/-- A share has a buffer left for a request (R111, R113). -/
def Chan.shareRoom (c : Chan) (p : Nat) (sh : Share) : Bool :=
  let q := c.pool p
  match sh with
  | .system => decide (shareUse q .system < c.sysRes p)
  | .ctx k => decide (shareUse q (.ctx k) < c.ctxRes p)
  | .slot k => decide (shareUse q (.slot k) < c.slotCap k p) && decide (slotUse q < c.slotShare p)
  | .withdrawn => false

/-- A pool replaced, with MIN_FREE kept (R142). -/
def Chan.setPool (c : Chan) (p : Nat) (q : Pool) : Chan :=
  { c with mem := { c.mem with pools := vset c.mem.pools p { q with minFree := min q.minFree (poolBufs p - q.bufs.length) } } }

/-- The share and pool that a waiter waits for; none for spill space (R623). -/
def waiterShare : Waiter → Option (Share × Nat)
  | .ingress sh p _ _ => some (sh, p)
  | .spillHead k _ _ p => some (.slot k, p)
  | .packer k p => some (.slot k, p)
  | .operand k _ p => some (.slot k, p)
  | .ingressSpill _ _ _ => none

/-- Two requests draw on one share: the system share, a context's reserve, or the slot share (R111). -/
def oneShare : Share → Share → Bool
  | .system, .system => true
  | .ctx a, .ctx b => a == b
  | .slot _, .slot _ => true
  | _, _ => false

/-- Waiters of a share of a pool that began to wait before a requester, and that the share could serve: those of a slot at its cap are
passed over (R623). -/
def Chan.waitAhead (c : Chan) (p : Nat) (sh : Share) (w : Option Waiter) : List Waiter :=
  let before := match w with | some w => c.mem.waiters.takeWhile fun v => decide (v ≠ w) | none => c.mem.waiters
  before.filter fun v => match waiterShare v with
    | some (t, q) => decide (q = p) && oneShare sh t && c.shareRoom p t
    | none => false

/-- A share has a buffer for a request once those ahead of it are served (R623). -/
def Chan.canServe (c : Chan) (p : Nat) (sh : Share) (w : Option Waiter) : Bool :=
  let ahead := c.waitAhead p sh w
  let q := c.pool p
  match sh with
  | .system => decide (shareUse q .system + ahead.length < c.sysRes p)
  | .ctx k => decide (shareUse q (.ctx k) + ahead.length < c.ctxRes p)
  | .slot k =>
    let own := ahead.filter fun v => decide (waiterShare v = some (.slot k, p))
    decide (shareUse q (.slot k) + own.length < c.slotCap k p) && decide (slotUse q + ahead.length < c.slotShare p)
  | .withdrawn => false

/-- A request for `n` bytes against a share, by a requester that may wait: the free buffer of lowest index in the smallest pool that
fits, or a failure, counted in FAIL_CNT_p (R107–R109, R114, R623). -/
def Chan.alloc (c : Chan) (sh : Share) (n : Nat) (w : Option Waiter := none) : Option Buf × Chan :=
  match poolFor n with
  | none => (none, c)
  | some p =>
    let q := c.pool p
    let i := firstGap q.bufs 0
    if c.canServe p sh w && decide (i < poolBufs p) then
      (some ⟨p, i⟩, c.setPool p { q with bufs := cput q.bufs i sh })
    else (none, c.count (0x200040 + 4 * p))

/-- A context whose instance has ended is free once its cairn is queued and none of its buffers is held (R190, R411). -/
def Chan.freeCtx (c : Chan) (i : Nat) : Chan :=
  match cget? c.col.ctxs i with
  | some x =>
    if x.ending && !x.queued && (List.range 4).all fun p => shareUse (c.pool p) (.ctx i) == 0 then
      { c with col := { c.col with ctxs := cdel c.col.ctxs i } }
    else c
  | none => c

/-- The context that a buffer is charged to has one buffer less: it may be free now. -/
def Chan.settleOf (c : Chan) (sh : Option Share) : Chan := match sh with | some (.ctx i) => c.freeCtx i | _ => c

/-- A buffer released to the share it came from (R623). -/
def Chan.release (c : Chan) (b : Buf) : Chan :=
  let q := c.pool b.pool
  (c.setPool b.pool { q with bufs := cdel q.bufs b.idx }).settleOf (cget? q.bufs b.idx)

/-- Buffers released. -/
def Chan.releaseAll (c : Chan) (bs : List Buf) : Chan := bs.foldl Chan.release c
def Chan.releaseOpt (c : Chan) (b : Option Buf) : Chan := match b with | some b => c.release b | none => c

/-- Buffers moved to another share's account, where a stage hands its object on. -/
def Chan.reshare (c : Chan) (b : Buf) (sh : Share) : Chan :=
  let q := c.pool b.pool
  (c.setPool b.pool { q with bufs := cput q.bufs b.idx sh }).settleOf (cget? q.bufs b.idx)

/-- A parity mismatch: the buffer is withdrawn until the next recovery, counted and raised (R110). -/
def Chan.parity (c : Chan) (b : Buf) (slot : Nat) : Chan :=
  let q := c.pool b.pool
  (((c.setPool b.pool { q with bufs := cput q.bufs b.idx .withdrawn }).settleOf (cget? q.bufs b.idx)).count 0x20005C).raise
    { ev := .poolParity, slot := slot, addr := b.pool * 65536 + b.idx }

/-- A mismatch in reading an object that may stand in a buffer. -/
def Chan.parityOpt (c : Chan) (b : Option Buf) (slot : Nat) : Chan := match b with | some b => c.parity b slot | none => c

/-! ### Lines of the deep buffer (R118, R119, R129) -/

/-- The 32-byte lines that `n` bytes at an address touch. -/
def linesOf (a n : Nat) : List Nat := (List.range ((a % 32 + n + 31) / 32)).map fun i => a / 32 + i

/-- The check word of a line: CRC-32C over its physical address in 8 bytes and its 32 data bytes (R118). -/
def checkWord (addr : Nat) (data : List Byte) : BitVec 32 := crc32c (beBytes 8 addr ++ data)

/-- The 32 bytes of a line of region 7, by line number. -/
def Chan.stageLine (c : Chan) (l : Nat) : List Byte :=
  (List.range 32).map fun i => Memory.read c.mem.region7 (32 * l - c.regionBase 7 + i)

/-- A read of a line finds no data: it was lost and not written since, it lies in a unit retired without a replacement, or its check word
does not agree (R119, R129, R132). -/
def Chan.lineBad (c : Chan) (l : Nat) : Bool :=
  c.mem.lost.contains l || (c.mem.retired.any fun r => r.repl.isNone && r.unit == l / 128)
    || (match cget? c.mem.checks l with | some w => decide (w ≠ checkWord (32 * l) (c.stageLine l)) | none => false)

/-- Bytes written into region 7, with the check words of their lines; a line written whole is lost no longer (R118, R129). -/
def Chan.putStage (c : Chan) (off : Nat) (bs : List (Option Byte)) : Chan :=
  let base := c.regionBase 7
  let r7 := (bs.zipIdx).foldl (fun (t : Cells Byte) (x : Option Byte × Nat) =>
    match x.1 with | some b => Memory.write t (off + x.2) b | none => t) c.mem.region7
  let whole (l : Nat) : Bool := (List.range 32).all fun i =>
    decide (base + off ≤ 32 * l + i) && (match bs[32 * l + i - (base + off)]? with | some (some _) => true | _ => false)
  let lines := linesOf (base + off) bs.length
  let c := { c with mem := { c.mem with region7 := r7, lost := c.mem.lost.filter fun l => !(lines.contains l && whole l) } }
  { c with mem := { c.mem with checks := lines.foldl (fun m l => cput m l (checkWord (32 * l) (c.stageLine l))) c.mem.checks } }

/-! ### The deep buffer -/

/-- The deep buffer takes requests (R135, R138). -/
def Chan.memUp (c : Chan) : Bool := decide (c.mem.phase = .up)

/-! ### Spill queues (R115–R117) -/

/-- Bytes of a segment. -/
def segBytes : Nat := 2097152

/-- Key of a spill queue: slot, class 1 or 3, direction. -/
def spillKey (slot cls : Nat) (toLine : Bool) : Nat := 4 * slot + (if cls = 3 then 2 else 0) + (if toLine then 0 else 1)

/-- The region of a class's spill queues. -/
def spillRegion (cls : Nat) : Nat := if cls = 3 then 2 else 1

/-- A spill queue. -/
def Chan.spillQ (c : Chan) (slot cls : Nat) (toLine : Bool) : SpillQ := cget {} c.mem.spill (spillKey slot cls toLine)

/-- Bytes an object takes in its segment. -/
def spilledBytes : Spilled → Nat
  | .toLine o => o.bytes.length
  | .toFabric o => o.bytes.length

/-- Segments a queue holds, without repeats: those in which an object lies, and the one that is being filled (log entry 156). -/
def queueSegs (q : SpillQ) : List Nat :=
  let l := q.objs.map (fun o => o.2.1) ++ (match q.tail with | some t => [t.1] | none => [])
  l.foldl (fun acc x => if acc.contains x then acc else acc ++ [x]) []

/-- Segments that all queues of a class hold in their region. -/
def Chan.segsUsed (c : Chan) (cls : Nat) : List Nat :=
  c.mem.spill.flatMap fun e => if (e.1 / 2 % 2 == 1) == (cls == 3) then queueSegs e.2 else []

/-- Segments that a slot holds in a class's region, both directions (R145). -/
def Chan.slotSegs (c : Chan) (slot cls : Nat) : Nat :=
  (queueSegs (c.spillQ slot cls true)).length + (queueSegs (c.spillQ slot cls false)).length

/-- The first offset at or after `off` at which `n` bytes of a segment miss every unit that is retired without a replacement (R132). -/
def Chan.skipBad (c : Chan) (base n : Nat) : Nat → Nat → Nat
  | 0, off => off
  | k + 1, off =>
    match c.mem.retired.find? fun r => r.repl.isNone && decide (r.unit * 4096 < base + off + n) && decide (base + off < (r.unit + 1) * 4096) with
    | some r => c.skipBad base n k ((r.unit + 1) * 4096 - base)
    | none => off

/-- An object enters its spill queue, behind those in it; none when the queue cannot take it (R115–R117). -/
def Chan.spillPut (c : Chan) (slot cls : Nat) (toLine : Bool) (o : Spilled) : Option Chan :=
  let q := c.spillQ slot cls toLine
  let n := spilledBytes o
  let r := spillRegion cls
  let put (seg off : Nat) : Chan :=
    let q := { q with objs := q.objs ++ [(o, seg, off)], tail := some (seg, off + n) }
    let c := { c with mem := { c.mem with spill := cput c.mem.spill (spillKey slot cls toLine) q } }
    c.count (if toLine then 0x200050 else 0x200054)
  let place (seg off : Nat) : Option Nat :=
    let at_ := c.skipBad (c.regionBase r + seg * segBytes) n 16385 off
    if at_ + n ≤ segBytes then some at_ else none
  if !c.memUp then none
  else
    match q.tail.bind fun t => (place t.1 t.2).map fun a => (t.1, a) with
    | some t => some (put t.1 t.2)
    | none =>
      let total := c.regionSize r / segBytes
      let used := c.segsUsed cls
      match (List.range total).find? fun i => !used.contains i with
      | some seg =>
        if c.slotSegs slot cls < total / 8 then (place seg 0).map fun a => put seg a else none
      | none => none

/-- A queue without its oldest object, which has passed through it; an empty queue gives its segments back (R116, R117). -/
def Chan.spillPop (c : Chan) (slot cls : Nat) (toLine : Bool) : Chan :=
  let q := c.spillQ slot cls toLine
  let objs := q.objs.drop 1
  let q := if objs.isEmpty then {} else { q with objs := objs }
  let c := { c with mem := { c.mem with spill := cset {} c.mem.spill (spillKey slot cls toLine) q } }
  if cls = 1 then (c.count 0x200058).raise { ev := .poolStageSpill, slot := slot, scope := slot } else c

/-- An object of a slot, class and direction must enter its spill queue because the queue is not empty (R116). -/
def Chan.spilling (c : Chan) (slot cls : Nat) (toLine : Bool) : Bool :=
  (decide (cls = 1) || decide (cls = 3)) && !(c.spillQ slot cls toLine).objs.isEmpty

/-- A requester's first failed allocation is noted, once (R623). -/
def Chan.await (c : Chan) (w : Waiter) : Chan :=
  if c.mem.waiters.contains w then c else { c with mem := { c.mem with waiters := c.mem.waiters ++ [w] } }

/-- The packer and the matrix engine of a slot wait no longer (R623). -/
def Chan.slotWaits (c : Chan) (slot : Nat) : Chan :=
  { c with mem := { c.mem with waiters := c.mem.waiters.filter fun w => match w with
    | .packer k _ => k ≠ slot
    | .operand k _ _ => k ≠ slot
    | .spillHead k _ _ _ => k ≠ slot
    | _ => true } }

/-- A requester waits no longer. -/
def Chan.served (c : Chan) (w : Waiter) : Chan :=
  { c with mem := { c.mem with waiters := c.mem.waiters.filter fun v => decide (v ≠ w) } }

end Sys2Proof.Machine
end

