-- ==== Sys2Proof/Machine/Emit.lean ====
section
/-! DEFINITION. Packets, rank translation and emission onto the fabric: routes, tail records, held packets, FENCE order, NACKs (The
Daeno Fabric Port, R77–R100, R626). -/

namespace Sys2Proof.Machine

open Sys2Proof

/-! ### Packet bytes (R77) -/

/-- ROUTE with every entry the route marker 0x1F (R79). -/
def routeMarkers : BitVec 80 := BitVec.allOnes 80

/-- The 24 header bytes of a packet. -/
def pktHdr (p : Packet) : List Byte :=
  let w0 := p.ver.toNat * 64 + p.kind.toNat * 8 + p.tc.toNat * 2 + p.fence.toNat
  let w1 := p.gen.toNat * 128 + p.hops.toNat * 4 + p.coded.toNat * 2 + p.rsvd.toNat / 4
  let w23 := (p.rsvd.toNat % 4) * 16384 + p.length.toNat
  beBytes 1 w0 ++ beBytes 1 w1 ++ beBytes 2 w23 ++ beBytes 10 p.route.toNat ++ beBytes 5 p.src.toNat ++ beBytes 5 p.dest.toNat

/-- Header and payload. -/
def pktBytes (p : Packet) : List Byte := pktHdr p ++ p.payload

/-- The packet whose header and payload these bytes are: LENGTH bytes of payload, as far as they go. -/
def pktOf (bs : List Byte) : Packet :=
  let w := BitVec.ofNat 192 (beAt bs 0 24)
  { ver := w.extractLsb' 190 2, kind := w.extractLsb' 187 3, tc := w.extractLsb' 185 2, fence := w.getLsbD 184, gen := w.getLsbD 183
    hops := w.extractLsb' 178 5, coded := w.getLsbD 177, rsvd := w.extractLsb' 174 3, length := w.extractLsb' 160 14
    route := w.extractLsb' 80 80, src := w.extractLsb' 40 40, dest := w.extractLsb' 0 40
    payload := (bs.drop 24).take (w.extractLsb' 160 14).toNat }

/-- JOB_TAG, rank and TREE_ID of a DEST (R77). -/
def jobTag (dest : BitVec 40) : Nat := fld dest 39 20
def rankOf (dest : BitVec 40) : Nat := fld dest 19 0
def treeOf (dest : BitVec 40) : Nat := fld dest 11 0

/-- SITE of a coordinate (R48). -/
def siteOf (x : Coord) : Nat := fld x 39 32

/-- The slot whose job has this JOB_TAG (R82); one that is releasing counts only where asked. -/
def Chan.slotByTag (c : Chan) (tag : Nat) (releasing : Bool) : Option Nat :=
  (List.range 16).find? fun k =>
    let s := vget c.ctrl.slots k
    decide (s.mode ≠ .free) && (releasing || decide (s.mode ≠ .releasing)) && decide (fld s.body.jobId 19 0 = tag)

/-- Short stamp of an instant (R433). -/
def shortStamp (t : Instant) : Nat := t % 4294967296

/-- A short stamp extended by a reference known to lie within 2³¹ ns of the stamped instant (R434). -/
def extendStamp (s ref : Nat) : Instant :=
  let d := (s + 4294967296 - ref % 4294967296) % 4294967296
  if 2147483648 ≤ d then ref + d - 4294967296 else ref + d

/-! ### Tables (R84, R85, R88, R89) -/

/-- The tables of a generation. -/
def Chan.tables (c : Chan) (g : Bool) : Tables := if g then c.fab.gen1 else c.fab.gen0

/-- The tables of a generation changed. -/
def Chan.modTables (c : Chan) (g : Bool) (f : Tables → Tables) : Chan :=
  if g then { c with fab := { c.fab with gen1 := f c.fab.gen1 } } else { c with fab := { c.fab with gen0 := f c.fab.gen0 } }

/-- Current generation of a slot (R89). -/
def Chan.genOf (c : Chan) (slot : Nat) : Bool := bitOf c.fab.curGen slot

/-- The slot's table-generation saddle window is open. -/
def Chan.genSaddle (c : Chan) (slot : Nat) : Bool :=
  match cget? c.fab.changes slot with | some (.saddle _) => true | _ => false

/-- Physical index of a slot-relative rank entry (R88). -/
def Chan.physEntry (c : Chan) (slot e : Nat) : Option Nat :=
  (c.fab.blocks.find? fun b => decide (b.2 = (slot, e / 256))).map fun b => b.1 * 256 + e % 256

/-- The rank entry of a rank, when a window covers it and it is valid (R84, R85). -/
def Chan.xlate (c : Chan) (slot : Nat) (g : Bool) (rank : Nat) : Option (BitVec 128) :=
  let t := c.tables g
  let hit := (List.range 8).find? fun i =>
    let w := cget 0 t.windows (8 * slot + i)
    bitOf w 63 && decide (fld w 41 22 ≤ rank) && decide (rank < fld w 41 22 + fld w 62 42)
  match hit with
  | some i =>
    let w := cget 0 t.windows (8 * slot + i)
    match c.physEntry slot (fld w 16 0 + (rank - fld w 41 22)) with
    | some p => let e := cget 0 t.ranks p; if fld e 127 126 = 0 then none else some e
    | none => none
  | none => none

/-- Action, relay bit, first port and coordinate of a rank entry. -/
def entAction (e : BitVec 128) : Nat := fld e 127 126
def entRelay (e : BitVec 128) : Bool := bitOf e 120
def entPort (e : BitVec 128) : Nat := fld e 119 115

/-- HOPS and ROUTE of an emitted packet: the entry's route less its first hop, markers after its last (R79). -/
def entRoute (e : BitVec 128) : BitVec 5 × BitVec 80 :=
  let hops := fld e 125 121 - 1
  let route := BitVec.extractLsb' 40 80 e <<< 5
  let keep := 5 * hops
  (BitVec.ofNat 5 hops, (route >>> (80 - keep) <<< (80 - keep)) ||| (routeMarkers >>> keep))

/-! ### Ports -/

/-- A port of the channel. -/
def Chan.port (c : Chan) (p : Nat) : Port := vget c.fab.ports p
def Chan.setPort (c : Chan) (p : Nat) (x : Port) : Chan := { c with fab := { c.fab with ports := vset c.fab.ports p x } }

/-- A port is fenced: FENCE_PORT (R104). -/
def Chan.portFenced (c : Chan) (p : Nat) : Bool := bitOf c.fab.fenced p

/-- NACK_HOLD in µs, REROUTE_WAIT in µs, COORD_PORT (R104). -/
def Chan.nackHold (c : Chan) : Nat := fld (c.reg 0x100018) 31 24
def Chan.rerouteUs (c : Chan) : Nat := fld (c.reg 0x100018) 23 18 * 1000
def Chan.coordPort (c : Chan) : Nat := fld (c.reg 0x100018) 17 16

/-- The port for a packet with HOPS = 0: COORD_PORT, or the lowest that is not fenced (R79). -/
def Chan.freePort (c : Chan) : Option Nat :=
  if !c.portFenced c.coordPort then some c.coordPort else (List.range 4).find? fun p => !c.portFenced p

/-! ### Emission -/

/-- A packet is longer than a NACK can carry, so that its tail is kept while it is under way (R80). -/
def longRank (p : Packet) : Bool := decide (p.kind = 0) && decide (8160 < p.payload.length)

/-- The tail record of a packet (R80). -/
def tailOf (p : Packet) : TailRec :=
  { src := p.src, dest := p.dest, tc := p.tc, length := p.payload.length, crc := crc32c (p.payload.take 8160), tail := p.payload.drop 8160 }

/-- The tail record of a long RANK packet (R80); the oldest record makes room. -/
def Chan.keepTail (c : Chan) (p : Packet) : Chan :=
  if longRank p then
    let c := if 32768 ≤ c.fab.tails.length then { c.count 0x10007C with fab := { c.fab with tails := c.fab.tails.drop 1 } } else c
    { c with fab := { c.fab with tails := c.fab.tails ++ [tailOf p] } }
  else c

/-- The last byte of a packet has left on a port: the time of its tail record begins (R80). -/
def Chan.tailLeft (c : Chan) (p : Packet) : Chan :=
  if longRank p then
    let mine (t : TailRec) : Bool := decide (t = tailOf p)
    match c.fab.tails.findIdx? mine with
    | some i => { c with fab := { c.fab with tails := c.fab.tails.set i { tailOf p with leftUs := some c.us } } }
    | none => c
  else c

/-- A packet with its place in the order of the emitting stage joins an output port's queue, and the emission is noted for R96. -/
def Chan.putOut (c : Chan) (port : Nat) (p : Packet) (nr : Nat) : Chan :=
  let keep := c.fab.emitted.filter fun e => decide (c.us ≤ e.lastUs + c.nackHold)
  let c := { c with fab := { c.fab with emitted := keep ++ [(⟨p.src, p.dest, p.tc, p.gen, port, c.us, nr⟩ : Emitted)] } }
  let x := c.port port
  (c.keepTail p).setPort port { x with txq := x.txq ++ [p] }

/-- The next place in the order in which packets reach the emitting stage (R96). -/
def Chan.nextNr (c : Chan) : Nat × Chan := (c.fab.emitNr + 1, { c with fab := { c.fab with emitNr := c.fab.emitNr + 1 } })

/-- A packet of the channel's own, or a COORD or NACK packet: HOPS = 0 and markers. -/
def Chan.ownPacket (c : Chan) (kind : BitVec 3) (tc : BitVec 2) (dest : BitVec 40) (payload : List Byte) : Packet :=
  { kind := kind, tc := tc, length := BitVec.ofNat 14 payload.length, route := routeMarkers, src := c.cfg.coord, dest := dest
    payload := payload }

/-- Bytes held under R94 and R79. -/
def Chan.heldBytes (c : Chan) : Nat := (c.fab.held.map fun h => 24 + h.pkt.payload.length).foldl (· + ·) 0

/-- A packet discarded as FAB_UNREACH (R94). -/
def Chan.unreach (c : Chan) (p : Packet) (slot : Option Nat) : Chan :=
  (c.count 0x100070).raise { ev := .fabUnreach, slot := slot.getD 0xFF, addr := p.src.toNat }

/-- A packet is held in a pool buffer of its slot, or of the system share, or discarded (R79, R94, R114). `since`: it has been held since that
tick already. -/
def Chan.hold (c : Chan) (p : Packet) (slot : Option Nat) (nacks : Nat) (forGen : Bool) (nr : Nat) (since : Option Nat) : Chan :=
  let n := 24 + p.payload.length
  if 4194304 < c.heldBytes + n then c.unreach p slot
  else
    let r := c.alloc (match slot with | some k => .slot k | none => .system) n
    match r.1 with
    | none => r.2.unreach p slot
    | some b =>
      let h : Held := ⟨p, slot, nacks, since.getD c.us, forGen, some (b.pool, b.idx), nr⟩
      (({ r.2 with fab := { r.2.fab with held := r.2.fab.held ++ [h] } }).count 0x10006C)

/-- Two packets share SRC, DEST and TC. -/
def sameTriple (p q : Packet) : Bool := p.src == q.src && p.dest == q.dest && p.tc == q.tc

/-- FENCE order (R96): a packet of the triple that reached the emitting stage before place `nr` is held, or NACK_HOLD has not passed since one
went out under another generation or on another first port. -/
def Chan.fenceWaits (c : Chan) (p : Packet) (port nr : Nat) : Bool :=
  (c.fab.held.any fun h => sameTriple h.pkt p && decide (h.nr < nr))
    || (c.fab.emitted.any fun e => e.src == p.src && e.dest == p.dest && e.tc == p.tc && !(e.gen == p.gen && e.port == port)
        && decide (e.nr < nr) && decide (c.us ≤ e.lastUs + c.nackHold))

/-- A routed packet leaves on its first port, unless the guard of R96 keeps it: earlier packets of the triple, or an earlier FENCE packet of
it that waits. -/
def Chan.sendOn (c : Chan) (port : Nat) (p : Packet) (slot : Option Nat) (nacks nr : Nat) : Chan :=
  if p.fence && (c.fenceWaits p port nr || c.fab.fences.any fun f => sameTriple f.pkt p && decide (f.nr < nr)) then
    { c with fab := { c.fab with fences := c.fab.fences ++ [⟨p, slot, nr, nacks⟩] } }
  else c.putOut port p nr

/-- A RANK packet translated under the slot's current generation and sent, or held for a fenced first port, or discarded: no entry, or a LINE
entry (R79, R86, R94). `since`: it has been held since that tick. A packet that came CODED stays so under any entry (log entry 147). -/
def Chan.emitRankAt (c : Chan) (p : Packet) (slot nacks nr : Nat) (since : Option Nat) : Chan :=
  let g := c.genOf slot
  match c.xlate slot g (rankOf p.dest) with
  | none => c.raise { ev := .fabNoXlate, slot := slot, addr := p.src.toNat }
  | some e =>
    if entAction e ≠ 1 then c.raise { ev := .fabLoop, slot := slot, addr := p.src.toNat }
    else
      let r := entRoute e
      let p := { p with gen := g, hops := r.1, route := r.2 }
      if c.portFenced (entPort e) then c.hold p (some slot) nacks true nr since else c.sendOn (entPort e) p (some slot) nacks nr

/-- A RANK packet from the line reaches the emitting stage. -/
def Chan.emitRank (c : Chan) (p : Packet) (slot nacks : Nat) : Chan :=
  let r := c.nextNr
  r.2.emitRankAt p slot nacks r.1 none

/-- A COORD or NACK packet sent by coordinate routing, or held while every port is fenced (R79). -/
def Chan.emitCoordAt (c : Chan) (p : Packet) (nr : Nat) (since : Option Nat) : Chan :=
  match c.freePort with
  | some port => c.sendOn port p none 0 nr
  | none => c.hold p none 0 false nr since

/-- A COORD or NACK packet reaches the emitting stage. -/
def Chan.emitCoord (c : Chan) (p : Packet) : Chan :=
  let r := c.nextNr
  r.2.emitCoordAt p r.1 none

/-- A control packet of the channel's own to a coordinate: class TC0. -/
def Chan.sendCoord (c : Chan) (dest : Coord) (payload : List Byte) : Chan := c.emitCoord (c.ownPacket 1 0 dest payload)

/-- FENCE packets whose wait is over leave, in their order, translated as the tables and fences stand by then (R79, R94, R96). -/
def Chan.flushFences (c : Chan) : Chan :=
  let waiting := c.fab.fences
  waiting.foldl (fun (c : Chan) f =>
    match f.slot with
    | some k => c.emitRankAt f.pkt k f.nacks f.nr none
    | none => c.emitCoordAt f.pkt f.nr none) { c with fab := { c.fab with fences := [] } }

/-- Held packets that a condition picks leave their buffers and are translated and sent again (R79, R94). -/
def Chan.resendHeld (c : Chan) (pick : Held → Bool) : Chan :=
  let go := c.fab.held.filter pick
  let c := { c with fab := { c.fab with held := c.fab.held.filter fun h => !pick h } }
  (go.foldl (fun (c : Chan) h =>
    let c := c.releaseOpt (h.buf.map fun b => ⟨b.1, b.2⟩)
    match h.slot with
    | some k => c.emitRankAt h.pkt k h.nacks h.nr (some h.sinceUs)
    | none => c.emitCoordAt h.pkt h.nr (some h.sinceUs)) c).flushFences

/-- HELD_PACKET_TIMEOUT: packets held for longer than REROUTE_WAIT are discarded (R94). -/
def Chan.heldTimeout (c : Chan) : Chan :=
  let old (h : Held) : Bool := decide (h.sinceUs + c.rerouteUs < c.us)
  let go := c.fab.held.filter old
  let c := { c with fab := { c.fab with held := c.fab.held.filter fun h => !old h } }
  (go.foldl (fun (c : Chan) h => (c.releaseOpt (h.buf.map fun b => ⟨b.1, b.2⟩)).unreach h.pkt h.slot) c).flushFences

/-! ### NACKs (R93, R626) -/

/-- DEST, HOPS and ROUTE of a NACK that goes back along the recorded path of a packet: none when no marker follows its first HOPS
entries (R626). -/
def recordedPath (p : Packet) : Option (BitVec 5 × BitVec 80) :=
  let ents := (List.range 16).map fun i => fld p.route (79 - 5 * i) (75 - 5 * i)
  let rest := ents.drop p.hops.toNat
  if rest.head? ≠ some 31 then none
  else
    let back := (rest.reverse.takeWhile fun x => decide (x ≠ 31))
    let route := (back ++ List.replicate (16 - back.length) 31).foldl (fun a x => a * 32 + x) 0
    some (BitVec.ofNat 5 back.length, BitVec.ofNat 80 route)

/-- A NACK answers a packet received on a port, with a reason (R93); never a NACK. A packet from another site gets it back on the port
it came in on. -/
def Chan.nack (c : Chan) (port : Nat) (reason : Nat) (p : Packet) : Chan :=
  if p.kind = 3 then c
  else
    let body := beBytes 1 reason ++ beBytes 3 0 ++ beBytes 4 (shortStamp c.now) ++ pktHdr p ++ p.payload.take 8160
    let k := c.ownPacket 3 0 p.src body
    if siteOf p.src = c.cfg.site.toNat then (c.count 0x100064).emitCoord k
    else match recordedPath p with
    | some r =>
      let nr := c.nextNr
      (nr.2.count 0x100064).putOut port { k with hops := r.1, route := r.2 } nr.1
    | none => c

/-- The payload of a NACKed packet, its tail restored: none when no tail record matches (R80). -/
def Chan.restoreTail (c : Chan) (p : Packet) : Option (Packet × Chan) :=
  if p.length.toNat ≤ 8160 then some (p, c)
  else
    let hit (t : TailRec) : Bool := t.src == p.src && t.dest == p.dest && t.tc == p.tc && decide (t.length = p.length.toNat)
      && decide (t.crc = crc32c (p.payload.take 8160))
    match c.fab.tails.find? hit with
    | some t => some ({ p with payload := p.payload.take 8160 ++ t.tail },
        { c with fab := { c.fab with tails := eraseFirst hit c.fab.tails } })
    | none => none

/-- NACKs of one packet so far. -/
def Chan.nackCount (c : Chan) (p : Packet) : Nat × Chan :=
  let crc := crc32c (p.payload.take 8160)
  let same (r : Coord × BitVec 40 × BitVec 2 × Nat × BitVec 32 × Nat) : Bool :=
    r.1 == p.src && r.2.1 == p.dest && r.2.2.1 == p.tc && r.2.2.2.1 == p.length.toNat && decide (r.2.2.2.2.1 = crc)
  let n := (match c.fab.nackRuns.find? same with | some r => r.2.2.2.2.2 | none => 0) + 1
  let rest := eraseFirst same c.fab.nackRuns
  (n, { c with fab := { c.fab with nackRuns := if 4 ≤ n then rest else rest ++ [(p.src, p.dest, p.tc, p.length.toNat, crc, n)] } })

/-- NACK_RECEIVE: a NACK for a packet the channel emitted (R94). One that is too short for its reason block and a header is discarded as
FAB_HDR_BAD (log entry 145), and one for a COORD or MCAST packet, which no entry translates, as FAB_UNREACH (log entry 146). The packet counts
as earlier than any FENCE packet that waits (log entry 148). -/
def Chan.nackReceive (c : Chan) (n : Packet) : Chan :=
  let c := c.releaseOpt ((c.fab.nackIn.find? fun x => decide (x.1 = n)).map fun x => ⟨x.2.1, x.2.2⟩)
  let c := { c with fab := { c.fab with nackIn := eraseFirst (fun x => decide (x.1 = n)) c.fab.nackIn } }
  let reason := beAt n.payload 0 1
  if reason = 0 ∨ 4 < reason ∨ n.payload.length < 32 then c.raise { ev := .fabHdrBad, addr := n.src.toNat }
  else
    let p := pktOf (n.payload.drop 8)
    let c := c.count 0x100068
    if p.kind ≠ 0 then c.unreach p none
    else
      let slot := c.slotByTag (jobTag p.dest) false
      match c.restoreTail p with
      | none => (c.count 0x100080).unreach p slot
      | some (p, c) =>
        match slot with
        | none => c.unreach p none
        | some k =>
          let r := c.nackCount p
          if 4 ≤ r.1 then r.2.unreach p (some k)
          else if r.2.genOf k ≠ p.gen then r.2.emitRankAt p k r.1 0 none
          else r.2.hold p (some k) r.1 true 0 none

/-! ### Multicast (R97–R99) -/

/-- A tree entry of a slot, valid and its own (R98). -/
def Chan.treeEntry (c : Chan) (slot tree : Nat) : Option TreeEntry :=
  match cget? (c.tables (c.genOf slot)).trees tree with
  | some e => if bitOf e 255 && decide (fld e 254 251 = slot) then some e else none
  | none => none

/-- Leaves of a tree entry and the port toward a leaf. -/
def treeMask (e : TreeEntry) : BitVec 64 := BitVec.extractLsb' 128 64 e
def leafPort (e : TreeEntry) (i : Nat) : Nat := fld e (2 * i + 1) (2 * i)

/-- An MCAST packet of the channel's own on a tree: replicated to the leaves of the tree entry that are not fenced, one copy a port
(R97, R99). -/
def Chan.mcast (c : Chan) (slot tree : Nat) (tc : BitVec 2) (body : List Byte) : Chan :=
  match c.treeEntry slot tree with
  | none => c
  | some e =>
    let leaves := (List.range 64).filter fun i => bitOf (treeMask e) i
    let cut := leaves.filter fun i => c.portFenced (leafPort e i)
    let c := c.count 0x100078 cut.length
    let c := c.raiseIf (!cut.isEmpty) { ev := .fabLeafSuppress, slot := slot, value := cut.length, addr := tree }
    (List.range 4).foldl (fun (c : Chan) port =>
      let mine := leaves.filter fun i => leafPort e i == port && !c.portFenced port
      if mine.isEmpty then c
      else
        let mask := mine.foldl (fun a i => a + 2 ^ i) 0
        let job := fld (vget c.ctrl.slots slot).body.jobId 19 0
        let p := c.ownPacket 2 tc (BitVec.ofNat 40 (job * 1048576 + tree)) (beBytes 8 mask ++ body)
        let nr := c.nextNr
        nr.2.putOut port { p with gen := c.genOf slot } nr.1) c

/-! ### The commands -/

/-- NACK_RECEIVE: the NACK, as PACKET_RECEIVE steered it to NACK handling. -/
def execNackReceive (ch : Fin 8) (n : Packet) (s : State) : Out := done (onPath ch (fun c => c.nackReceive n) s)
def execHeldPacketTimeout (ch : Fin 8) (s : State) : Out := done (onPath ch Chan.heldTimeout s)
/-- TAIL_RECORD_EXPIRE: a record is freed 2 × NACK_HOLD after its packet leaves (R80). -/
def execTailRecordExpire (ch : Fin 8) (s : State) : Out :=
  done (onPath ch (fun c =>
    { c with fab := { c.fab with tails := c.fab.tails.filter fun t => match t.leftUs with
      | some l => decide (c.us ≤ l + 2 * c.nackHold)
      | none => true } }) s)
def execFenceHoldExpire (ch : Fin 8) (s : State) : Out := done (onPath ch Chan.flushFences s)

end Sys2Proof.Machine
end

