-- ==== Sys2Proof/Machine/Link.lean ====
section
/-! DEFINITION. Fabric ports: flits, link retry, credits, retraining, the packet layer (The Daeno Fabric Port, R68–R76). -/

namespace Sys2Proof.Machine

open Sys2Proof

/-- Bytes 0–251 of a flit (R71). -/
def flitBody (f : Flit) : List Byte :=
  let w := f.type.toNat * 2 ^ 93 + f.tc.toNat * 2 ^ 91 + f.seq.toNat * 2 ^ 79 + f.ack.toNat * 2 ^ 67 + f.sop.toNat * 2 ^ 62
    + f.credits.toNat * 2 ^ 38 + f.rsvd.toNat
  beBytes 12 w ++ f.payload

/-- A flit with its CRC (R71). -/
def sealFlit (f : Flit) : Flit := { f with crc := crc32c (flitBody f) }

/-- Credits a receiver grants at training (R75). -/
def grantMax : List Nat := [4, 24, 20, 16]

/-- The next flit's CR fields: buffers freed since the last report, at most 63 a class; what is left is reported later. -/
def creditWord (freed : List Nat) : BitVec 24 × List Nat :=
  ((List.range 4).foldl (fun a k => a * 64 + BitVec.ofNat 24 (min 63 (lget 0 freed k))) 0, freed.map fun n => n - min 63 n)

/-- A flit put on the wire with the current ACK and credits; it carries the owed acknowledgement (R72). -/
def putFlit (x : Port) (f : Flit) : Port :=
  let cr := creditWord x.freed
  let f := sealFlit { f with ack := x.rxAck, credits := cr.1 }
  { x with wire := x.wire ++ [f], freed := cr.2, ackOwed := false }

/-- A retrain starts (R70): new DATA flits are held. -/
def Chan.retrain (c : Chan) (p : Nat) (lane : Option (Nat × Nat)) : Chan :=
  let x := c.port p
  let n := fld (c.reg (0x100000 + 4 * p)) 23 16
  let c := c.setPort p { x with state := .retraining, attempt := 1, trainDue := true, resend := none, nakRun := 0, timeouts := 0 }
  let c := c.setReg (0x100000 + 4 * p) (putFld (0 : Word) 23 16 (min 255 (n + 1)))
  c.raise { ev := .fabRetrain, scope := p, value := p, uclass := (lane.map Prod.fst).getD 0xFF, unit := (lane.map Prod.snd).getD 0xFF }

/-- A replay from the oldest unacknowledged flit (R74). -/
def Chan.replay (c : Chan) (p : Nat) : Chan :=
  let x := c.port p
  if x.replay.isEmpty then c else (c.setPort p { x with resend := some 0 }).count (0x100040 + 4 * p)

/-- The distance from one sequence number to a later one. -/
def seqDist (from_ to_ : BitVec 12) : Nat := (to_ - from_).toNat

/-- ACK and credits of a received flit (R72, R75): flits up to ACK leave the replay buffer. -/
def Chan.takeAck (c : Chan) (p : Nat) (f : Flit) : Bool × Chan :=
  let x := c.port p
  let n := match x.replay.head? with
    | some h => if seqDist h.seq f.ack < x.replay.length then seqDist h.seq f.ack + 1 else 0
    | none => 0
  let credits := (List.range 4).map fun k => lget 0 x.credits k + fld f.credits (23 - 6 * k) (18 - 6 * k)
  let x := { x with replay := x.replay.drop n, resend := x.resend.map fun r => r - n, credits := credits }
  if n = 0 then (false, c.setPort p x) else (true, c.setPort p { x with progressUs := c.us, nakRun := 0, timeouts := 0 })

/-! ### The packet layer (R76) -/

/-- A class's packet layer after more bytes: whole packets come out, a pad marker ends the flit, a reserved VER skips to the next flit
with SOP ≠ 31 and is of the class of its flit (R76, R81). -/
def cutPackets (k : BitVec 2) : Nat → List Byte → List Packet × List Byte × Bool
  | 0, bs => ([], bs, false)
  | n + 1, bs =>
    if bs.isEmpty then ([], [], false)
    else
      let ver := beAt bs 0 1 / 64
      if ver = 0 then ([], [], false)
      else if ver ≠ 1 then ([{ ver := BitVec.ofNat 2 ver, tc := k }], [], true)
      else if bs.length < 24 then ([], bs, false)
      else
        let p := pktOf bs
        let size := (24 + p.length.toNat + 7) / 8 * 8
        if bs.length < size then ([], bs, false)
        else
          let r := cutPackets k n (bs.drop size)
          (p :: r.1, r.2)

/-- Receive buffers of a class in use: those of packets that wait for ingress, and of the packet in progress (R75). -/
def rxUsed (x : Port) (k : Nat) : Nat :=
  ((x.rxq.filter fun q => decide (q.1.tc.toNat = k)).map Prod.snd).sum + (lget {} x.reasm k).flits

/-- A receive buffer of a class is free (R75). -/
def rxRoom (x : Port) (k : Nat) : Bool := decide (rxUsed x k < lget 0 grantMax k)

/-- Buffers of class `k` freed. -/
def freeFlits (x : Port) (k n : Nat) : Port := { x with freed := x.freed.set k (lget 0 x.freed k + n) }

/-- A flit accepted in order reaches the packet layer (R73, R76). Its buffer is freed when the packet whose last byte it holds is taken. -/
def takePayload (x : Port) (f : Flit) : Port :=
  let k := f.tc.toNat
  let r := lget {} x.reasm k
  if r.skip && decide (f.sop = 31) then freeFlits x k 1
  else
    let start := if r.skip || r.bytes.isEmpty then 8 * (if f.sop = 31 then 30 else f.sop.toNat) else 0
    let out := cutPackets f.tc 31 (r.bytes ++ f.payload.drop start)
    let flits := r.flits + 1
    let keep := if out.2.1.isEmpty then 0 else 1
    match out.1 with
    | [] =>
      let left := if out.2.1.isEmpty then 0 else flits
      { freeFlits x k (flits - left) with reasm := x.reasm.set k { bytes := out.2.1, skip := out.2.2, flits := left } }
    | _ =>
      let last := out.1.length - 1
      let ps := out.1.zipIdx.map fun (pi : Packet × Nat) => (pi.1, if pi.2 = last then flits - keep else 0)
      { x with rxq := x.rxq ++ ps, reasm := x.reasm.set k { bytes := out.2.1, skip := out.2.2, flits := keep } }

/-! ### Receiving and sending flits -/

/-- FLIT_RECEIVE (R73). A port that is down takes no flit of any kind (log entry 149). A new DATA flit of a class with no free buffer is
discarded as if it had not come (log entry 87). -/
def Chan.flitReceive (c : Chan) (p : Nat) (f : Flit) : Chan :=
  let x := c.port p
  if x.state = .down then c
  else if f.crc ≠ crc32c (flitBody f) ∨ 4 ≤ f.type.toNat then
    let c := c.setPort p { x with nakSent := true, nakDue := true }
    (c.count (0x100050 + 4 * p)).raise { ev := .fabCrc, value := p, scope := p }
  else
    let r := c.takeAck p f
    let c := r.2
    let x := c.port p
    match f.type.toNat with
    | 0 =>
      if f.seq = x.rxAck + 1 then
        if rxRoom x f.tc.toNat then c.setPort p (takePayload { x with rxAck := f.seq, nakSent := false, ackOwed := true } f) else c
      else if seqDist f.seq x.rxAck ≤ 1023 then c
      else if x.nakSent then c
      else c.setPort p { x with nakSent := true, nakDue := true }
    | 1 => c
    | 2 =>
      let c := c.setPort p { x with nakRun := if r.1 then 0 else x.nakRun + 1 }
      if 8 ≤ (c.port p).nakRun ∧ x.state = .up then c.retrain p none else c.replay p
    | _ => if x.state = .up then c.retrain p none else c

/-- REPLAY_TIMEOUT: no acknowledgement progress for 20 µs while flits are outstanding (R74). -/
def Chan.replayTimeout (c : Chan) (p : Nat) : Chan :=
  let x := c.port p
  if x.state = .up ∧ ¬x.replay.isEmpty ∧ x.progressUs + 20 < c.us then
    if 4 ≤ x.timeouts + 1 then c.retrain p none
    else (c.setPort p { x with timeouts := x.timeouts + 1, progressUs := c.us }).replay p
  else c

/-- The class whose DATA flit goes next: the lowest with bytes to send and a credit. -/
def dataClass (x : Port) : Option Nat :=
  (List.range 4).find? fun k =>
    decide (0 < lget 0 x.credits k) && (!(lget [] x.cut k).isEmpty || x.txq.any fun q => decide (q.tc.toNat = k))

/-- The bytes of a packet as they go into flits: padded to 8 bytes. -/
def wireBytes (p : Packet) : List Byte :=
  let b := pktBytes p
  b ++ List.replicate ((8 - b.length % 8) % 8) 0

/-- Packets of a class added to a flit while it has room: payload, bytes left of the last packet, and the packets left. -/
def fillFlit (k : Nat) : Nat → List Byte → List Packet → List Byte × List Byte × List Packet
  | 0, bs, q => (bs.take 240, bs.drop 240, q)
  | n + 1, bs, q =>
    if 240 ≤ bs.length then (bs.take 240, bs.drop 240, q)
    else match q.find? fun p => decide (p.tc.toNat = k) with
      | some p => fillFlit k n (bs ++ wireBytes p) (eraseFirst (fun x => decide (x.tc.toNat = k)) q)
      | none => (bs ++ List.replicate (240 - bs.length) 0, [], q)

/-- A DATA flit of a class (R71, R76). -/
def dataFlit (x : Port) (k : Nat) : Port :=
  let cut := lget [] x.cut k
  let sop := if 240 ≤ cut.length then 31 else cut.length / 8
  let r := fillFlit k 31 cut x.txq
  let f : Flit := { type := 0, tc := BitVec.ofNat 2 k, seq := x.txSeq, sop := BitVec.ofNat 5 sop, payload := r.1 }
  let x := { x with txq := r.2.2, cut := x.cut.set k r.2.1, credits := x.credits.set k (lget 0 x.credits k - 1)
                    txSeq := x.txSeq + 1, replay := x.replay ++ [f] }
  putFlit x f

/-- Of a port before and after a DATA flit of class `k`: the packets whose last byte went out in it, and the packet whose bytes are left (R80). -/
def sentWhole (x y : Port) (k : Nat) : List Packet × Option Packet :=
  let mine (z : Port) : List Packet := z.txq.filter fun p => decide (p.tc.toNat = k)
  let taken := (mine x).take ((mine x).length - (mine y).length)
  let old := lget none x.cutOf k
  if (lget [] y.cut k).isEmpty then (old.toList ++ taken, none)
  else match taken.getLast? with
    | some p => (old.toList ++ taken.dropLast, some p)
    | none => ([], old)

/-- FLIT_SEND: a NAK that is due, a TRAIN flit in a retrain, the next flit of a replay, a DATA flit with a credit and room in the
replay buffer, or an IDLE flit (R72–R75). The order among these, and among classes, is the model's. -/
def Chan.flitSend (c : Chan) (p : Nat) : Chan :=
  let x := c.port p
  if x.state = .down then c
  else if x.nakDue then c.setPort p (putFlit { x with nakDue := false } { type := 2 })
  else if x.trainDue then c.setPort p (putFlit { x with trainDue := false } { type := 3 })
  else if x.state ≠ .up then c
  else match x.resend.bind fun r => (x.replay[r]?).map fun f => (r, f) with
    | some (r, f) =>
      c.setPort p (putFlit { x with resend := if r + 1 < x.replay.length then some (r + 1) else none } f)
    | none =>
      match dataClass x with
      | some k =>
        if x.replay.length < 1024 then
          let first := x.replay.isEmpty
          let y := dataFlit { x with resend := none } k
          let s := sentWhole x y k
          let y := { y with cutOf := y.cutOf.set k s.2, progressUs := if first then c.us else y.progressUs }
          s.1.foldl Chan.tailLeft (c.setPort p y)
        else c.setPort p (putFlit { x with resend := none } { type := 1 })
      | none => c.setPort p (putFlit { x with resend := none } { type := 1 })

/-- ACK_IDLE_DUE: an IDLE flit carries an ACK that no other flit has carried (R72). -/
def Chan.ackIdle (c : Chan) (p : Nat) : Chan :=
  let x := c.port p
  if x.ackOwed ∧ x.state ≠ .down then c.setPort p (putFlit x { type := 1 }) else c

/-! ### Retraining (R68–R70) -/

/-- Lanes of a port, 0–15. -/
def portLanes (p : Nat) : List Nat := [4 * p, 4 * p + 1, 4 * p + 2, 4 * p + 3]

/-- The bad lanes of a direction as a training of port `p` finds them: of its own lanes, and of the spare where it is free or stands in for one of
them, those that are fenced or that fail; other ports' lanes as they were (R68, R69). -/
def trainedBad (cur : Option Nat) (old out fail : BitVec 17) (p : Nat) : BitVec 17 :=
  let spareMine := match cur with | some l => decide (l / 4 = p) | none => true
  (portLanes p ++ (if spareMine then [16] else [])).foldl (fun (w : BitVec 17) l => putBit w l (bitOf out l || bitOf fail l)) old

/-- The spare of a direction after a training of port `p`: a spare of another port stays there; the spare stands in for the port's lane that it
stands in for already, or for its lowest bad lane, while it is good itself (R69). -/
def spareLane (cur : Option Nat) (bad : BitVec 17) (p : Nat) : Option Nat :=
  let lowest := (portLanes p).find? fun l => bitOf bad l
  match cur with
  | some l => if l / 4 ≠ p then some l else if bitOf bad 16 then none else if bitOf bad l then some l else lowest
  | none => if bitOf bad 16 then none else lowest

/-- Lanes of a direction that a port can use. -/
def usable (sp : Option Nat) (bad : BitVec 17) (p : Nat) : Nat :=
  ((portLanes p).filter fun l => !bitOf bad l || sp == some l).length

/-- Lanes of a direction that are fenced: class 3 transmit, class 4 receive (R497). -/
def Chan.lanesOut (c : Chan) (cls : Nat) : BitVec 17 :=
  (List.range 17).foldl (fun (w : BitVec 17) l => putBit w l (unitOut (c.unit cls l))) 0

/-- The credits that this end grants at a training: the buffers of each class that are free (R75). -/
def grantsOf (x : Port) : List Nat := (List.range 4).map fun k => lget 0 grantMax k - rxUsed x k

/-- Width for a number of usable lanes (R68). -/
def widthFor (n : Nat) : Nat := if 4 ≤ n then 4 else if 2 ≤ n then 2 else n

/-- RETRAIN_ATTEMPT_END: an attempt ends with the lanes that failed training and the credits that the far receiver grants (R69, R70,
R75). Packets held for want of a port are sent once one is free (R79). -/
def Chan.attemptEnd (c : Chan) (p : Nat) (locked : Bool) (txFail rxFail : BitVec 17) (grant : List Nat) : Chan :=
  let x := c.port p
  if x.state = .up ∨ x.state = .down then c
  else
    let txBad := trainedBad c.fab.txSpareFor c.fab.txBad (c.lanesOut 3) txFail p
    let rxBad := trainedBad c.fab.rxSpareFor c.fab.rxBad (c.lanesOut 4) rxFail p
    let tx := spareLane c.fab.txSpareFor txBad p
    let rx := spareLane c.fab.rxSpareFor rxBad p
    let width := min (widthFor (usable tx txBad p)) (widthFor (usable rx rxBad p))
    let c0 := c
    let c := { c with fab := { c.fab with txBad := txBad, rxBad := rxBad, txSpareFor := tx, rxSpareFor := rx } }
    let c := c.raiseIf (tx.isSome && decide (tx ≠ c0.fab.txSpareFor)) { ev := .fabLaneSpared, uclass := 3, unit := tx.getD 0xFF, value := p }
    let c := c.raiseIf (rx.isSome && decide (rx ≠ c0.fab.rxSpareFor)) { ev := .fabLaneSpared, uclass := 4, unit := rx.getD 0xFF, value := p }
    if locked ∧ 0 < width then
      let credits := (List.range 4).map fun k => min (lget 0 grantMax k) (lget 0 grant k)
      let x := { x with state := .up, width := width, attempt := 0, trainDue := false, credits := credits, freed := [0, 0, 0, 0],
                        granted := grantsOf x, progressUs := c.us, resend := if x.replay.isEmpty then none else some 0 }
      let c := (c.setPort p x).count (0x100040 + 4 * p) (if x.replay.isEmpty then 0 else 1)
      let c := { c with fab := { c.fab with fenced := putBit c.fab.fenced p false } }
      c.resendHeld fun h => !h.forGen
    else if x.attempt < 3 then c.setPort p { x with attempt := x.attempt + 1, trainDue := true }
    else
      let c := c.setPort p { x with state := .down, width := 0, attempt := 0, progressUs := c.us }
      let c := { c with fab := { c.fab with fenced := putBit c.fab.fenced p true } }
      c.raise { ev := .fabPortDown, scope := p, value := p }

/-- PORT_TRAIN_RETRY: a port that is down tries again to train once every 1 s, with up to three attempts as in R70 (log entry 150). -/
def Chan.trainRetry (c : Chan) (p : Nat) : Chan :=
  let x := c.port p
  if x.state = .down ∧ x.progressUs + 1000000 < c.us then
    c.setPort p { x with state := .training, attempt := 1, trainDue := true }
  else c

/-! ### The commands -/

def execFlitReceive (ch : Fin 8) (port : Fin 4) (f : Flit) (s : State) : Out := done (onLive ch (fun c => c.flitReceive port f) s)
def execReplayTimeout (ch : Fin 8) (port : Fin 4) (s : State) : Out := done (onLive ch (fun c => c.replayTimeout port) s)
def execAckIdleDue (ch : Fin 8) (port : Fin 4) (s : State) : Out := done (onLive ch (fun c => c.ackIdle port) s)
def execFlitSend (ch : Fin 8) (port : Fin 4) (s : State) : Out := done (onLive ch (fun c => c.flitSend port) s)
/-- PORT_RETRAIN: a lane is fenced or lock is lost on a port that is up (R70); `lane` names a lane that caused it by class and unit. -/
def execPortRetrain (ch : Fin 8) (port : Fin 4) (lane : Option (Bool × Fin 17)) (s : State) : Out :=
  done (onLive ch (fun c =>
    if (c.port port).state = .up then c.retrain port (lane.map fun l => (if l.1 then 3 else 4, l.2.val)) else c) s)
def execRetrainAttemptEnd (ch : Fin 8) (port : Fin 4) (locked : Bool) (txFail rxFail : BitVec 17) (grant : List Nat) (s : State) : Out :=
  done (onLive ch (fun c => c.attemptEnd port locked txFail rxFail grant) s)
def execPortTrainRetry (ch : Fin 8) (port : Fin 4) (s : State) : Out := done (onLive ch (fun c => c.trainRetry port) s)

end Sys2Proof.Machine
end

