-- ==== Sys2Proof/Machine/Sched.lean ====
section
/-! DEFINITION. Flows, shapers, fair queueing, selection, and the policers (Classes, Scheduling and Policing, R261–R287). -/

namespace Sys2Proof.Machine

open Sys2Proof

/-- The scheduler changed. -/
def Chan.modSch (c : Chan) (f : Sch → Sch) : Chan := { c with sch := f c.sch }

/-- A slot of the channel. -/
def Chan.slot (c : Chan) (k : Nat) : Slot := vget c.ctrl.slots k
def Chan.putSlot (c : Chan) (k : Nat) (s : Slot) : Chan := { c with ctrl := { c.ctrl with slots := vset c.ctrl.slots k s } }

/-- MODE of a slot's TUs: 2 in Col, else 1 (R321). -/
def Chan.tuMode (c : Chan) (k : Nat) : Nat := if (c.slot k).mode = .col then 2 else 1

/-! ### Flows (R263, R264, R272) -/

/-- A flow. -/
def Chan.flow (c : Chan) (slot cls : Nat) : Flow := cget {} c.sch.flows (4 * slot + cls)
def Chan.setFlow (c : Chan) (slot cls : Nat) (f : Flow) : Chan :=
  c.modSch fun s => { s with flows := cset {} s.flows (4 * slot + cls) f }

/-- Bytes the shapers count for an object (R270). -/
def counted (o : LineObj) : Nat := o.bytes.length

/-- An object that a TC0 TU of 1,024 bytes cannot hold (R262). -/
def tooLong (cls : Nat) (o : LineObj) : Bool := decide (cls = 0) && decide (1024 < 12 + 4 + o.bytes.length)

/-- An object joins its flow; an empty flow takes S = V_c (R264, R272). DESIGN CHOICE (log entry 160): one that is too long for its class is
discarded as FAB_HDR_BAD, its buffer freed. -/
def Chan.enqueue (c : Chan) (slot cls : Nat) (o : LineObj) : Chan :=
  if tooLong cls o then ((c.releaseOpt o.buf).count 0x100060).raise { ev := .fabHdrBad, slot := slot }
  else
  let f := c.flow slot cls
  let tag := if f.objs.isEmpty then lget 0 c.sch.vtime cls else f.tag
  c.setFlow slot cls { f with objs := f.objs ++ [o], tag := tag }

/-- A profile register of a slot's class: WEIGHT, PEAK, BURST (R289). -/
def Chan.prof (c : Chan) (slot cls : Nat) : Word := c.reg (0x700100 + 16 * ((c.slot slot).body.profile.toNat % 16) + 4 * cls)

/-- Class peak and burst (R288). -/
def Chan.clsPeak (c : Chan) (cls : Nat) : Nat := fld (c.reg (0x700000 + 4 * cls)) 31 23
def Chan.clsBurst (c : Chan) (cls : Nat) : Nat := fld (c.reg (0x700000 + 4 * cls)) 22 15

/-- A class is open (R268). -/
def Chan.clsOpen (c : Chan) (cls : Nat) : Bool := decide (256 ≤ c.clsPeak cls) || decide (0 < lget 0 c.sch.classB cls)

/-- A flow is eligible: not empty, and its slot shaper above 0 or none (R270). -/
def Chan.eligible (c : Chan) (slot cls : Nat) : Bool :=
  let f := c.flow slot cls
  !f.objs.isEmpty && (decide (fld (c.prof slot cls) 23 8 = 0) || decide (0 < f.bucket))

/-! ### System TUs (R265) -/

/-- A body padded so that the TU has at least 64 bytes (R275). -/
def padBody (bs : List Byte) : List Byte := padTo 52 bs

/-- A system TU of class TC0, of which the shapers count `n` bytes, joins the system FIFO, or waits at the head of the sequencer's output
while that is full (R265). -/
def Chan.sysTu (c : Chan) (slot : Nat) (body : List Byte) (n : Nat) : Chan :=
  let t : Tu := { tc := 0, slot := slot, sys := true, body := padBody body, bytes := n }
  if !c.sch.stalled.isEmpty then c.modSch fun s => { s with stalled := s.stalled ++ [t] }
  else if c.sch.sysFifo.length < 64 then c.modSch fun s => { s with sysFifo := s.sysFifo ++ [t] }
  else c.modSch fun s => { s with stalled := [t], stallUs := c.us }

/-- A control object for the peer's sequencer as a system TU (R322 OTYPE 0x3). -/
def Chan.sysControl (c : Chan) (bytes : List Byte) : Chan := c.sysTu 0 (objBytes 3 bytes) bytes.length

/-- A stall of the sequencer has left an accepted request unanswered for 100 ms (R265). -/
def Chan.stallLate (c : Chan) : Bool :=
  !c.sch.stalled.isEmpty && (!c.ctrl.seqIn.isEmpty || !c.ctrl.peerIn.isEmpty) && decide (c.sch.stallUs + 100000 < c.us)

/-- SYSTEM_FIFO_ROOM: the TU that waits enters the FIFO once there is room (R265). -/
def Chan.fifoRoom (c : Chan) : Chan :=
  match c.sch.stalled with
  | t :: rest => if c.sch.sysFifo.length < 64 then c.modSch fun s => { s with sysFifo := s.sysFifo ++ [t], stalled := rest } else c
  | [] => c

/-! ### Retransmission records (R126, R331) -/

/-- RTX_WIN in µs (R331). -/
def Chan.rtxWin (c : Chan) : Nat := 2 * c.rttUs + fld (c.reg 0x80000C) 31 16

/-- A record is inside its window (R331). -/
def Chan.inWindow (c : Chan) (r : RtxRec) : Bool := r.queued || decide (c.line.upUs ≤ r.sentUs + c.rtxWin)

/-- Where a record of `n` bytes goes in the ring from a place on: behind the region's metadata, in units in use, and never across the end
(R126, R132, R135). -/
def Chan.ringFrom (c : Chan) (pos n : Nat) : Nat :=
  let base := c.regionBase 0
  let at_ := c.skipBad base n 16385 (max 65536 pos)
  if at_ + n ≤ c.regionSize 0 then at_ else c.skipBad base n 16385 65536

/-- Where the next record of `n` bytes goes in the ring. -/
def Chan.ringAt (c : Chan) (n : Nat) : Nat := c.ringFrom c.line.ringPos n

/-- Bytes of a TU with its header. -/
def tuLen (t : Tu) : Nat := 12 + t.body.length

/-- The place in the ring behind the records of the TUs that wait for the cipher engine. -/
def Chan.ringNext (c : Chan) : Nat :=
  c.sch.toCipher.foldl (fun pos x => match x.tu with | some t => c.ringFrom pos (16 + tuLen t) + (16 + tuLen t) | none => pos) c.line.ringPos

/-- The next TU of `n` bytes would overwrite a record that is inside the window (R126). -/
def Chan.rtxBlocked (c : Chan) (n : Nat) : Bool :=
  let p := c.ringFrom c.ringNext n
  c.line.rtx.any fun r => c.inWindow r && decide (r.pos < p + n) && decide (p < r.pos + r.size)

/-! ### Selection (R271–R277) -/

/-- What R274 selects. -/
inductive Pick where
  | sys
  | resend (first : Nat)
  | flow (slot cls : Nat)
  deriving DecidableEq, Repr, Inhabited

/-- The eligible flow of a class with the smallest tag, ties to the lower slot (R271). -/
def Chan.bestFlow (c : Chan) (cls : Nat) : Option Nat :=
  ((List.range 16).filter fun k => c.eligible k cls).foldl (fun (m : Option Nat) k => match m with
    | some j => if (c.flow k cls).tag < (c.flow j cls).tag then some k else m
    | none => some k) none

/-- The selection of one class (R274). -/
def Chan.pickClass (c : Chan) (cls : Nat) : Option Pick :=
  if !c.clsOpen cls then none
  else if cls = 0 ∧ ¬c.sch.sysFifo.isEmpty then some .sys
  else match c.sch.resends.find? fun r => r.1 == cls with
    | some r => some (.resend r.2)
    | none => (c.bestFlow cls).map fun k => .flow k cls

/-- The selection among the classes below `n` (R274). -/
def Chan.pick (c : Chan) (n : Nat) : Option Pick :=
  if c.line.state ≠ .up ∨ !c.mayEncrypt then none
  else (List.range n).foldl (fun (m : Option Pick) cls => if m.isSome then m else c.pickClass cls) none

/-- The objects a TU takes: the oldest, and those after it that fit in 8,256 bytes with the header, 1,024 for TC0; one for TC2 (R262,
R275). -/
def takeObjs (cls room : Nat) : List LineObj → List LineObj
  | [] => []
  | o :: rest =>
    let n := 4 + o.bytes.length
    if cls = 2 then [o] else if n ≤ room then o :: takeObjs cls (room - n) rest else []

/-- OTYPE of an object (R322). -/
def otype : ObjKind → Nat
  | .packet => 1 | .coded => 2 | .control => 3 | .collective => 0

/-- The body of a TU of a class (R275, R322). -/
def tuBody (cls : Nat) (os : List LineObj) : List Byte :=
  padBody (if cls = 2 then os.flatMap LineObj.bytes else os.flatMap fun o => objBytes (otype o.kind) o.bytes)

/-- The objects of the next TU of a flow; the oldest always goes. -/
def nextObjs (cls : Nat) (os : List LineObj) : List LineObj :=
  match os with
  | [] => []
  | o :: rest =>
    let lim := if cls = 0 then 1024 else 8256
    if cls = 2 then [o] else o :: takeObjs cls (lim - 12 - (4 + o.bytes.length)) rest

/-- The class bucket charged (R268). -/
def Chan.chargeClass (c : Chan) (cls n : Nat) : Chan :=
  c.modSch fun s => { s with classB := s.classB.set cls (lget 0 s.classB cls - 8 * (n : Int)) }

/-- 256-byte sections of an element whose TU has `len` bytes (R323): the tag and, in a re-encrypted re-send, ORIG are part of it. -/
def sectionsOf (len ext : Nat) : Nat := (len + ext + 16 + 255) / 256

/-- A TU taken from a flow, the flow's tag and buckets moved on (R270, R271, R275). -/
def Chan.takeFlow (c : Chan) (k cls : Nat) : Tu × Chan :=
  let f := c.flow k cls
  let os := nextObjs cls f.objs
  let n := (os.map counted).foldl (· + ·) 0
  let rest := f.objs.drop os.length
  let w := max 1 (fld (c.prof k cls) 31 24)
  let v := f.tag
  let tag := if rest.isEmpty then f.tag else f.tag + BitVec.ofNat 64 ((16 * n + w - 1) / w)
  let peak := fld (c.prof k cls) 23 8
  let bucket := if peak = 0 then f.bucket else f.bucket - 8 * (n : Int)
  let c := (c.setFlow k cls { objs := rest, tag := tag, bucket := bucket }).chargeClass cls n
  let mode := match os with | o :: _ => o.mode | [] => c.tuMode k
  ({ tc := cls, slot := k, mode := mode, body := tuBody cls os, bytes := n, buf := os.filterMap LineObj.buf },
    c.modSch fun s => { s with vtime := s.vtime.set cls v })

/-- A pick carried out: what goes to the cipher engine, with the boundary at which it suspends a TC3 TU. -/
def Chan.take (c : Chan) (p : Pick) (susp : Option Nat) : Chan :=
  let push (c : Chan) (x : Selected) : Chan := c.modSch fun s => { s with toCipher := s.toCipher ++ [x] }
  let open_ (c : Chan) (cls len ext : Nat) : Chan :=
    if cls = 3 ∧ 1 < sectionsOf len ext then c.modSch fun s => { s with open3 := some { sections := sectionsOf len ext } } else c
  match p with
  | .sys =>
    match c.sch.sysFifo with
    | t :: rest =>
      push (((c.modSch fun s => { s with sysFifo := rest }).chargeClass 0 (t.bytes)).count 0x700040) { tu := some t, susp := susp }
    | [] => c
  | .resend first =>
    match c.line.rtx.find? fun r => r.first == first with
    | some r =>
      let c := c.modSch fun s => { s with resends := s.resends.filter fun q => q.2 ≠ first }
      open_ (push ((c.chargeClass r.tu.tc (r.tu.bytes)).count 0x700044) { resend := some first, susp := susp }) r.tu.tc (tuLen r.tu)
        (if r.first = r.latest then 0 else 6)
    | none => c.modSch fun s => { s with resends := s.resends.filter fun q => q.2 ≠ first }
  | .flow k cls =>
    let r := c.takeFlow k cls
    open_ (push (r.2.count 0x700040) { tu := some r.1, susp := susp }) cls (tuLen r.1) 0

/-- Bytes a pick would add to the retransmission store: a first send takes a new record (R126). -/
def Chan.pickBytes (c : Chan) (p : Pick) : Option Nat :=
  match p with
  | .sys => c.sch.sysFifo.head?.map fun t => 16 + tuLen t
  | .resend _ => none
  | .flow k cls => some (16 + 12 + (tuBody cls (nextObjs cls (c.flow k cls).objs)).length)

/-- The retransmission store is full for a pick: it cannot take its record, or, for a re-send, it still cannot take the one that found it
full (R126, R274). -/
def Chan.storeFull (c : Chan) (p : Pick) : Bool :=
  match c.pickBytes p with
  | some n => c.rtxBlocked n
  | none => c.line.rtxFull && c.rtxBlocked c.line.rtxNeed

/-- The pick of R274 among the classes below `n`: none while the store is full for it, which is counted once by MEM_RTX_FULL (R126). -/
def Chan.choose (c : Chan) (n : Nat) : Option Pick × Chan :=
  match c.pick n with
  | none => (none, c)
  | some p =>
    if c.storeFull p then
      (none, { c.raiseIf (!c.line.rtxFull) { ev := .memRtxFull } with
        line := { c.line with rtxFull := true, rtxNeed := (c.pickBytes p).getD c.line.rtxNeed } })
    else (some p, { c with line := { c.line with rtxFull := false } })

/-- A parity mismatch in reading the picked flow's oldest object: it is discarded and its buffer withdrawn (R110). -/
def Chan.dropParity (c : Chan) (p : Pick) : Chan :=
  match p with
  | .flow k cls =>
    let f := c.flow k cls
    match f.objs with
    | o :: rest =>
      let c := c.setFlow k cls { f with objs := rest }
      match o.buf with | some b => c.parity b k | none => c
    | [] => c
  | _ => c

/-- SCHEDULER_SELECT: one selection (R274), or, while a TC3 TU is sent, one look at its next 256-byte boundary (R277). -/
def Chan.select (c : Chan) (parity : Bool) : Chan :=
  match c.sch.open3 with
  | some o =>
    let r := c.choose 2
    match r.1 with
    | some p =>
      if parity then r.2.dropParity p
      else
        let c := if o.suspended then r.2 else r.2.count 0x700048
        (c.modSch fun s => { s with open3 := some { o with suspended := true } }).take p (some o.at_)
    | none =>
      let next := if o.at_ + 1 < o.sections then some { o with at_ := o.at_ + 1, suspended := false } else none
      r.2.modSch fun s => { s with open3 := next }
  | none =>
    let r := c.choose 4
    match r.1 with
    | some p => if parity then r.2.dropParity p else r.2.take p none
    | none => r.2

/-! ### Refills and the line rate (R267–R270, R282) -/

/-- Class and slot buckets at a 1 µs tick, and the R_line the floors are set at (R267, R268, R270). -/
def Chan.refillShapers (c : Chan) : Chan :=
  let r := c.sch.rline
  let cls := (List.range 4).map fun k =>
    min ((c.clsBurst k * 32768 : Nat) : Int) (lget 0 c.sch.classB k + (r * 1000 * c.clsPeak k / 256 : Nat))
  let c := c.modSch fun s => { s with classB := cls, tickRline := r }
  (List.range 64).foldl (fun (c : Chan) i =>
    let k := i / 4
    let w := c.prof k (i % 4)
    if (c.slot k).mode = .free ∨ fld w 23 8 = 0 then c
    else
      let f := c.flow k (i % 4)
      c.setFlow k (i % 4) { f with bucket := min ((fld w 7 0 * 32768 : Nat) : Int) (f.bucket + (fld w 23 8 * 100 : Nat)) }) c

/-- R_line taken from the two LINE_NET values; a change raises SCH_RLINE_CHANGE (R267). -/
def Chan.setRline (c : Chan) : Chan :=
  let r := min (fld (c.reg 0x44) 31 20) c.sch.peerNet
  if r = c.sch.rline then c
  else (c.modSch fun s => { s with rline := r }).raise { ev := .schRlineChange, value := r }

/-! ### Policers (R279–R287) -/

/-- Fields of a policer entry (R280): its 32 bytes as one number, byte 0 most significant. -/
def polWord (e : PolicerEntry) (i : Nat) : Word := BitVec.extractLsb' (32 * (7 - i)) 32 e
def polValid (e : PolicerEntry) : Bool := bitOf (polWord e 0) 31
def polSlot (e : PolicerEntry) : Nat := fld (polWord e 0) 30 27
def polClasses (e : PolicerEntry) : Nat := fld (polWord e 0) 26 23
def polPorts (e : PolicerEntry) : Nat := fld (polWord e 0) 22 19
def polYellow (e : PolicerEntry) : Nat := fld (polWord e 0) 18 17
def polRed (e : PolicerEntry) : Nat := fld (polWord e 0) 16 15
def polOvh (e : PolicerEntry) : Int := BitVec.toInt (BitVec.extractLsb' 0 8 (polWord e 0))
def polCir (e : PolicerEntry) : Nat := fld (polWord e 1) 19 0
def polPir (e : PolicerEntry) : Nat := fld (polWord e 2) 19 0
def polCbs (e : PolicerEntry) : Nat := fld (polWord e 3) 23 0
def polPbs (e : PolicerEntry) : Nat := fld (polWord e 4) 23 0

/-- Colour of a packet. -/
inductive Colour where
  | green | yellow | red
  deriving DecidableEq, Repr, Inhabited

/-- The colour-blind two-rate three-colour marker over buckets in bits (R282). -/
def meter (b : Buckets) (bytes : Nat) : Colour × Buckets :=
  let n : Int := 8 * bytes
  if b.tp < n then (.red, b)
  else if b.tc < n then (.yellow, { b with tp := b.tp - n })
  else (.green, { tc := b.tc - n, tp := b.tp - n })

/-- Length a policer counts (R282). -/
def polBytes (ovh : Int) (p : Packet) : Nat := (max 1 (24 + (p.length.toNat : Int) + ovh)).toNat

/-- The generation a packet from the fabric is judged under (R89). -/
def Chan.readGen (c : Chan) (slot : Nat) (gen : Bool) : Bool := if c.genSaddle slot then gen else c.genOf slot

/-- The policer entry that meters a packet of a slot on a port (R279). -/
def Chan.policerOf (c : Chan) (slot port : Nat) (p : Packet) : Option (Nat × PolicerEntry) :=
  (c.tables (c.readGen slot p.gen)).policers.find? fun e =>
    polValid e.2 && polSlot e.2 == slot && (polClasses e.2).testBit p.tc.toNat && (polPorts e.2).testBit port

/-- Check 3 of R81: whether the packet passes, with counts and events (R279–R287). -/
def Chan.police (c : Chan) (port : Nat) (p : Packet) : Bool × Chan :=
  if p.kind = 1 ∨ p.kind = 3 then
    let m := meter c.sch.sysPol (polBytes 0 p)
    let c := c.modSch fun s => { s with sysPol := m.2 }
    if m.1 = .red then
      (false, ((c.count 0x700050).count 0x100060).raise { ev := .schSysPolDrop, addr := p.src.toNat })
    else (true, c)
  else match c.slotByTag (jobTag p.dest) false with
  | none => (true, c)
  | some k =>
    match c.policerOf k port p with
    | none => (true, c)
    | some (i, e) =>
      let m := meter (cget {} c.sch.pol i) (polBytes (polOvh e) p)
      let c := c.modSch fun s => { s with pol := cput s.pol i m.2 }
      let c := c.count (0x710000 + 16 * i + (match m.1 with | .green => 0 | .yellow => 4 | .red => 8))
      let act := match m.1 with | .green => 0 | .yellow => polYellow e | .red => polRed e
      let half := match poolFor (24 + p.length.toNat) with
        | some q => decide (2 * shareUse (c.pool q) (.slot k) < c.slotCap k q)
        | none => false
      if act == 0 || (act == 2 && half) then (true, c)
      else (false, ((c.count (0x71000C + 16 * i)).count 0x100060).raise { ev := .schPolDrop, slot := k, value := i, scope := i })

/-- Policer buckets at a 1 µs tick (R282, R287). An index holds buckets while its entry is valid in the owner's current generation. -/
def Chan.refillPolicers (c : Chan) : Chan :=
  let fill (b : Buckets) (cir pir cbs pbs : Nat) : Buckets :=
    { tc := min ((cbs * 8 : Nat) : Int) (b.tc + cir), tp := min ((pbs * 8 : Nat) : Int) (b.tp + pir) }
  let entry (i : Nat) : Option PolicerEntry :=
    match cget? c.fab.gen0.policers i, cget? c.fab.gen1.policers i with
    | some a, some b => some (if c.genOf (polSlot b) && polValid b then b else if polValid a then a else b)
    | some a, none => some a
    | none, b => b
  let rate := c.reg 0x700020
  let burst := c.reg 0x700024
  let c := c.modSch fun s => { s with pol := s.pol.map fun q => match entry q.1 with
    | some e => (q.1, fill q.2 (polCir e) (polPir e) (polCbs e) (polPbs e))
    | none => q }
  c.modSch fun s => { s with sysPol := fill s.sysPol (fld rate 15 0 * 10) (fld rate 31 16 * 10) (fld burst 15 0 * 1024) (fld burst 31 16 * 1024) }

/-! ### The commands -/

/-- SCHEDULER_SELECT; `parity` tells of a mismatch found in reading the picked object (R110). -/
def execSchedulerSelect (ch : Fin 8) (parity : Bool) (s : State) : Out := done (onPath ch (fun c => c.select parity) s)
def execSystemFifoRoom (ch : Fin 8) (s : State) : Out := done (onPath ch Chan.fifoRoom s)

end Sys2Proof.Machine
end

