-- ==== Sys2Proof/Machine/LineTx.lean ====
section
/-! DEFINITION. The transmit side of the line: encryption and retransmission records, the element stream, frames, tributary slices, relay
signalling sent (Line Frame, R296–R332; Line Encryption, R392–R399). -/

namespace Sys2Proof.Machine

open Sys2Proof

/-- The line side changed. -/
def Chan.modLine (c : Chan) (f : Line → Line) : Chan := { c with line := f c.line }

/-! ### Sequence numbers (R326) -/

/-- The sequence space. -/
def tsMod : Nat := 281474976710656

/-- `a` comes after `b`: modulo 2⁴⁸, within a distance of 2⁴⁷ (R326). -/
def tsAfter (a b : Nat) : Bool := decide (a ≠ b) && decide ((a + tsMod - b) % tsMod < 140737488355328)

/-- The later of two sequence numbers. -/
def tsMax (a b : Nat) : Nat := if tsAfter a b then a else b

/-! ### The element stream (R323) -/

/-- A run of bytes at the end of the stream. -/
def Chan.push (c : Chan) (s : Seg) : Chan := if s.bytes.isEmpty then c else c.modLine fun l => { l with stream := l.stream ++ [s] }

/-- One more section of the open TC3 element, with the section byte before it. -/
def Chan.section3 (c : Chan) : Chan :=
  match c.line.elem3 with
  | some (rest, n, ts) =>
    let more := rest.drop 256
    let lead : Byte := if c.line.inSusp then 0xC1 else 0xC0
    let c := c.push { bytes := lead :: rest.take 256, ends := if more.isEmpty then some ts else none }
    c.modLine fun l => { l with elem3 := if more.isEmpty then none else some (more, n + 1, ts), inSusp := false }
  | none => c

/-- Sections of the open TC3 element written until `k` of them stand in the stream. -/
def Chan.sections3 (c : Chan) (k : Nat) : Nat → Chan
  | 0 => c
  | f + 1 => match c.line.elem3 with
    | some (_, n, _) => if n < k then (c.section3).sections3 k f else c
    | none => c

/-- The rest of the open TC3 element. -/
def Chan.finish3 (c : Chan) : Chan := c.sections3 64 64

/-- An element written to the stream: a TC3 element begins with its first section; a TC0 or TC1 element sent at boundary `susp`
suspends the open TC3 element there. -/
def Chan.writeElem (c : Chan) (e : Element) (susp : Option Nat) : Chan :=
  let bs := lineElemBytes e
  if e.tc = 3 then
    let c := c.finish3
    let rest := bs.drop 256
    let c := c.push { header := true, bytes := bs.take 256, ends := if rest.isEmpty then some e.tseq else none }
    c.modLine fun l => { l with elem3 := if rest.isEmpty then none else some (rest, 1, e.tseq) }
  else
    let c := match susp with
      | some k =>
        let c := c.sections3 k 64
        match c.line.elem3, c.line.inSusp with
        | some _, false => (c.push { bytes := [0x80] }).modLine fun l => { l with inSusp := true }
        | _, _ => c
      | none => c.finish3
    c.push { header := true, bytes := bs, ends := some e.tseq }

/-! ### Encryption (R392–R399, R331) -/

/-- K_ENC and K_MAC of an epoch secret for a direction. -/
def Chan.sealTu (c : Chan) (k : EpochKeys) (e : Element) : Element := sealElem c.suite k.txEnc k.txMac e

/-- Key of a TU's flow in the PREV table (R326, R327): slot and class, or the system TUs of a class. -/
def flowKey (sys : Bool) (slot tc : Nat) : Nat := if sys then 64 + tc else 4 * slot + tc

/-- The element of a TU under a key epoch and sequence number. -/
def elementOf (t : Tu) (kepoch : BitVec 8) (tseq prev : Nat) (orig : Option Nat) : Element :=
  { tc := BitVec.ofNat 2 t.tc, slot := BitVec.ofNat 4 t.slot, sys := t.sys, rsnd := orig.isSome, len := tuLen t, kepoch := kepoch
    tseq := tseq, mode := BitVec.ofNat 2 t.mode, prev := prev, orig := orig.getD 0, body := t.body, tag := [] }

/-- The TSEQ counter advanced. -/
def Chan.nextTseq (c : Chan) : Nat × Chan := (c.line.tseq, c.modLine fun l => { l with tseq := (l.tseq + 1) % tsMod })

/-- Bytes encrypted under the current epoch (R389, R391). -/
def Chan.addTx (c : Chan) (n : Nat) : Chan := c.modSec fun s => { s with txBytes := s.txBytes + n }

/-- A first send: sequence number, record in the ring, buffers released, element in the stream (R326, R331, R395, R399). -/
def Chan.encryptFirst (c : Chan) (t : Tu) (susp : Option Nat) : Chan :=
  match c.sec.cur with
  | none => c
  | some ep =>
    let r := c.nextTseq
    let k := flowKey t.sys t.slot t.tc
    let prev := match cget? r.2.line.lastFirst k with
      | some p => min 16383 ((r.1 + tsMod - p) % tsMod)
      | none => 0
    let size := 16 + tuLen t
    let pos := r.2.ringAt size
    let job := if t.sys then 0 else (r.2.slot t.slot).body.jobId
    let rc : RtxRec := { first := r.1, latest := r.1, kepoch := ep.num, prev := prev, tu := { t with buf := [] }, pos := pos, size := size
                         sentUs := r.2.line.upUs, job := job }
    let c := r.2.modLine fun l => { l with
      lastFirst := cput l.lastFirst k r.1, ringPos := pos + size,
      rtx := (l.rtx.filter fun q => !(decide (q.pos < pos + size) && decide (pos < q.pos + q.size))) ++ [rc] }
    ((c.releaseAll t.buf).addTx (tuLen t)).writeElem (c.sealTu (c.keysOf ep) (elementOf t ep.num r.1 prev none)) susp

/-- The cutoff of R396 has not passed: now < T + W − RTT. -/
def Chan.oldForm (c : Chan) : Bool := decide (c.now + c.rttNs < c.sec.changeAt + c.keyWindow * 1000)

/-- A re-send: the record's latest form again, or re-encrypted with the next TSEQ (R395, R396). -/
def Chan.encryptAgain (c : Chan) (first : Nat) (susp : Option Nat) : Chan :=
  match c.line.rtx.find? fun r => r.first == first with
  | none => c
  | some r =>
    let put (c : Chan) (q : RtxRec) : Chan := c.modLine fun l => { l with rtx := l.rtx.map fun x => if x.first = first then q else x }
    let same := match c.sec.cur, c.sec.prev with
      | some e, p =>
        if r.kepoch = e.num then some (c.keysOf e)
        else match p with | some p => if r.kepoch = p.num ∧ c.oldForm then some p else none | none => none
      | none, _ => none
    match same, c.sec.cur with
    | some x, _ =>
      let orig := if r.first = r.latest then none else some r.first
      let c := (put c { r with sentUs := c.line.upUs, queued := false }).count 0xA00098
      (c.addTx (tuLen r.tu)).writeElem (c.sealTu x (elementOf r.tu r.kepoch r.latest r.prev orig)) susp
    | none, some e =>
      let n := c.nextTseq
      let c := (put n.2 { r with latest := n.1, kepoch := e.num, older := r.older ++ [r.latest], sentUs := c.line.upUs, queued := false }).count
        0xA0009C
      (c.addTx (tuLen r.tu)).writeElem (c.sealTu (c.keysOf e) (elementOf r.tu e.num n.1 r.prev (some r.first))) susp
    | none, none => c

/-- Class of a selection. -/
def Chan.selClass (c : Chan) (x : Selected) : Nat :=
  match x.tu, x.resend with
  | some t, _ => t.tc
  | none, some f => match c.line.rtx.find? fun r => r.first == f with | some r => r.tu.tc | none => 0
  | none, none => 0

/-- A pipeline holds a TC3 TU: its element is open in the stream. -/
def Chan.holds3 (c : Chan) : Bool := c.line.elem3.isSome

/-- TU_ENCRYPT: the cipher engine takes the oldest selection (R399). While every pipeline is busy a TC0 or TC1 TU is served by the pipeline that
holds a TC3 TU, which that pipeline suspends at a block boundary and then resumes; any other TU waits (R400; log entry 168). -/
def Chan.encrypt (c : Chan) (busy : Bool) : Chan :=
  if !c.mayEncrypt then c
  else match c.sch.toCipher with
  | x :: rest =>
    if busy && !(decide (c.selClass x < 2) && c.holds3) then c else
    let c := (if busy then c.count 0xA000A0 else c).modSch fun s => { s with toCipher := rest }
    match x.tu, x.resend with
    | some t, _ => c.encryptFirst t x.susp
    | none, some f => c.encryptAgain f x.susp
    | none, none => c
  | [] => c

/-- RTX_RECORD_WINDOW_END: records leave the window (R126, R331). -/
def Chan.windowEnd (c : Chan) : Chan := c.modLine fun l => { l with rtx := l.rtx.filter c.inWindow }

/-! ### The line in recovery and in the power states (R533, R535, R542) -/

/-- Step 9 of a recovery has begun. -/
def Chan.resumed (c : Chan) : Bool := match c.boot.recov with | some r => decide (9 ≤ r.step) | none => false

/-- Tributary `t` is held at N = 0: during recovery all are, and the KEY tributary until step 9 (R533). -/
def Chan.muted (c : Chan) (t : Nat) : Bool := decide (c.boot.phase = 8) && !(t == 2 && c.resumed)

/-- The framer and the receivers run: outside recovery, while the line is held, and from step 8 on (R533, R535). -/
def Chan.lineRuns (c : Chan) : Bool :=
  decide (c.boot.phase ≠ 8) || c.boot.held || (match c.boot.recov with | some r => r.relockUs.isSome | none => false)

/-! ### Tributary slices (R317, R318, R397) -/

/-- The next slice of a tributary: CTL and message bytes. -/
def Chan.slice (c : Chan) (t : Nat) : List Byte × Chan :=
  let x := vget c.line.tribs t
  match if c.muted t then [] else x.tx with
  | [] => (List.replicate (sliceSize t) 0, c)
  | m :: rest =>
    let epoch := c.sec.cur
    if t = 0 ∧ epoch.isNone then (List.replicate (sliceSize t) 0, c)
    else
      let whole := m ++ beBytes 4 (crc32c m).toNat
      let bs := (whole.drop x.txPos).take (sliceSize t - 1)
      let fin := decide (whole.length ≤ x.txPos + bs.length)
      let ctl := BitVec.ofNat 8 ((if x.txPos = 0 then 128 else 0) + (if fin then 64 else 0) + bs.length)
      let x := if fin then { x with tx := rest, txPos := 0 } else { x with txPos := x.txPos + bs.length }
      let c := c.modLine fun l => { l with tribs := vset l.tribs t x }
      match t, epoch with
      | 0, some e =>
        let y := cfb8 c.suite (c.key e.secret "MGT" true) true c.sec.mgmtTx bs
        (padTo (sliceSize t) (ctl :: y.1), c.modSec fun s => { s with mgmtTx := y.2 })
      | _, _ => (padTo (sliceSize t) (ctl :: bs), c)

/-! ### Relay signalling sent (R313–R315) -/

/-- Downstream and upstream leg registers: whether in use, and the coordinate (R337). -/
def Chan.legCoord (c : Chan) (base j : Nat) : Option Coord :=
  let a := c.reg (base + 8 * j)
  if bitOf a 31 then some (BitVec.ofNat 40 (fld a 7 0 * 4294967296 + (c.reg (base + 8 * j + 4)).toNat)) else none

/-- A LINE_AIS packet to each valid downstream coordinate (R313). -/
def Chan.sendAis (c : Chan) (site : BitVec 8) (lost : Bool) : Chan :=
  (List.range 4).foldl (fun (c : Chan) j => match c.legCoord 0x800040 j with
    | some x => c.sendCoord x (beBytes 2 0x0300 ++ beBytes 6 0 ++ [site, if lost then 1 else 0, 0, 0])
    | none => c) c

/-- Relay signalling of a source begins, with its SITE: the first LINE_AIS goes at once (R313, R316). -/
def Chan.startAis (c : Chan) (src : Nat) (site : BitVec 8) : Chan :=
  if c.line.aisTx.any fun x => x.1 == src then c
  else
    let c := c.modLine fun l => { l with aisTx := l.aisTx ++ [(src, site)] }
    (c.raise { ev := .lineAisTx, value := site.toNat }).sendAis site true

/-- It ends, with one LINE_AIS of STATE 0. -/
def Chan.stopAis (c : Chan) (src : Nat) : Chan :=
  match c.line.aisTx.find? fun x => x.1 == src with
  | some x => (c.modLine fun l => { l with aisTx := l.aisTx.filter fun y => y.1 ≠ src }).sendAis x.2 false
  | none => c

/-- LINE_AIS_SEND: once every 1 ms (R313, R316); a channel whose receive direction has been down since it started begins here. -/
def Chan.aisSend (c : Chan) : Chan :=
  if c.line.aisMs < c.ms then
    let c := c.line.aisTx.foldl (fun c x => c.sendAis x.2 true) (c.modLine fun l => { l with aisMs := c.ms })
    if c.line.state = .downLos ∨ c.line.state = .downLof then c.startAis 0 c.cfg.peerSite else c
  else c

/-- RPOH entry `j` (R315). -/
def Chan.rpoh (c : Chan) (j : Nat) : BitVec 32 :=
  match c.legCoord 0x800020 j with
  | none => 0
  | some _ =>
    let g := vget c.line.legs j
    if g.inAis then BitVec.allOnes 32 else BitVec.ofNat 32 (0x40000000 + g.site.toNat * 16777216)

/-- AIS_TU_SEND: one AIS TU a leg in AIS, once per superframe, while the line is UP and an epoch active: a system TU of 64 bytes whose body
is all ones (R315). -/
def Chan.aisTu (c : Chan) (j : Nat) : Chan :=
  let g := vget c.line.legs j
  if g.inAis ∧ c.line.state = .up ∧ c.mayEncrypt ∧ g.tuSuper ≠ some c.line.txSuper then
    (c.modLine fun l => { l with legs := vset l.legs j { g with tuSuper := some l.txSuper } }).sysTu j (List.replicate 52 0xFF) 52
  else c

/-! ### Frames (R296–R312) -/

/-- Bytes taken off the stream's front: the bytes, where the first TU header in them begins, the sequence numbers that end in them, and
what is left. -/
def takeStream : Nat → Nat → List Seg → List Byte × Option Nat × List Nat × List Seg
  | _, _, [] => ([], none, [], [])
  | n, off, s :: rest =>
    if n = 0 then ([], none, [], s :: rest)
    else
      let hd := if s.header then some off else none
      if s.bytes.length ≤ n then
        let r := takeStream (n - s.bytes.length) (off + s.bytes.length) rest
        (s.bytes ++ r.1, if hd.isSome then hd else r.2.1, (match s.ends with | some t => [t] | none => []) ++ r.2.2.1, r.2.2.2)
      else (s.bytes.take n, hd, [], { header := false, bytes := s.bytes.drop n, ends := s.ends } :: rest)

/-- Bytes in the stream. -/
def streamLen (l : List Seg) : Nat := (l.map fun s => s.bytes.length).foldl (· + ·) 0

/-- When the line leaves UP, what is left of an element whose head has been sent is dropped from the stream. -/
def Chan.cutStream (c : Chan) : Chan :=
  let s := c.line.stream.dropWhile fun x => !x.header
  if s.any fun x => x.header && x.ends.isNone then c.modLine fun l => { l with stream := s }
  else (c.modLine fun l => { l with stream := s.filter fun x => x.header, elem3 := none, inSusp := false }).modSch fun x => { x with open3 := none }

/-- MODE of each slot in SLOT_MODE (R299). -/
def Chan.slotModes (c : Chan) : BitVec 32 :=
  (List.range 16).foldl (fun (w : BitVec 32) k => match (c.slot k).mode with
    | .stage => putFld w (2 * k + 1) (2 * k) 1
    | .col => putFld w (2 * k + 1) (2 * k) 2
    | _ => w) 0

/-- RACK (R328): the highest TSEQ at or below which every TSEQ has been received or resolved. -/
def Chan.rack (c : Chan) : Nat :=
  (c.line.holes.map Hole.tseq ++ c.line.unsure).foldl (fun m t => if tsAfter m t || m == t then (t + tsMod - 1) % tsMod else m) c.line.highest

/-- BDI (R309, R533). -/
def Chan.bdiTx (c : Chan) : Bool := decide (c.line.state = .downLos) || decide (c.line.state = .downLof) || decide (c.boot.phase = 8)

/-- The logical lane that a physical transmit lane carries, and which half of its bits on a lane of an OOK pair: by the transmit map, as the
new lane of an open change, or as an old lane that still copies (R294, R362). -/
def Chan.carries (c : Chan) (p : Nat) : Option (Nat × Option Bool) :=
  let half (e : MapEnt) : Option Bool := if e.pair = 0x3F then none else some (decide (p = e.pair.toNat))
  let via (f : OptOp → Bool) (ent : OptOp → MapEnt) : Option (Nat × Option Bool) :=
    (c.opt.txOps.find? fun o => !o.burst && f o && (entLanes (ent o)).contains p).map fun o => (o.req.lane.toNat, half (ent o))
  let copying (o : OptOp) : Bool := match o.stage with | .copying _ => true | _ => false
  match logicalOf c.opt.txMap p with
  | some l => some (l, half (vget c.opt.txMap l))
  | none => (via (fun o => decide (o.stage ≠ .requested) && !copying o) fun o => reqEnt o.req).orElse fun _ => via copying OptOp.old

/-- The trial at which a lane sends test units (R354, R356, R357): in a burst, or in the margin test while it carries no frames. -/
def Chan.testTrial (c : Chan) (p : Nat) : Option Nat :=
  match c.opt.txOps.find? fun o => o.burst && decide (o.req.phys.toNat = p) with
  | some o => match o.stage with | .burst k => some k | _ => some 0
  | none => match c.opt.mtRun with
    | some r => if r.step ≤ 2 then some r.trial else if (logicalOf c.opt.txMap p).isSome then none else some 16
    | none => none

/-- What a physical lane sends: nothing while it is dark (R294, R341, R356, R370). -/
def Chan.physOut (c : Chan) (units : List (List Bool)) (mfas : Byte) (p : Nat) : PhysOut :=
  let st := (vget c.opt.tx p).st
  if !c.opt.laserOn || (decide (st ≠ .mapped) && decide (st ≠ .shadow)) then .dark
  else match c.testTrial p with
    | some k => .pam4 (pam4Levels (testUnit p mfas k))
    | none => match c.carries p with
      | some (l, none) => .pam4 (pam4Levels (lget [] units l))
      | some (l, some false) => .ook (evenBits (lget [] units l))
      | some (l, some true) => .ook (oddBits (lget [] units l))
      | none => .dark

/-- FRAME_SEND: the next frame, with its overhead, payload, parity, lane units, and what the physical lanes send (R293–R301, R309–R315,
R323, R356). A superframe begins with the transmit map in force (R362). -/
def Chan.frameSend (c : Chan) : Chan :=
  let up := decide (c.line.state = .up)
  let c := if up && decide (streamLen c.line.stream < 32256) && c.line.elem3.isSome then
      c.finish3.modSch fun s => { s with open3 := none } else c
  let mfas := c.line.mfasTx
  let c := if mfas = 0 then
      let n := c.line.txSuper
      let c := c.txBoundary.filterStep.modLine fun l => { l with txSuper := n + 1 }
      if c.time.frameMode then c.modTime fun t => { t with deps := keepMarks (cput t.deps n c.time.unit.now) } else c
    else c
  let taken := if up then takeStream 32256 0 c.line.stream else ([], none, [], c.line.stream)
  let payload := padTo 32256 taken.1
  let prev := c.line.lastTx
  let plain := prev.zipIdx.map fun (p : List Byte × Nat) => scramble p.2 p.1
  let coh0 : Coh :=
    { pbip := bip (plain.map fun b => bip (b.drop 16)), pbei := min 8 c.line.pbei, bdi := c.bdiTx, tuptr := taken.2.1.getD 0x7FFF
      txhi := c.line.ended, rack := c.rack, modes := c.slotModes, naks := c.line.naks.take 6, gone := c.line.gone.head?
      rpoh := (List.range 4).map c.rpoh }
  let sl := (List.range 5).foldl (fun (a : List (List Byte) × Chan) t => let r := a.2.slice t; (a.1 ++ [r.1], r.2)) ([], c)
  let c := sl.2
  let coh := cohBytes { coh0 with slices := sl.1 }
  let blk := (List.range 32).map fun l =>
    scramble l (laneBlock l (vget c.opt.txMap l).ook mfas (bip (lget [] plain l)) (min 8 (lget 0 c.line.sbei l)) coh payload)
  let parity := parityOf (if prev.isEmpty then zeroBlock else prev) blk
  let units := blk.zipIdx.map fun (p : List Byte × Nat) => laneUnit p.2 p.1 parity
  let c := (c.count 0x800120 coh0.naks.length).count 0x80012C (match coh0.gone with | some g => g.count | none => 0)
  c.modLine fun l => { l with
    mfasTx := mfas + 1, lastTx := blk, txFrames := l.txFrames + 1, stream := taken.2.2.2,
    txUnits := units, txPhys := (List.range 36).map (c.physOut units mfas),
    ended := taken.2.2.1.foldl tsMax l.ended, naks := l.naks.drop 6, gone := l.gone.drop 1,
    sbei := List.replicate 32 0, pbei := 0 }

/-! ### CAP sent (R320) -/

/-- A CAP with LINE_NET. -/
def Chan.sendCap (c : Chan) : Chan :=
  (c.sendSealed 4 0x01 (beBytes 2 (fld (c.reg 0x44) 31 20))).modLine fun l => { l with capDue := false, capSentMs := c.ms }

/-- CAP_SEND_PERIODIC: a change waits, or 10 ms have passed while the receive direction is RX_UP or UP (R320). -/
def Chan.capPeriodic (c : Chan) : Chan :=
  if c.line.capDue ∨ (c.inFrame ∧ c.line.capSentMs + 10 ≤ c.ms) then c.sendCap else c

/-! ### The commands -/

/-- TU_ENCRYPT; `busy`: every pipeline in service is busy (R400). -/
def execTuEncrypt (ch : Fin 8) (s : State) (busy : Bool := false) : Out := done (onPath ch (fun c => c.encrypt busy) s)
def execRtxRecordWindowEnd (ch : Fin 8) (s : State) : Out := done (onLive ch Chan.windowEnd s)
def execLineAisSend (ch : Fin 8) (s : State) : Out := done (onLive ch Chan.aisSend s)
def execAisTuSend (ch : Fin 8) (leg : Fin 4) (s : State) : Out := done (onPath ch (fun c => c.aisTu leg) s)
def execCapSendPeriodic (ch : Fin 8) (s : State) : Out := done (onLive ch Chan.capPeriodic s)

end Sys2Proof.Machine
end

