-- ==== Sys2Proof/Machine/Prov.lean ====
section
/-! DEFINITION. The provenance unit: cairns, chains, signature records, span comparison, the store (Provenance Chain and
Attestation, R409–R431). -/

namespace Sys2Proof.Machine

open Sys2Proof

/-- The provenance unit changed. -/
def Chan.modProv (c : Chan) (f : Prov → Prov) : Chan := { c with prov := f c.prov }

/-- SM3 as bytes. -/
def sm3Bytes (bs : List Byte) : List Byte := beBytes 32 (Config.sm3 bs).toNat

/-- A control notice of the channel's own to a coordinate: REQ_TAG 0 (R83, R421). -/
def Chan.notice (c : Chan) (dest : Coord) (opcode job : Nat) (body : List Byte) : Chan :=
  c.sendCoord dest (beBytes 2 opcode ++ beBytes 2 0 ++ beBytes 4 job ++ body)

/-! ### The store (R422–R424) -/

/-- CAP: records in copy A after its 64 KiB of metadata (R422). -/
def Chan.provCap (c : Chan) : Nat := c.mirrorCap 5 128

/-- One record written at WR_CNT; a record not yet released makes room, counted (R423, R424). -/
def Chan.provWrite (c : Chan) (bs : List Byte) : Chan :=
  let n := c.prov.wr
  let cap := c.provCap
  let ovr := decide (c.prov.rel + cap ≤ n)
  let c := if ovr then
      let c1 := c.count 0xB00058
      let c2 := c1.setReg 0xB00000 (putBit (c1.reg 0xB00000) 31 true)
      (c2.raiseIf (!c2.prov.overrun) { ev := .provOverrun }).modProv fun p => { p with overrun := true, rel := n - cap + 1 }
    else c
  c.modProv fun p => { p with store := if cap = 0 then p.store else cput p.store (n % cap) bs, wr := n + 1 }

/-! ### Messages to the peer (R417, R418) -/

/-- A PROV message, held in order while the line is down: at most 4,096, the oldest dropped (R418). -/
def Chan.sendProv (c : Chan) (type : Nat) (body : List Byte) : Chan :=
  if c.line.state = .up then c.sendSealed 3 type body
  else
    let c := if 4096 ≤ c.prov.held.length then
        ((c.modProv fun p => { p with held := p.held.drop 1 }).count 0xB0005C).raise { ev := .provHeldDrop }
      else c
    c.modProv fun p => { p with held := p.held ++ [(type, body)] }

/-- Held messages leave once the line is up (R418). -/
def Chan.flushProv (c : Chan) : Chan :=
  let l := c.prov.held
  l.foldl (fun (c : Chan) m => c.sendSealed 3 m.1 m.2) (c.modProv fun p => { p with held := [] })

/-! ### Cairns (R410–R413) -/

/-- A cairn placed in the queue; it waits while the queue holds 8 (R411). -/
def Chan.queueCairn (c : Chan) (x : Cairn) : Chan :=
  if c.prov.backlog.isEmpty && decide (c.prov.queue.length < 8) then c.modProv fun p => { p with queue := p.queue ++ [x] }
  else c.modProv fun p => { p with backlog := p.backlog ++ [x] }

/-- The 128 bytes of a cairn (R410). -/
def cairnBytes (x : Cairn) (drift : Bool) (index : Nat) (prev : List Byte) : List Byte :=
  beBytes 1 x.kind ++ beBytes 1 (if drift then 0x80 else 0) ++ beBytes 2 x.comm ++ beBytes 4 x.job ++ beBytes 4 x.step
    ++ beBytes 4 x.seq ++ beBytes 2 x.shard ++ beBytes 1 x.pepoch ++ beBytes 1 x.ctx ++ beBytes 1 x.result ++ beBytes 1 x.nexcl
    ++ beBytes 1 x.codec ++ beBytes 1 0 ++ beBytes 4 index ++ stampBytes x.stamp ++ beBytes 2 0 ++ x.data ++ prev
    ++ beBytes 4 x.chunks ++ beBytes 20 0

/-- The span digest after a cairn (R413). -/
def spanNext (span cairn : List Byte) : List Byte :=
  sm3Bytes (span ++ cairn.take 1 ++ (cairn.drop 2).take 17 ++ (cairn.drop 40).take 32)

/-- SEQ `a` is later than `b`, modulo 2³². -/
def seqLater (a b : Nat) : Bool := decide (a ≠ b) && decide ((a + 4294967296 - b) % 4294967296 < 2147483648)

/-- A chain replaced. -/
def Chan.setChain (c : Chan) (slot : Nat) (h : Chain) : Chan := c.modProv fun p => { p with chains := cput p.chains slot h }

/-- A trigger of R414: the record covers the chain as it stands. -/
def Chan.trigSign (c : Chan) (slot i : Nat) : Chan :=
  match cget? c.prov.chains slot with
  | some h =>
    if h.next = 0 then c
    else c.setChain slot { h with trig := putBit h.trig i true, trigLast := h.next - 1, trigHead := h.head }
  | none => c

/-- NOTIFY of an open communicator. -/
def Chan.notifyOf (c : Chan) (slot comm : Nat) : Option Coord :=
  (c.col.comms.find? fun x => x.slot == slot && x.body.comm.toNat == comm).map fun x => x.body.notify

/-- PROV_NOTICE to the communicator's NOTIFY (R421): WHAT 1 diverge, 2 unmatched. -/
def Chan.provNotice (c : Chan) (slot job comm what seq : Nat) : Chan :=
  match c.notifyOf slot comm with
  | some d => c.notice d 0x0400 job (beBytes 2 comm ++ beBytes 1 what ++ beBytes 1 0 ++ beBytes 4 seq)
  | none => c

/-- PROV_UNMATCHED (R420). -/
def Chan.unmatched (c : Chan) (slot : Nat) (h : SpanHead) : Chan :=
  ((c.count 0xB00054).raise
    { ev := .provUnmatched, slot := slot, job := h.job.toNat, comm := h.comm.toNat, seq := h.seq.toNat, scope := slot * 65536 + h.comm.toNat }).provNotice
    slot h.job.toNat h.comm.toNat 2 h.seq.toNat

/-- A peer's head compared with the pair kept for its SEQ (R420 row 2). -/
def Chan.compareSpan (c : Chan) (slot : Nat) (h : SpanHead) (mine : List Byte) : Chan :=
  if beBytes 32 h.span.toNat = mine then c.count 0xB0004C
  else
    let c := (c.count 0xB00050).raise
      { ev := .provDiverge, slot := slot, job := h.job.toNat, comm := h.comm.toNat, seq := h.seq.toNat }
    let c := c.setReg 0xB00000 (putBit (c.reg 0xB00000) 30 true)
    (c.provNotice slot h.job.toNat h.comm.toNat 1 h.seq.toNat).trigSign slot 3

/-- The slot that holds a job. -/
def Chan.slotOfJob (c : Chan) (job : Nat) : Option Nat :=
  (List.range 16).find? fun k => decide ((c.slot k).mode ≠ .free) && decide ((c.slot k).body.jobId.toNat = job)

/-- Pending heads of a communicator meet its newly written SEQ: equal SEQs are compared, older ones dropped (R420). -/
def Chan.meetPending (c : Chan) (slot job comm seq : Nat) (mine : List Byte) : Chan :=
  let of (e : SpanHead × Nat) : Bool := decide (e.1.job.toNat = job) && decide (e.1.comm.toNat = comm)
  let hit := c.prov.pending.filter fun e => of e && e.1.seq.toNat == seq
  let old := c.prov.pending.filter fun e => of e && seqLater seq e.1.seq.toNat
  let c := c.modProv fun p => { p with pending := p.pending.filter fun e => !(of e && (e.1.seq.toNat == seq || seqLater seq e.1.seq.toNat)) }
  let c := old.foldl (fun (c : Chan) e => c.unmatched slot e.1) c
  hit.foldl (fun (c : Chan) e => c.compareSpan slot e.1 mine) c

/-- The span digest of a communicator moved on by a COMMIT, VOID or RECON cairn, and told to the peer (R413, R417). -/
def Chan.spanOn (c : Chan) (x : Cairn) (bs : List Byte) : Chan :=
  match c.prov.spans.find? fun s => s.slot == x.slot && s.comm == x.comm with
  | none => c
  | some s =>
    let d := spanNext s.digest bs
    let pairs := s.pairs ++ [(x.seq, d)]
    let s' : Span := { s with digest := d, pairs := pairs.drop (pairs.length - 16) }
    let c := c.modProv fun p => { p with spans := p.spans.map fun q => if q.slot = x.slot ∧ q.comm = x.comm then s' else q }
    let c := c.sendProv 1 (beBytes 4 x.job ++ beBytes 2 x.comm ++ beBytes 4 x.seq ++ beBytes 1 x.kind ++ beBytes 1 0 ++ d)
    c.meetPending x.slot x.job x.comm x.seq d

/-! ### Signature records (R414–R416) -/

/-- The security domain can sign: SIGN_OK (log entry 32). -/
def Chan.signOk (c : Chan) : Bool := c.sec.rngOk

/-- The signature record that a chain's triggers ask for (R415, R416). -/
def Chan.sign (c : Chan) (slot : Nat) : Chan :=
  match cget? c.prov.chains slot with
  | none => c
  | some h =>
    if h.trig = 0 ∨ !c.memUp then c
    else
      let body := beBytes 1 c.cfg.site.toNat ++ beBytes 1 h.trig.toNat ++ beBytes 4 h.job ++ beBytes 4 h.first ++ beBytes 4 h.trigLast
        ++ stampBytes c.now ++ beBytes 6 0 ++ h.trigHead
      let sig := if c.signOk then beBytes 64 (Config.sm2Sign c.cfg.coord.toNat (ascii "SZ8-CAIRN" ++ body)).toNat else List.replicate 64 0
      let bs := beBytes 1 0x10 ++ beBytes 1 slot ++ body ++ sig
      let left := h.next - (h.trigLast + 1)
      let h' : Chain := { h with
        trig := 0, lastSigned := h.trigLast, first := if c.signOk then h.trigLast + 1 else h.first, unsigned := left
        oldestMs := h.laterMs, trigHead := [] }
      let closed := bitOf h.trig 4 && left == 0
      let c := (c.provWrite bs).count 0xB00044
      let c := (c.raiseIf (!c.signOk) { ev := .provSignFail, slot := slot }).sendProv 2 (bs.drop 2)
      let c := c.modProv fun p => { p with lastSig := bs }
      if closed then c.modProv fun p => { p with chains := cdel p.chains slot } else c.setChain slot h'

/-! ### The write of a cairn (R410–R414) -/

/-- A cairn appended to its slot's chain and written to the store (R410, R412, R414). A record that the slot's chain before still waits for is
written ahead of the OPEN that ends it (log entry 170). -/
def Chan.appendCairn (c : Chan) (x : Cairn) : Chan :=
  let c := if x.kind = 5 then c.sign x.slot else c
  let h : Chain := match cget? c.prov.chains x.slot with
    | some h => if x.kind = 5 then { job := x.job } else h
    | none => { job := x.job }
  let x := if x.kind = 6 then { x with data := h.head } else x
  let bs := cairnBytes x (cget? c.part.drifts x.slot).isSome h.next h.head
  let h := { h with next := h.next + 1, head := sm3Bytes bs, unsigned := min 1024 (h.unsigned + 1)
                    oldestMs := if h.unsigned = 0 then c.ms else h.oldestMs
                    laterMs := if decide (h.trig ≠ 0) && decide (h.next ≠ h.trigLast + 1) then h.laterMs else c.ms }
  let c := ((c.provWrite bs).count 0xB00040).setChain x.slot h
  let c := if h.unsigned = 1024 ∧ !bitOf h.trig 0 then c.trigSign x.slot 0 else c
  let c := if x.kind = 4 then c.trigSign x.slot 2 else c
  let c := if x.kind = 6 then c.trigSign x.slot 4 else c
  if x.kind = 1 ∨ x.kind = 2 ∨ x.kind = 4 then c.spanOn x bs else c

/-- CAIRN_WRITE: the oldest queued cairn is written; an end that waits takes its place and its context is freed (R411). -/
def Chan.cairnWrite (c : Chan) : Chan :=
  if !c.memUp then c
  else match c.prov.queue with
  | [] => c
  | x :: rest =>
    let c := c.modProv fun p => { p with queue := rest }
    let c := match c.prov.backlog with
      | y :: more =>
        let ctxs := match cget? c.col.ctxs y.ctx with
          | some k => if k.ending then cput c.col.ctxs y.ctx { k with queued := false } else c.col.ctxs
          | none => c.col.ctxs
        ({ c with prov := { c.prov with queue := c.prov.queue ++ [y], backlog := more }, col := { c.col with ctxs := ctxs } } : Chan).freeCtx y.ctx
      | [] => c
    c.appendCairn x

/-- A cairn of the slot itself: OPEN, CLOSE or COMM (R410). -/
def Chan.slotCairn (c : Chan) (slot kind comm seq codec : Nat) (data : List Byte) : Chan :=
  let s := c.slot slot
  if s.mode = .col then c
  else c.queueCairn { slot := slot, kind := kind, comm := comm, job := s.body.jobId.toNat, step := s.step.toNat, seq := seq
                      pepoch := s.pepoch.toNat, codec := codec, stamp := c.now, data := data }

/-! ### Signatures by age and of the peer (R414, R419) -/

/-- SIGN_AGE_EXPIRE: chains whose oldest unsigned cairn is SIGN_S old (R414). -/
def Chan.signAge (c : Chan) : Chan :=
  let lim := fld (c.reg 0xB00004) 31 24 * 1000
  c.prov.chains.foldl (fun (c : Chan) e => if e.2.unsigned ≠ 0 ∧ !bitOf e.2.trig 1 ∧ e.2.oldestMs + lim < c.ms then c.trigSign e.1 1 else c) c

/-- SIG_HEAD received: bytes 2–127 of a signature record of the peer (R419). -/
def Chan.sigHead (c : Chan) (bs : List Byte) : Chan :=
  if Config.sm2Verify c.sec.peerCert (ascii "SZ8-CAIRN" ++ bs.take 62) (BitVec.ofNat 512 (beAt bs 62 64)) then
    match c.slotOfJob (beAt bs 2 4) with
    | some k => (c.provWrite (beBytes 1 0x11 ++ beBytes 1 k ++ bs.take 126)).count 0xB00048
    | none => c
  else c.raise { ev := .provPeerSigBad }

/-! ### Span comparison (R420) -/

/-- SPAN_HEAD received. -/
def Chan.spanHead (c : Chan) (h : SpanHead) : Chan :=
  let at_ : Option (Nat × Span) := match c.slotOfJob h.job.toNat with
    | some k => (c.prov.spans.find? fun (s : Span) => s.slot == k && s.comm == h.comm.toNat).map fun s => (k, s)
    | none => none
  match at_ with
  | none => c.count 0xB00054
  | some (k, s) =>
    match s.pairs.find? fun p => p.1 == h.seq.toNat with
    | some p => c.compareSpan k h p.2
    | none =>
      if s.pairs.all (fun (p : Nat × List Byte) => seqLater h.seq.toNat p.1) then
        if 1024 ≤ c.prov.pending.length then c.unmatched k h
        else c.modProv fun p => { p with pending := p.pending ++ [(h, c.ms)] }
      else c.unmatched k h

/-- PROV_PENDING_EXPIRE: heads older than PEND_S (R420). -/
def Chan.provExpire (c : Chan) : Chan :=
  let lim := fld (c.reg 0xB00004) 23 16 * 1000
  let old (e : SpanHead × Nat) : Bool := decide (e.2 + lim < c.ms)
  let go := c.prov.pending.filter old
  go.foldl (fun (c : Chan) e => c.unmatched ((c.slotOfJob e.1.job.toNat).getD 0xFF) e.1)
    (c.modProv fun p => { p with pending := p.pending.filter fun e => !old e })

/-- REL_CNT written (R428): a value above WR_CNT or below the current one is a violation. -/
def Chan.relWrite (c : Chan) (v : Nat) : Option Chan :=
  if v ≤ c.prov.wr ∧ c.prov.rel ≤ v then some (c.modProv fun p => { p with rel := v, overrun := false }) else none

/-! ### The commands -/

def execCairnWrite (ch : Fin 8) (s : State) : Out := done (onPath ch Chan.cairnWrite s)
def execSignAgeExpire (ch : Fin 8) (s : State) : Out := done (onPath ch Chan.signAge s)
def execSignatureRecordWrite (ch : Fin 8) (slot : Fin 16) (s : State) : Out := done (onPath ch (fun c => c.sign slot) s)
def execSpanHead (ch : Fin 8) (h : SealHdr) (b : SpanHead) (s : State) : Out :=
  done (onPath ch (fun c => c.onSealed 3 0x01 h fun c => c.spanHead b) s)
/-- SIG_HEAD: `bs` is the message's 126 bytes. -/
def execSigHead (ch : Fin 8) (h : SealHdr) (bs : List Byte) (s : State) : Out :=
  done (onPath ch (fun c => c.onSealed 3 0x02 h fun c => c.sigHead bs) s)
def execProvPendingExpire (ch : Fin 8) (s : State) : Out := done (onPath ch Chan.provExpire s)

end Sys2Proof.Machine
end

