-- ==== Sys2Proof/Machine/Request.lean ====
section
/-! DEFINITION. Control requests: the envelope, the list of privileged coordinates, responses (Multi-Site Jobs, R49, R51; The Daeno
Fabric Port, R83). -/

namespace Sys2Proof.Machine

open Sys2Proof

/-- Status codes of R51, R197, R257 and of *Partitions, Drift and Unit Health*. -/
def stOk : Nat := 0x00
def stNoSlot : Nat := 0x01
def stBadMode : Nat := 0x02
def stBadField : Nat := 0x03
def stDupJob : Nat := 0x04
def stNoTableSpace : Nat := 0x05
def stNotReady : Nat := 0x06
def stPeerRefused : Nat := 0x07
def stPeerTimeout : Nat := 0x08
def stBadStep : Nat := 0x09
def stBadEpoch : Nat := 0x0A
def stBusy : Nat := 0x0B
def stNoJob : Nat := 0x0C
def stMtxAbsent : Nat := 0x80
def stMtxUnavailable : Nat := 0x81
def stTalusAbsent : Nat := 0x90
def stTalusFull : Nat := 0x91

/-- The envelope of a request or response (R83). -/
def envBytes (opcode : Nat) (e : CtlEnv) : List Byte := beBytes 2 opcode ++ beBytes 2 e.tag.toNat ++ beBytes 4 e.job.toNat

/-- A response: OPCODE | 0x8000, the same REQ_TAG and JOB_ID, and its bytes (R83). -/
def Chan.respond (c : Chan) (opcode : Nat) (e : CtlEnv) (bs : List Byte) : Chan :=
  c.sendCoord e.src (envBytes (opcode ||| 0x8000) e ++ bs)

/-- The two status bytes (R51). -/
def Chan.answer (c : Chan) (opcode : Nat) (e : CtlEnv) (status : Nat) (peer : Nat := 0) : Chan :=
  c.respond opcode e (beBytes 1 status ++ beBytes 1 peer)

/-- A collective response: status, COL_RESULT and the context number (R154). -/
def Chan.answerCol (c : Chan) (opcode : Nat) (e : CtlEnv) (status result ctx : Nat) : Chan :=
  c.respond opcode e (beBytes 1 status ++ beBytes 1 0 ++ beBytes 1 result ++ beBytes 1 ctx)

/-- The sequencer's output has room: no TU waits at its head (R265). -/
def Chan.seqFree (c : Chan) : Bool := c.sch.stalled.isEmpty

/-- A request leaves the sequencer's queue: the first there of its sender with its envelope. -/
def Chan.takeReq (c : Chan) (opcode : Nat) (e : CtlEnv) : Chan :=
  { c with ctrl := { c.ctrl with
    seqIn := eraseFirst (fun r => decide (r.src = e.src) && decide (r.bytes.take 8 = envBytes opcode e)) c.ctrl.seqIn } }

/-- A request or answer of the peer leaves its queue. -/
def Chan.takePeer (c : Chan) (opcode : Nat) (e : CtlEnv) : Chan :=
  { c with ctrl := { c.ctrl with peerIn := eraseFirst (fun r => decide (r.bytes.take 8 = envBytes opcode e)) c.ctrl.peerIn } }

/-- Wake latencies in units of 100 µs, by state (R542). -/
def wakeLatency (st : Nat) : Nat := lget 0 [0, 2, 400, 25000] st

/-- A wake begins: WAKE_CAUSE, counted, and Active again after the state's latency (R544). -/
def Chan.wake (c : Chan) (cause : Nat) : Chan :=
  if c.boot.pst = 0 ∨ c.boot.pst = 4 then c
  else
    let until_ := c.us + 100 * wakeLatency c.boot.pst
    let c := { c with boot := { c.boot with pst := 4, wakeCause := cause, wakeUs := until_, offer := 0, peerOffer := 0, peerMs := none } }
    (c.count 0xB4).raise { ev := .bootPwrWake, plane := .management, value := cause }

/-- A request or answer has come to the sequencer, from the fabric or from the peer (R56). One from the fabric wakes a channel below Active
(R544). -/
def Chan.arrive (c : Chan) (peer : Bool) (src : Coord) (bytes : List Byte) : Chan :=
  let r : SeqReq := { src := src, bytes := bytes, nr := c.ctrl.arrived }
  let c := if peer then c else c.wake 2
  { c with ctrl := if peer then { c.ctrl with peerIn := c.ctrl.peerIn ++ [r], arrived := c.ctrl.arrived + 1 }
                   else { c.ctrl with seqIn := c.ctrl.seqIn ++ [r], arrived := c.ctrl.arrived + 1 } }

/-- A privileged request: from a coordinate that is not listed it is discarded under the violation rule (R49). -/
def Chan.onRequest (c : Chan) (opcode : Nat) (e : CtlEnv) (f : Chan → Chan) : Chan :=
  if !c.seqFree then c
  else
    let c := c.takeReq opcode e
    if c.cfg.cpList.contains e.src then f c
    else c.viol { source := .fabric, ch := 0, kind := .inbandRule, addr := c.cfg.coord.toNat, coord := e.src }

/-- A request that names a job: NO_JOB unless an occupied slot that is not releasing holds it (R83); NOT_READY below Active (R544). -/
def Chan.onJob (c : Chan) (opcode : Nat) (e : CtlEnv) (f : Nat → Chan → Chan) : Chan :=
  c.onRequest opcode e fun c =>
    if c.boot.pst ≠ 0 then c.answer opcode e stNotReady
    else match (List.range 16).find? fun k => decide ((c.slot k).mode = .stage ∨ (c.slot k).mode = .col) && decide ((c.slot k).body.jobId = e.job) with
    | some k => f k c
    | none => c.answer opcode e stNoJob

/-- As `onJob`, with the body of a collective response (R154). -/
def Chan.onColJob (c : Chan) (opcode : Nat) (e : CtlEnv) (f : Nat → Chan → Chan) : Chan :=
  c.onRequest opcode e fun c =>
    if c.boot.pst ≠ 0 then c.answerCol opcode e stNotReady 0 0xFF
    else match (List.range 16).find? fun k => decide ((c.slot k).mode = .stage ∨ (c.slot k).mode = .col) && decide ((c.slot k).body.jobId = e.job) with
    | some k => f k c
    | none => c.answerCol opcode e stNoJob 0 0xFF

end Sys2Proof.Machine
end

