-- ==== Sys2Proof/Machine/Drift.lean ====
section
/-! DEFINITION. Notices of partitions, drift ledgers, entering and leaving drift (Partitions, Drift and Unit Health, R471–R490). -/

namespace Sys2Proof.Machine

open Sys2Proof

/-- The partition state changed. -/
def Chan.modPart (c : Chan) (f : Part → Part) : Chan := { c with part := f c.part }

/-- An open communicator of a slot. -/
def Chan.comm? (c : Chan) (slot comm : Nat) : Option Comm := c.col.comms.find? fun x => x.slot == slot && x.body.comm.toNat == comm

/-- A communicator replaced. -/
def Chan.putComm (c : Chan) (x : Comm) : Chan :=
  { c with col := { c.col with comms := c.col.comms.map fun y => if y.slot = x.slot ∧ y.body.comm = x.body.comm then x else y } }

/-- ACTION codes (R471). -/
def actionCode : Option Action → Nat
  | some .merge => 1 | some .anchor => 2 | some .reload => 3 | none => 0

/-- The slot's admitting coordinate (R471). -/
def Chan.admitting (c : Chan) (slot : Nat) : Option Coord := match (c.slot slot).owner with | some x => some x | none => c.cfg.cpList.head?

/-- What a PART_NOTICE tells (R471). -/
structure PartNote where
  what   : Nat
  site   : Nat := 0
  action : Nat := 0
  comm   : Option Nat := none
  shard  : Nat := 0
  seq    : Nat := 0
  step   : Nat := 0

/-- PART_NOTICE to the slot's admitting coordinate, and to the NOTIFY of a communicator it names (R471). -/
def Chan.partNotice (c : Chan) (slot : Nat) (n : PartNote) : Chan :=
  let body := beBytes 1 n.what ++ beBytes 1 n.site ++ beBytes 1 n.action ++ beBytes 1 0 ++ beBytes 2 (n.comm.getD 0) ++ beBytes 2 n.shard
    ++ beBytes 4 n.seq ++ beBytes 4 n.step ++ stampBytes c.now ++ beBytes 2 0
  let to_ := (match c.admitting slot with | some x => [x] | none => [])
    ++ (match n.comm.bind fun m => c.notifyOf slot m with | some x => if c.admitting slot = some x then [] else [x] | none => [])
  to_.foldl (fun (c : Chan) d => c.notice d 0x0600 (c.slot slot).body.jobId.toNat body) c

/-! ### Shards in drift -/

/-- A shard in drift at this end. -/
def Chan.driftShard (c : Chan) (slot comm shard : Nat) : Option DriftShard :=
  c.part.shards.find? fun x => x.slot == slot && x.comm.toNat == comm && x.shard.toNat == shard

/-- A shard in drift replaced. -/
def Chan.putShard (c : Chan) (x : DriftShard) : Chan :=
  c.modPart fun p => { p with shards := p.shards.map fun y => if y.slot = x.slot ∧ y.comm = x.comm ∧ y.shard = x.shard then x else y }

/-- The slot is in drift (R474). -/
def Chan.drifting (c : Chan) (slot : Nat) : Bool := (cget? c.part.drifts slot).isSome

/-- A communicator of the slot drifts: a TREE rooted at the anchor site with a role at an end of the span (R474, R475). -/
def Chan.drifts (c : Chan) (x : Comm) : Bool :=
  decide (x.body.algo = 1) && decide ((x.body.role = 1) ∨ (x.body.role = 2) ∨ (x.body.role = 3))
    && decide (x.body.rootOrLen.toNat = (c.slot x.slot).body.anchor.toNat)

/-- The slot's peer end of the span is a child: the anchor end (R476). -/
def commAnchor (x : Comm) : Bool := decide (x.body.role = 1) || decide (x.body.role = 3)

/-! ### Ledgers (R478, R486) -/

/-- FP32 codes of a chunk's values (R478). -/
def chunkFp32 (fmt : Nat) (bs : List Byte) : List Nat :=
  match scalarFmt fmt, mxElemOf fmt with
  | some f, _ => (chunkCodes (elemBytes fmt) bs).map fun k => (fencode fmtFp32 (fdecode f k)).code
  | none, some x => (pieces (mxBlockBytes x) bs).flatMap fun blk => match mxValues x blk with
    | some vs => vs.map fun v => (fencode fmtFp32 v).code
    | none => List.replicate 32 (fnan fmtFp32)
  | none, none => []

/-- FP32 codes written in FMT, a chunk's bytes (R485, R486). -/
def fp32Chunk (fmt : Nat) (cs : List Nat) : List Byte :=
  match scalarFmt fmt, mxElemOf fmt with
  | some f, _ => codesBytes (elemBytes fmt) (cs.map (toFmt f))
  | none, some x => (pieces 32 cs).flatMap fun p =>
      let vs := p.map (fdecode fmtFp32)
      if vs.all isFin then (mxQuant x (vs ++ List.replicate (32 - vs.length) (.fin false 0 0))).1
      else 0xFF :: List.replicate (mxBlockBytes x - 1) 0
  | none, none => []

/-- FP32 code of a natural number. -/
def natFp32 (n : Nat) : Nat := (fencode fmtFp32 (.fin false n 0)).code

/-- A ledger extent of a shard. -/
def Chan.ledger? (c : Chan) (slot comm shard : Nat) : Option Ledger :=
  c.part.ledgers.find? fun l => l.slot == slot && l.comm.toNat == comm && l.shard.toNat == shard

/-- A ledger extent replaced. -/
def Chan.putLedger (c : Chan) (l : Ledger) : Chan :=
  c.modPart fun p => { p with ledgers := p.ledgers.map fun y => if y.slot = l.slot ∧ y.comm = l.comm ∧ y.shard = l.shard then l else y }

/-- l + r / n for one element; nonfinite as +0, counted (R478). -/
def ledgerElem (l r n : Nat) : Nat × Nat :=
  let s := (fadd fmtFp32 l (fdiv r (natFp32 n))).code
  if fnonfinite fmtFp32 s then (0, 1) else (s, 0)

/-- A chunk's results added to a ledger (R478). -/
def ledgerChunk (fmt : Nat) (m : Cells Nat) (k : Nat) (nc : Nat) (bs : List Byte) : Cells Nat × Nat :=
  if nc = 0 then (m, 0)
  else ((chunkFp32 fmt bs).zipIdx).foldl (fun (a : Cells Nat × Nat) (e : Nat × Nat) =>
    let i := k * valuesPerChunk fmt + e.2
    let r := ledgerElem (cget 0 a.1 i) e.1 nc
    (cset 0 a.1 i r.1, a.2 + r.2)) (m, 0)

/-- An update of a drifting instance added to the shard's ledger, when it has one (R478). -/
def Chan.ledgerAdd (c : Chan) (slot comm shard fmt : Nat) (results : Cells (Nat × List Byte)) : Chan :=
  match c.ledger? slot comm shard with
  | none => c
  | some l =>
    let r := results.foldl (fun (a : Cells Nat × Nat) e =>
      let q := ledgerChunk fmt a.1 e.1 e.2.1 e.2.2
      (q.1, a.2 + q.2)) (l.sums, 0)
    ((c.putLedger { l with sums := r.1, n := min 65535 (l.n + 1) }).count 0x400364 r.2).raiseIf (decide (0 < r.2))
      { ev := .colNonfinite, slot := slot, comm := comm, shard := shard, value := r.2 }

/-- Elements of chunk `k` of a ledger, FP32. -/
def ledgerValues (fmt chunks : Nat) (l : Ledger) (k : Nat) : List Nat :=
  if k < chunks then (List.range (valuesPerChunk fmt)).map fun i => cget 0 l.sums (k * valuesPerChunk fmt + i) else []

/-- ~l of a chunk: l rounded to FMT, as bytes (R485). -/
def ledgerRounded (fmt chunks : Nat) (l : Ledger) (k : Nat) : List Byte := fp32Chunk fmt (ledgerValues fmt chunks l k)

/-- u of R486 for one element: both rounded ledgers with the counts of the ends, lower site first. -/
def mergeElem (nLo lo nHi hi : Nat) : Nat :=
  if nLo + nHi = 0 then 0
  else fdiv (fadd fmtFp32 (fmul32 (natFp32 nLo) lo) (fmul32 (natFp32 nHi) hi)).code (natFp32 (nLo + nHi))

/-! ### Leaving drift (R487–R489) -/

/-- A shard leaves drift: RECON_DONE; with the slot's last one DRIFT clears and the step is realigned (R488, R489). -/
def Chan.leaveDrift (c : Chan) (x : DriftShard) : Chan :=
  let reload := decide (x.action = some .reload)
  let c := (if reload then c.count 0x94 else c).raise
    { ev := if reload then .partReload else .partRecon, slot := x.slot, comm := x.comm.toNat, shard := x.shard.toNat }
  let c := c.modPart fun p => { p with shards := p.shards.filter fun y => !(y.slot == x.slot && decide (y.comm = x.comm) && decide (y.shard = x.shard)) }
  let seq := match c.comm? x.slot x.comm.toNat with | some m => m.lastSeq.toNat | none => 0
  let c := c.partNotice x.slot { what := 5, action := actionCode x.action, comm := some x.comm.toNat, shard := x.shard.toNat, seq := seq
                                 step := (c.slot x.slot).step.toNat }
  match cget? c.part.drifts x.slot with
  | some d =>
    if c.part.shards.any fun y => y.slot == x.slot then c
    else
      let s := c.slot x.slot
      let step := match d.step with | some t => if seqLater t.toNat s.step.toNat then t else s.step | none => s.step
      (c.modPart fun p => { p with drifts := cdel p.drifts x.slot }).putSlot x.slot { s with step := step }
  | none => c

/-- A reconcile instance has completed at an end: the extent reads zero with N = 0, and the shard leaves drift (R487). -/
def Chan.reconDone (c : Chan) (slot comm shard : Nat) : Chan :=
  let c := match c.ledger? slot comm shard with
    | some l => c.putLedger { l with sums := [], n := 0 }
    | none => c
  match c.driftShard slot comm shard with
  | some x => c.leaveDrift x
  | none => c

/-- A shard whose update was added stands in drift from then on: it is the first instance of it that the drift has seen. -/
def Chan.noteShard (c : Chan) (slot : Nat) (comm shard : BitVec 16) : Chan :=
  if (c.driftShard slot comm.toNat shard.toNat).isSome then c
  else c.modPart fun p => { p with shards := p.shards ++ [({ slot := slot, comm := comm, shard := shard } : DriftShard)] }

end Sys2Proof.Machine
end

