-- ==== Sys2Proof/Machine/ColCore.lean ====
section
/-! DEFINITION. The collective engine's core: groups and owners, roles, messages, inputs, chunks, results, instance ends (Cross-Site
Collectives, R151–R188; Compression and Error Feedback, R200, R219, R222–R226). -/

namespace Sys2Proof.Machine

open Sys2Proof

/-! ### Groups and owners (R151–R153) -/

/-- Byte `i` of a group entry. -/
def grpByte (g : GroupEntry) (i : Nat) : Nat := fld g (8 * (127 - i) + 7) (8 * (127 - i))
/-- Word 0 of a group entry: its fields as the layout numbers them. -/
def grpValid (g : GroupEntry) : Bool := bitOf g (960 + 63)
def grpSlot (g : GroupEntry) : Nat := fld g (960 + 62) (960 + 59)
/-- REPL of axis 1 POD, 2 X, 3 Y, 4 Z. -/
def grpRepl (g : GroupEntry) (a : Nat) : Bool := bitOf g (960 + 59 - a)
def grpNexcl (g : GroupEntry) : Nat := fld g (960 + 54) (960 + 50)
/-- LO and HI of axis 0 SITE, 1 POD, 2 X, 3 Y, 4 Z. -/
def grpLo (g : GroupEntry) (a : Nat) : Nat := grpByte g (8 + 2 * a)
def grpHi (g : GroupEntry) (a : Nat) : Nat := grpByte g (9 + 2 * a)
def grpLen (g : GroupEntry) (a : Nat) : Nat := grpHi g a + 1 - grpLo g a
/-- The listed exclusions. -/
def grpExcl (g : GroupEntry) : List ExclEntry :=
  (List.range (grpNexcl g)).map fun i => BitVec.extractLsb' (8 * (127 - (32 + 6 * i) - 5)) 48 g

/-- An exclusion entry matches a member (R152). -/
def exclMatch (e : ExclEntry) (m : Coord) : Bool :=
  decide (fld e 47 40 = fld m 39 32)
    && ([(3, 31, 24), (2, 23, 16), (1, 15, 8), (0, 7, 0)] : List (Nat × Nat × Nat)).all fun a =>
        bitOf e a.1 || decide (fld e (a.2.1 + 8) (a.2.2 + 8) = fld m a.2.1 a.2.2)

/-- A member is excluded. -/
def excluded (live : List ExclEntry) (m : Coord) : Bool := live.any fun e => exclMatch e m

/-- The site of an entry, and whether the entry excludes it whole (R169). -/
def exclSite (e : ExclEntry) : Nat := fld e 47 40
def siteOut (live : List ExclEntry) (site : Nat) : Bool := live.any fun e => decide (exclSite e = site) && decide (fld e 3 0 = 15)

/-- An entry that names a whole site. -/
def siteEntry (m : Coord) : ExclEntry := BitVec.ofNat 48 (m.toNat * 256 + 15)
def memberEntry (m : Coord) : ExclEntry := BitVec.ofNat 48 (m.toNat * 256)

/-- Owners per site, and chunks of a run (R153). -/
def ownerCount (g : GroupEntry) : Nat := (List.range 4).foldl (fun p a => if grpRepl g (a + 1) then p else p * grpLen g (a + 1)) 1
def ownerRun (g : GroupEntry) (chunks : Nat) : Nat := (chunks + ownerCount g - 1) / ownerCount g

/-- Members of a site with owner index `j` (R153): Z counts least. -/
def ownerSet (g : GroupEntry) (site j : Nat) : List Coord :=
  let step (acc : Nat × List Nat) (a : Nat) : Nat × List Nat :=
    let n := max 1 (grpLen g a)
    let vals := if grpRepl g a then (List.range n).map fun i => grpLo g a + i else [grpLo g a + acc.1 % n]
    (if grpRepl g a then acc.1 else acc.1 / n, vals.flatMap fun v => acc.2.map fun x => x + v * 2 ^ (8 * (4 - a)))
  (([4, 3, 2, 1] : List Nat).foldl step (j, [0])).2.map fun x => BitVec.ofNat 40 (site * 2 ^ 32 + x)

/-- The owners of chunk `k` at a site (R153). -/
def ownersAt (g : GroupEntry) (chunks site k : Nat) : List Coord :=
  if grpLo g 0 ≤ site ∧ site ≤ grpHi g 0 then ownerSet g site (k / max 1 (ownerRun g chunks)) else []

/-- Some chunk has no expected contribution at any site (R181 row 4). -/
def someEmpty (g : GroupEntry) (chunks : Nat) (live : List ExclEntry) : Bool :=
  let run := max 1 (ownerRun g chunks)
  (List.range ((chunks + run - 1) / run)).any fun j =>
    (List.range (grpLen g 0)).all fun i => (ownerSet g (grpLo g 0 + i) j).all fun m => excluded live m

/-! ### Phases of a low-rank instance (R222) -/

/-- Phase and index of a CHUNK. -/
def chunkPhase (k : Nat) : Nat := k / 1073741824
def chunkIndex (k : Nat) : Nat := k % 1073741824
def phaseChunk (ph i : Nat) : Nat := ph * 1073741824 + i

/-- CODEC, FMT, low-rank, rank r of an instance. -/
def ctxCodec (x : Ctx) : Nat := x.body.codec.toNat
def ctxFmt (x : Ctx) : Nat := x.body.fmt.toNat
def ctxLow (x : Ctx) : Bool := decide (codecLossy (ctxCodec x) = 3)
def codecRank (codec : Nat) : Nat := 4 * 2 ^ codecParam codec

/-! ### Contexts and the talus -/

/-- The collective engine changed. -/
def Chan.modCol (c : Chan) (f : Col → Col) : Chan := { c with col := f c.col }
/-- A context. -/
def Chan.ctx? (c : Chan) (i : Nat) : Option Ctx := cget? c.col.ctxs i
def Chan.putCtx (c : Chan) (i : Nat) (x : Ctx) : Chan := c.modCol fun q => { q with ctxs := cput q.ctxs i x }
/-- A context changed, if it is held. -/
def Chan.modCtx (c : Chan) (i : Nat) (f : Ctx → Ctx) : Chan := match c.ctx? i with | some x => c.putCtx i (f x) | none => c

/-- Codec and talus changed. -/
def Chan.modCodec (c : Chan) (f : Codec → Codec) : Chan := { c with codec := f c.codec }
/-- The extent of a shard. -/
def Chan.extent? (c : Chan) (slot comm shard : Nat) : Option Extent :=
  c.codec.extents.find? fun e => e.slot == slot && e.comm.toNat == comm && e.shard.toNat == shard
def Chan.ctxExtent (c : Chan) (x : Ctx) : Option Extent := c.extent? x.slot x.comm.toNat x.shard.toNat
def Chan.putExtent (c : Chan) (e : Extent) : Chan :=
  c.modCodec fun d => { d with extents := d.extents.map fun y => if y.slot = e.slot ∧ y.comm = e.comm ∧ y.shard = e.shard then e else y }

/-- Chunks of the factors P and Q (R217). -/
def factorChunks (fmt codec rows cols : Nat) (ph : Nat) : Nat :=
  let v := max 1 (valuesPerChunk fmt)
  let r := codecRank codec
  if ph = 1 then (rows * r + v - 1) / v else (cols * r + v - 1) / v
def Chan.ctxFactor (c : Chan) (x : Ctx) (ph : Nat) : Nat :=
  match c.ctxExtent x with | some e => factorChunks (ctxFmt x) (ctxCodec x) e.rows e.cols ph | none => 0

/-- Chunks of a phase of an instance. -/
def Chan.phaseCount (c : Chan) (x : Ctx) (ph : Nat) : Nat := if ph = 0 then x.chunks else if ctxLow x && decide (ph ≠ 3) then c.ctxFactor x ph else 0

/-- Residual chunk `k` of a copy, +0 where none was written (R217). -/
def residualOf (fmt : Nat) (m : Cells (List Byte)) (k n : Nat) : List Byte :=
  match cget? m k with | some b => (b ++ List.replicate (n - b.length) 0).take n | none => if fmt = 0 then [] else List.replicate n 0
def extCommitted (e : Extent) : Cells (List Byte) := if e.commit then e.upper else e.lower
def extWorking (e : Extent) : Cells (List Byte) := if e.commit then e.lower else e.upper
def extPut (e : Extent) (k : Nat) (b : List Byte) : Extent := if e.commit then { e with lower := cput e.lower k b } else { e with upper := cput e.upper k b }

/-- A copy with what another holds at the keys it does not list. -/
def overCells {α : Type} (new old : Cells α) : Cells α := old.foldl (fun m e => if (cget? m e.1).isSome then m else cput m e.1 e.2) new

/-- The working copies become the committed ones (R219, R251); a chunk that the instance did not code keeps its residual (log entry
36). -/
def extCommit (e : Extent) : Extent :=
  if e.commit then { e with commit := false, lower := overCells e.lower e.upper, upper := [], seen := false }
  else { e with commit := true, upper := overCells e.upper e.lower, lower := [], seen := false }
/-- The working copies are discarded. -/
def extDrop (e : Extent) : Extent :=
  if e.commit then { e with lower := [], qLower := [], maskLo := 0, seedLo := 0 } else { e with upper := [], qUpper := [], maskHi := 0, seedHi := 0 }

/-! ### Roles (R159–R162, R477) -/

/-- Peer's and own site. -/
def Chan.peerSite (c : Chan) : Nat := c.cfg.peerSite.toNat
def Chan.ownSite (c : Chan) : Nat := c.cfg.site.toNat

/-- RING_LEN, position of the own site, and the segment of a chunk (R160). -/
def ringLen (b : CommBody) : Nat := b.rootOrLen.toNat
def Chan.ringPos (c : Chan) (b : CommBody) : Nat := (b.ringOrder.findIdx? fun x => decide (x = c.cfg.site)).getD 0
def segStart (chunks len i : Nat) : Nat := i * chunks / max 1 len
def segOf (chunks len k : Nat) : Nat :=
  ((List.range len).find? fun i => decide (segStart chunks len i ≤ k) && decide (k < segStart chunks len (i + 1))).getD 0

/-- What a channel does with one chunk. -/
structure Part1 where
  /-- It forms the result; it adds inputs; its peer is an expected input; number of sibling inputs. -/
  root : Bool := false
  adds : Bool := false
  peer : Bool := false
  sibs : Nat := 0
  /-- Results go to its peer; to its siblings. -/
  resPeer : Bool := false
  resSibs : Bool := false
  deriving DecidableEq, Repr, Inhabited

/-- Sibling inputs that are expected: of `n`, those whose site is not excluded whole (R169; log entry 33). -/
def Chan.sibsLeft (c : Chan) (x : Ctx) (n : Nat) : Nat :=
  ((List.range n).filter fun i =>
    !siteOut x.live (Config.childSite c.cfg.coord.toNat (c.slot x.slot).body.jobId.toNat x.comm.toNat i)).length

/-- The part of the channel in a chunk of an instance (*Roles*). -/
def Chan.partIn (c : Chan) (x : Ctx) (k : Nat) : Part1 :=
  let n := x.body.childIn.toNat
  let peerIn := !x.drift && !siteOut x.live c.peerSite
  match x.body.role.toNat with
  | 1 => { root := true, adds := true, peer := peerIn, sibs := c.sibsLeft x (n - 1), resPeer := !x.drift, resSibs := decide (1 < n) }
  | 2 => { root := x.drift, adds := true, sibs := c.sibsLeft x n, resSibs := decide (0 < n) }
  | 3 => { resPeer := !x.drift }
  | 4 =>
    let len := ringLen x.body
    let p := c.ringPos x.body
    let i := segOf x.chunks len k
    let leaf := decide ((i + 1) % max 1 len = p)
    let prev := lget 0 x.body.ringOrder ((p + len - 1) % max 1 len)
    { root := decide (i = p), adds := true, sibs := if leaf || siteOut x.live prev.toNat then 0 else 1, resSibs := !leaf }
  | 5 =>
    let len := ringLen x.body
    { resPeer := decide ((segOf x.chunks len k + 1) % max 1 len ≠ c.ringPos x.body) }
  | 6 => { resSibs := true }
  | _ => {}

/-- The channel adds inputs of the instance: it is a reducing channel. -/
def reducing (x : Ctx) : Bool := decide (x.body.role = 1) || decide (x.body.role = 2) || decide (x.body.role = 4)
/-- Its RESULT_TREE leads to members. -/
def serves (x : Ctx) : Bool := reducing x

/-- The channel is the coordinator of the instance (R161, R477). -/
def Chan.isCoord (c : Chan) (x : Ctx) : Bool :=
  decide (x.body.role = 1) || (decide (x.body.role = 2) && x.drift) || (decide (x.body.role = 4) && c.ringPos x.body == 0)

/-! ### Deadlines (R155, R157, R179) -/

/-- DL_MULT, and the deadline in µs from the start or the last ABORT. -/
def Chan.dlMult (c : Chan) (b : CommBody) : Nat := if b.dlMult = 0 then fld (c.reg 0x400300) 31 28 else b.dlMult.toNat
def Chan.deadline (c : Chan) (x : Ctx) : Nat := max (c.dlMult x.body * x.expectUs) (2 * c.rttUs)
def Chan.grace (c : Chan) (x : Ctx) : Nat := max x.body.graceUs.toNat (2 * c.rttUs)

/-! ### Messages (R164) -/

/-- The 16 bytes of a collective header. -/
def colHdrBytes (h : ColHdr) : List Byte :=
  [h.ctype, h.fmt] ++ beBytes 2 h.comm.toNat ++ beBytes 4 h.seq.toNat ++ beBytes 4 h.chunk.toNat ++ beBytes 2 h.ncontrib.toNat ++ [h.attempt, h.pepoch]

/-- The header at the front of a message. -/
def colHdrOf (bs : List Byte) : ColHdr :=
  { ctype := BitVec.ofNat 8 (beAt bs 0 1), fmt := BitVec.ofNat 8 (beAt bs 1 1), comm := BitVec.ofNat 16 (beAt bs 2 2)
    seq := BitVec.ofNat 32 (beAt bs 4 4), chunk := BitVec.ofNat 32 (beAt bs 8 4), ncontrib := BitVec.ofNat 16 (beAt bs 12 2)
    attempt := BitVec.ofNat 8 (beAt bs 14 1), pepoch := BitVec.ofNat 8 (beAt bs 15 1) }

/-- The header of a message of an instance. -/
def hdrFor (x : Ctx) (ctype chunk nc : Nat) : ColHdr :=
  { ctype := BitVec.ofNat 8 ctype, fmt := x.body.fmt, comm := x.comm, seq := x.seq, chunk := BitVec.ofNat 32 chunk
    ncontrib := BitVec.ofNat 16 nc, attempt := BitVec.ofNat 8 x.attempt, pepoch := x.pepoch }

/-- A message to the peer: one TC2 TU, in the lane of the slot's current step (R164, R263). -/
def Chan.toPeer (c : Chan) (slot : Nat) (h : ColHdr) (body : List Byte) (buf : Option Buf := none) : Chan :=
  c.enqueue slot 2 { kind := .collective, bytes := colHdrBytes h ++ body, step := (c.slot slot).step, mode := c.tuMode slot, buf := buf }
/-- A message on RESULT_TREE, and on FWD_TREE when there is one. -/
def Chan.toMembers (c : Chan) (slot : Nat) (b : CommBody) (h : ColHdr) (body : List Byte) : Chan :=
  c.mcast slot b.resultTree.toNat 2 (colHdrBytes h ++ body)
def Chan.toSibs (c : Chan) (slot : Nat) (b : CommBody) (h : ColHdr) (body : List Byte) : Chan :=
  if b.fwdTree = 0xFFFF then c else c.mcast slot b.fwdTree.toNat 2 (colHdrBytes h ++ body)

/-- ABORT and END: on the result paths and on RESULT_TREE (R182); to the peer unless the span is lost. -/
def Chan.outward (c : Chan) (x : Ctx) (h : ColHdr) (body : List Byte) (span : Bool) : Chan :=
  let c := if serves x then c.toMembers x.slot x.body h body else c
  let r := x.body.role
  let c := if span ∧ !x.drift ∧ (r = 1 ∨ r = 3 ∨ r = 5) then c.toPeer x.slot h body else c
  if r = 1 ∨ r = 2 ∨ r = 4 ∨ r = 6 then c.toSibs x.slot x.body h body else c

/-- Toward the coordinator, on the path partials take (R161). -/
def Chan.upward (c : Chan) (slot : Nat) (b : CommBody) (drift : Bool) (h : ColHdr) (body : List Byte) : Chan :=
  if b.role = 3 ∨ b.role = 5 then c.toSibs slot b h body
  else if (b.role = 2 ∨ b.role = 6) ∧ !drift then c.toPeer slot h body
  else if b.role = 4 ∧ c.ringPos b ≠ 0 then c.toPeer slot h body
  else c

/-! ### Strays (R168, R172) -/

/-- A stray, with its buffer freed (R622). -/
def Chan.stray (c : Chan) (m : ColIn) : Chan :=
  ((c.releaseOpt m.buf).count 0x400358).raise { ev := .colStray, slot := m.msg.slot, comm := m.msg.hdr.comm.toNat, seq := m.msg.hdr.seq.toNat }
/-- An input of an older attempt. -/
def Chan.stale (c : Chan) (m : ColIn) : Chan :=
  ((c.releaseOpt m.buf).count 0x400354).raise { ev := .colStale, slot := m.msg.slot, comm := m.msg.hdr.comm.toNat, seq := m.msg.hdr.seq.toNat }

/-- A result chunk formed: one that holds a NaN or an infinity is counted (R193). -/
def Chan.resultFormed (c : Chan) (x : Ctx) (bytes : List Byte) : Chan :=
  if chunkNonfinite (ctxFmt x) bytes then
    (c.count 0x400364).raise { ev := .colNonfinite, slot := x.slot, comm := x.comm.toNat, seq := x.seq.toNat }
  else c

/-- Values saturated in an addition, counted (R175, R176, R193). -/
def Chan.saturated (c : Chan) (x : Ctx) (n : Nat) : Chan :=
  (c.count 0x400368 n).raiseIf (decide (0 < n)) { ev := .colSaturate, slot := x.slot, comm := x.comm.toNat, seq := x.seq.toNat, value := n }

/-! ### Instance ends (R170, R183, R188) -/

/-- The descriptor of a context and its tile tasks are discarded (R246, R253). -/
def Chan.dropTasks (c : Chan) (i : Nat) : Chan :=
  { c with mtx := { c.mtx with
      descs := cdel c.mtx.descs i
      tiles := c.mtx.tiles.map fun l => l.filter fun t => t.ctx ≠ i
      moved := c.mtx.moved.filter fun t => t.ctx ≠ i } }

/-- Everything an instance's current attempt holds is freed: accumulators, jobs at the packer, tile tasks and descriptor (R182,
R246). -/
def Chan.dropWork (c : Chan) (i : Nat) (x : Ctx) : Chan :=
  let c := x.accs.foldl (fun (c : Chan) a => c.releaseOpt a.2.buf) c
  let mine (j : PackJob) : Bool := match j with | .chunk k _ _ _ _ _ => k == i | .recon k _ _ _ => k == i | .object _ _ _ => false
  let c := c.codec.packQ.foldl (fun (c : Chan) j => match j with
    | .chunk k _ _ _ _ b => if k = i then c.releaseOpt b else c
    | _ => c) c
  let c := c.served (.operand x.slot i 2)
  (c.modCodec fun d => { d with packQ := d.packQ.filter fun j => !mine j }).dropTasks i

/-- SM3 of the result chunks that R188 names, in its order; of the dense or crossed chunks, or of the factors (R225). -/
def digestOf (x : Ctx) : List Byte :=
  if ctxLow x then sm3Bytes ((x.lowrank.pres.flatMap fun e => e.2) ++ x.lowrank.qres.flatMap fun e => e.2)
  else sm3Bytes (x.crossed.flatMap fun e => e.2.2)

/-- The event of an end other than DONE. -/
def endEv (result : Nat) : Ev :=
  if result = 0x14 then .colNotStarted else if result = 0x15 then .colPathDown else if result = 0x16 then .colOrphaned else .colFailed

/-- An instance ends at the channel: counts, cairn, talus, ledger, notice, context (R183, R188, R219, R410, R478, R487). `notice` is
false at a JOB_RELEASE (R156). -/
def Chan.endInstance (c : Chan) (i : Nat) (result : Nat) (notice : Bool := true) : Chan :=
  match c.ctx? i with
  | none => c
  | some x =>
    if x.ending then c
    else
      let c := c.dropWork i x
      let good := decide (result = 0x10)
      let c := if good then c.count 0x400348
        else (c.count 0x400350).raiseIf (notice && decide (result ≠ 0x00))
          { ev := endEv result, slot := x.slot, comm := x.comm.toNat, seq := x.seq.toNat, step := x.step.toNat, shard := x.shard.toNat
            value := result }
      let c := match c.ctxExtent x with
        | some e => c.putExtent (if good then extCommit e else extDrop e)
        | none => c
      let c := match c.comm? x.slot x.comm.toNat with
        | some m => if x.regen then c else c.putComm { m with live := x.live }
        | none => c
      let kind := if !good then 2 else if x.recon ≠ .no then 4 else if x.drift then 3 else 1
      let q : Cairn :=
        { slot := x.slot, kind := kind, comm := x.comm.toNat, job := (c.slot x.slot).body.jobId.toNat, step := x.step.toNat
          seq := x.seq.toNat, shard := x.shard.toNat, pepoch := x.pepoch.toNat, ctx := i
          result := if kind = 1 ∨ kind = 4 then 0x10 else if kind = 2 then result else 0, nexcl := x.live.length
          codec := x.body.codec.toNat, stamp := c.now, data := if good then digestOf x else List.replicate 32 0, chunks := x.chunks }
      let c := c.queueCairn q
      let c := if good && x.drift && x.recon = .no then
          (c.ledgerAdd x.slot x.comm.toNat x.shard.toNat (ctxFmt x) x.crossed).noteShard x.slot x.comm x.shard
        else c
      let c := if good && x.recon ≠ .no then c.count 0x90 else c
      let c := if good && (x.recon = .merge || x.recon = .anchor) then c.reconDone x.slot x.comm.toNat x.shard.toNat else c
      let c := if notice then
          c.notice x.body.notify 0x0180 (c.slot x.slot).body.jobId.toNat
            (beBytes 2 x.comm.toNat ++ beBytes 1 result ++ beBytes 1 x.attempt ++ beBytes 4 x.seq.toNat ++ beBytes 4 x.step.toNat
              ++ beBytes 2 x.shard.toNat ++ beBytes 1 x.live.length ++ beBytes 1 0 ++ x.live.flatMap fun e => beBytes 6 e.toNat)
        else c
      (c.putCtx i { x with ending := true, queued := !c.prov.backlog.isEmpty, accs := [] }).freeCtx i

/-- END with a result on the paths of the instance, and its end here (R181, R182); `span` is false when the span is lost (R186). -/
def Chan.endAll (c : Chan) (i result : Nat) (span : Bool) : Chan :=
  match c.ctx? i with
  | none => c
  | some x =>
    if x.ending then c
    else
      let h := hdrFor x 9 0 0
      let body := beBytes 1 result ++ beBytes 7 0
      let c := c.outward x h body span
      let c := if !span ∧ (x.body.role = 3 ∨ x.body.role = 5) then c.toSibs x.slot x.body h body else c
      c.endInstance i result

/-! ### Completion (R162, R170) -/

/-- Result chunks that *Roles* assigns to the channel. -/
def Chan.dueResults (c : Chan) (x : Ctx) : Nat :=
  if ctxLow x && !reducing x then c.ctxFactor x 1 + c.ctxFactor x 2
  else if x.body.role = 5 then
    let len := ringLen x.body
    let i := (c.ringPos x.body + len - 1) % max 1 len
    x.chunks - (segStart x.chunks len (i + 1) - segStart x.chunks len i)
  else x.chunks

/-- The instance completes once every result chunk is delivered and passed on: DONE on RESULT_TREE, then the end. -/
def Chan.checkDone (c : Chan) (i : Nat) : Chan :=
  match c.ctx? i with
  | some x =>
    if x.recon = .merge ∨ x.recon = .anchor ∨ x.results.length < c.dueResults x then c
    else
      let c := if serves x then c.toMembers x.slot x.body (hdrFor x 6 0 0) [] else c
      c.endInstance i 0x10
  | none => c

/-- A result chunk in its line form and expanded: to the members, the peer and the siblings as *Roles* states (R159, R200, R224); noted
for R188 and R478. `back` tells that it came from the siblings: a correction then does not go back (R487). -/
def Chan.deliver (c : Chan) (i : Nat) (k nc : Nat) (line plain : List Byte) (fromPeer back : Bool) : Chan :=
  match c.ctx? i with
  | none => c
  | some x =>
    let p := c.partIn x k
    let h := hdrFor x 3 k nc
    let ph := chunkPhase k
    let c := if serves x && decide (ph = 0) then c.toMembers x.slot x.body h plain else c
    let local0 := ctxLow x && reducing x && decide (ph = 0)
    let c := if p.resPeer && !fromPeer && !local0 then c.toPeer x.slot h line else c
    let c := if p.resSibs && (!back || decide (1 < x.body.childIn.toNat - (if x.body.role = 1 then 1 else 0))) && !local0 then c.toSibs x.slot x.body h line else c
    let crosses := (fromPeer || p.resPeer) && !ctxLow x
    let x' : Ctx := { x with
      results := if ctxLow x && reducing x && decide (ph ≠ 0) then x.results else x.results ++ [k]
      crossed := if (crosses || x.drift) && decide (ph = 0) && x.recon ≠ .merge && x.recon ≠ .anchor then cput x.crossed k (nc, plain)
        else x.crossed
      lowrank := if ph = 1 then { x.lowrank with pres := cput x.lowrank.pres (chunkIndex k) plain, ncontrib := nc }
        else if ph = 2 then { x.lowrank with qres := cput x.lowrank.qres (chunkIndex k) plain, ncontrib := nc } else x.lowrank }
    (c.putCtx i x').checkDone i

/-! ### Chunks going out (R169, R200, R219) -/

/-- A finished chunk leaves for the packer, or at once when nothing codes it (R164). -/
def Chan.sendChunk (c : Chan) (i : Nat) (k nc : Nat) (raw : List Byte) (buf : Option Buf) : Chan :=
  match c.ctx? i with
  | none => c
  | some x =>
    if x.body.codec = 0 ∨ raw.isEmpty then
      if (c.partIn x k).root then (c.releaseOpt buf).deliver i k nc raw raw false false
      else c.toPeer x.slot (hdrFor x 2 k nc) raw buf
    else c.modCodec fun d => { d with packQ := d.packQ ++ [.chunk i x.attempt k nc raw buf] }

end Sys2Proof.Machine
end

