-- ==== Sys2Proof/Machine/MtxCore.lean ====
section
/-! DEFINITION. Descriptors of the matrix engine and how they divide into tile tasks (Matrix Engine, R233–R244, R252–R254). -/

namespace Sys2Proof.Machine

open Sys2Proof

/-- The matrix engine changed. -/
def Chan.modMtx (c : Chan) (f : Mtx → Mtx) : Chan := { c with mtx := f c.mtx }

def ceilDiv (a b : Nat) : Nat := (a + b - 1) / max 1 b

/-- Inner indices that 4,096 handshakes of a task cover: one a handshake, 4 handshakes each in FP32, two on the MXFP8 path, and 32 / r
slices side by side in PROJ and PROJT (R233, R239, R254). -/
def innerPerTask (fp32 mx : Bool) (slices : Nat) : Nat := (if fp32 then 1024 else if mx then 8192 else 4096) * slices

/-- Output rows and columns and inner dimension of a kernel's pass (R243, R247). -/
def passShape (k : Kernel) (pass rows cols r : Nat) : Nat × Nat × Nat :=
  match k, pass with
  | .proj, _ => (rows, r, cols)
  | .projt, _ => (cols, r, rows)
  | .resid, _ => (rows, cols, r)
  | .recon, _ => (rows, cols, r)
  | .orth, 2 => (rows, r, r)
  | .orth, _ => (r, r, rows)
  | _, _ => (0, 0, 0)

/-- Slices of a tile's output columns: PROJ and PROJT with r < 32 (R239). -/
def slicesOf (k : Kernel) (r : Nat) : Nat := match k with | .proj => 32 / min 32 r | .projt => 32 / min 32 r | _ => 1

/-- Inner indices of a task of a kernel's pass (R233, R247, R254). -/
def taskInner (k : Kernel) (pass fmt : Nat) (mx : Bool) (r : Nat) : Nat :=
  innerPerTask (decide (fmt = 3) || (decide (k = .orth) && decide (pass = 1))) mx (slicesOf k r)

/-- Ranges of the inner dimension of each output block, and output blocks, of a pass (R233). -/
def passRanges (k : Kernel) (pass fmt : Nat) (mx : Bool) (rows cols r : Nat) : Nat :=
  ceilDiv (passShape k pass rows cols r).2.2 (taskInner k pass fmt mx r)
def passBlocks (k : Kernel) (pass rows cols r : Nat) : Nat :=
  let s := passShape k pass rows cols r
  ceilDiv s.1 32 * ceilDiv s.2.1 32

/-- Tile tasks of a pass (R233). -/
def passTasks (k : Kernel) (pass fmt : Nat) (mx : Bool) (rows cols r : Nat) : Nat :=
  passBlocks k pass rows cols r * passRanges k pass fmt mx rows cols r

/-- Rank, shape, columns of blocks and ranges of a descriptor's pass. -/
def descR (d : Desc) : Nat := 4 * 2 ^ d.rlog
def descShape (d : Desc) : Nat × Nat × Nat := passShape d.kernel d.pass d.rows d.cols (descR d)
def descBlockCols (d : Desc) : Nat := max 1 (ceilDiv (descShape d).2.1 32)
def descBlocks (d : Desc) : Nat := passBlocks d.kernel d.pass d.rows d.cols (descR d)
def descRanges (d : Desc) : Nat := passRanges d.kernel d.pass d.fmt d.mx d.rows d.cols (descR d)

/-- Panels of a kernel (R252). -/
def panelCount (k : Kernel) (rows cols : Nat) : Nat := match k with | .projt => ceilDiv cols 32 | .qinit => 0 | .selftest => 0 | _ => ceilDiv rows 32

/-- An output block has every range of its inner dimension. -/
def blockDone (d : Desc) (b : Nat) : Bool := decide (descRanges d ≤ (cget {} d.blks b).ranges)

/-- A row of output blocks is complete. -/
def panelDone (d : Desc) (p : Nat) : Bool := (List.range (descBlockCols d)).all fun j => blockDone d (p * descBlockCols d + j)

/-- PANEL_DONE (R252): panels of the pass that writes the kernel's result; in ORTH that is pass 3 (log entry 159). -/
def panelsDone (d : Desc) : Nat :=
  if d.kernel = .orth ∧ d.pass < 2 then 0
  else ((List.range (panelCount d.kernel d.rows d.cols)).filter (panelDone d)).length

/-- The FP32 accumulators of a finished pass, row by row. -/
def descOut (d : Desc) : List Nat :=
  let s := descShape d
  (List.range s.1).flatMap fun i => (List.range s.2.1).map fun j =>
    lget 0 (cget {} d.blks (i / 32 * descBlockCols d + j / 32)).acc (i % 32 * min 32 (s.2.1 - 32 * (j / 32)) + j % 32)

/-- PROJ_MX (R258). -/
def Chan.projMx (c : Chan) : Bool := bitOf (c.reg 0x600008) 31

/-- The descriptor of an instance's attempt is discarded: the instance does not complete here in it (R253). -/
def Chan.noKernel (c : Chan) (i : Nat) : Chan :=
  (c.modCtx i fun x => { x with lowrank := { x.lowrank with bad := true } }).count 0x600048

/-- The fields that R253 holds a descriptor to. -/
def descOk (d : Desc) : Bool :=
  decide (1 ≤ d.fmt) && decide (d.fmt ≤ 3) && decide (d.rlog ≤ 4) && decide (descR d ≤ d.rows) && decide (descR d ≤ d.cols)

/-- A kernel's descriptor is queued for a context, or discarded where its shape is not the extent's; after a discard the attempt has no
further one (R244, R252, R253). -/
def Chan.queueDesc (c : Chan) (i : Nat) (k : Kernel) : Chan :=
  match c.ctx? i with
  | none => c
  | some x =>
    let bad : Raised := { ev := .mtxDescBad, slot := x.slot, comm := x.comm.toNat, seq := x.seq.toNat, shard := x.shard.toNat }
    if x.lowrank.bad || (cget? c.mtx.descs i).isSome then c
    else match c.ctxExtent x with
    | none => (c.noKernel i).raise bad
    | some e =>
      let r := codecRank (ctxCodec x)
      let mx := c.projMx && (decide (k = .proj) || decide (k = .projt))
      let d : Desc :=
        { kernel := k, fmt := ctxFmt x, mx := mx, rlog := codecParam (ctxCodec x), slot := x.slot, comm := x.comm, shard := x.shard
          seq := x.seq, attempt := x.attempt, extent := e.idx, rows := e.rows, cols := e.cols
          tasks := passTasks k 0 (ctxFmt x) mx e.rows e.cols r }
      if descOk d then c.modMtx fun m => { m with descs := cput m.descs i d } else (c.noKernel i).raise bad

/-- Tile `t` carries kernel tasks: IN_SERVICE (R237, R258). The spare tile does only while it stands in for a fenced tile; the work of a
tile under test goes to the other tiles (R237, R499). -/
def Chan.tileUp (c : Chan) (t : Nat) : Bool :=
  !unitOut (c.unit 0 t) && decide ((c.unit 0 t).st ≠ .testing)
    && (decide (t < 16) || (decide (t = 16) && (cget? c.hlth.spare 0).isSome))
def Chan.tilesUp (c : Chan) : List Nat := (List.range 17).filter fun t => c.tileUp t

/-- Codes of a matrix of `n` values kept in chunks (R222). -/
def matCodes (fmt chunks n : Nat) (m : Cells (List Byte)) : List Nat :=
  (((List.range chunks).flatMap fun k => chunkCodes (elemBytes fmt) (residualOf fmt m k (chunkBytes fmt)))).take n

/-- A list of codes as chunks. -/
def codeChunks (fmt : Nat) (cs : List Nat) : List (List Byte) := (pieces (max 1 (valuesPerChunk fmt)) cs).map (codesBytes (elemBytes fmt))

/-- Chunks of result kept by index, as one list of codes. -/
def chunksCodes (fmt : Nat) (m : Cells (List Byte)) : List Nat := m.flatMap fun e => chunkCodes (elemBytes fmt) e.2

end Sys2Proof.Machine
end

