-- ==== Sys2Proof/Machine/ColIn.lean ====
section
/-! DEFINITION. Inputs of chunks: accumulation, completion, own factor chunks (Cross-Site Collectives, R168–R178; Compression and Error
Feedback, R219–R226). -/

namespace Sys2Proof.Machine

open Sys2Proof

/-- Local owners whose contribution chunk `k` expects (R153, R169). -/
def Chan.expectOwners (c : Chan) (x : Ctx) (k : Nat) : List Coord :=
  if chunkPhase k = 0 && reducing x then (ownersAt x.group x.chunks c.ownSite k).filter fun m => !excluded x.live m else []

/-- What chunk `k` still lacks (R169): local owners, the own factor chunk, the peer, sibling inputs. A dense chunk of a low-rank instance
takes local contributions only (R223). -/
def Chan.lacking (c : Chan) (x : Ctx) (k : Nat) (a : Acc) : List InSrc × Nat :=
  let p := c.partIn x k
  let own := (c.expectOwners x k).filter fun m => !a.srcs.contains (.owner m)
  let dense := ctxLow x && decide (chunkPhase k = 0)
  let self := if ctxLow x && decide (chunkPhase k ≠ 0) && !a.srcs.contains .own then [InSrc.own] else []
  let peer := if p.peer && !dense && !a.srcs.contains .peer then [InSrc.peer] else []
  let sibs := (a.srcs.filter fun s => match s with | .sibling _ => true | _ => false).length
  (own.map InSrc.owner ++ self ++ peer, if dense then 0 else p.sibs - sibs)

/-- W, the context's window of accumulators (R171). -/
def Chan.window (c : Chan) : Nat := c.ctxRes 2 - 16

/-- An input for chunk `k` finds an accumulator, or room for a new one (R171). -/
def Chan.roomFor (c : Chan) (x : Ctx) (k : Nat) : Bool := (cget? x.accs k).isSome || decide (x.accs.length < c.window)

/-- The part of a dense chunk of a low-rank instance: M_s = E + the site partial, to the working copy (R223 step 1). -/
def Chan.denseSum (c : Chan) (i : Nat) (k : Nat) (a : Acc) : Chan :=
  match c.ctx? i with
  | none => c
  | some x =>
    let c := c.releaseOpt a.buf
    match c.ctxExtent x with
    | none => c
    | some e =>
      let fmt := ctxFmt x
      let n := chunkBytes fmt
      let base := residualOf fmt (extCommitted e) k n
      let sum := match a.bytes with | some b => chunkAdd fmt base b | none => (base, 0)
      let x' : Ctx := { x with lowrank := { x.lowrank with dense := x.lowrank.dense ++ [k], maxCount := max x.lowrank.maxCount a.ncontrib } }
      let c := ((c.saturated x sum.2).putExtent (extPut e k sum.1)).putCtx i x'
      if x.lowrank.ps.isNone then c.queueDesc i .proj else c

/-- A chunk has every input: it goes on (R169, R170, R177, R223). -/
def Chan.chunkSum (c : Chan) (i : Nat) (k : Nat) (a : Acc) : Chan :=
  match c.ctx? i with
  | none => c
  | some x =>
    let c := c.putCtx i { x with accs := cdel x.accs k, done := x.done ++ [k] }
    let root := (c.partIn x k).root
    if ctxLow x ∧ chunkPhase k = 0 then c.denseSum i k a
    else if ctxLow x ∧ root ∧ chunkPhase k = 1 then
      let c := (c.releaseOpt a.buf).modCtx i fun y => { y with
        lowrank := { y.lowrank with psum := cput y.lowrank.psum (chunkIndex k) (a.bytes.getD []), ncontrib := a.ncontrib } }
      match c.ctx? i with
      | some y => if y.lowrank.psum.length = c.ctxFactor y 1 then c.queueDesc i .orth else c
      | none => c
    else
      let bytes := a.bytes.getD []
      let c := if root then c.resultFormed x bytes else c
      c.sendChunk i k a.ncontrib bytes a.buf

/-- An input is added to its chunk's accumulator, in the order it comes (R173–R176); its buffer becomes the accumulator's or is freed
(R171). -/
def Chan.addInput (c : Chan) (i : Nat) (k : Nat) (src : InSrc) (nc : Nat) (bytes : Option (List Byte)) (buf : Option Buf) : Chan :=
  match c.ctx? i with
  | none => c.releaseOpt buf
  | some x =>
    let a := cget {} x.accs k
    let s : Option (List Byte) × Nat := match a.bytes, bytes with
      | some p, some q => let r := chunkAdd (ctxFmt x) p q; (some r.1, r.2)
      | some p, none => (some p, 0)
      | none, q => (q, 0)
    let keep := a.buf.isNone
    let a' : Acc := { srcs := a.srcs ++ [src], ncontrib := a.ncontrib + nc, bytes := s.1, buf := if keep then buf else a.buf }
    let c := if keep then c else c.releaseOpt buf
    let c := (c.saturated x s.2).putCtx i { x with accs := cput x.accs k a' }
    let l := c.lacking x k a'
    if l.1.isEmpty ∧ l.2 = 0 then c.chunkSum i k a' else c

/-- Chunks of a range that expect nothing at all go on empty (R169). -/
def Chan.touch (c : Chan) (i first n : Nat) : Chan :=
  (List.range n).foldl (fun (c : Chan) j =>
    match c.ctx? i with
    | none => c
    | some x =>
      let k := first + j
      if x.done.contains k || (cget? x.accs k).isSome || decide (c.phaseCount x (chunkPhase k) ≤ chunkIndex k) then c
      else
        let l := c.lacking x k {}
        if l.1.isEmpty ∧ l.2 = 0 then c.chunkSum i k {} else c) c

/-- The own factor chunks stand in for local contributions in the ranges demanded so far (R223 steps 3 and 5, R226, R245). -/
def Chan.feedOwn (c : Chan) (i : Nat) (ph : Nat) : Chan :=
  match c.ctx? i with
  | none => c
  | some x =>
    let vals := if ph = 1 then x.lowrank.ps else if x.lowrank.offered then x.lowrank.qs else none
    match vals with
    | none => c
    | some cs =>
      let chunks := codeChunks (ctxFmt x) cs
      let ks := (x.pulled.filter fun r => chunkPhase r.1 == ph).flatMap fun r => (List.range r.2).map fun j => r.1 + j
      ks.foldl (fun (c : Chan) k =>
        match c.ctx? i with
        | none => c
        | some y =>
          let a := cget {} y.accs k
          if y.done.contains k || a.srcs.contains .own || decide (chunks.length ≤ chunkIndex k) || !c.roomFor y k then c
          else c.addInput i k .own y.lowrank.maxCount (some (lget [] chunks (chunkIndex k))) none) c

/-- A demand accepted by a reducing channel: for dense chunks the pull follows after PULL_DELAY_US; factor chunks are given at once
(R165, R166, R223). -/
def Chan.takeDemand (c : Chan) (i first n : Nat) : Chan :=
  match c.ctx? i with
  | none => c
  | some x =>
    if chunkPhase first = 0 then
      (c.putCtx i { x with pulls := x.pulls ++ [⟨c.us + x.body.pullUs.toNat, first, n⟩] }).touch i first n
    else (c.putCtx i { x with pulled := x.pulled ++ [(first, n)] }).feedOwn i (chunkPhase first)

/-- A low-rank instance moves on when all of P̂ or of Q is held and the kernel before has ended (R223 steps 5 and 6, R244); with Q, RECON's
working Q area and reseed record are written (R245, R251). -/
def Chan.lowAdvance (c : Chan) (i : Nat) : Chan :=
  match c.ctx? i with
  | none => c
  | some x =>
    if !(ctxLow x && reducing x) then c
    else
      let fmt := ctxFmt x
      let lr := x.lowrank
      let c := if lr.phat.isNone && lr.ps.isSome && decide (lr.pres.length = c.ctxFactor x 1) && decide (0 < lr.pres.length) then
          (c.putCtx i { x with lowrank := { lr with phat := some (chunksCodes fmt lr.pres) } }).queueDesc i .projt
        else c
      match c.ctx? i with
      | none => c
      | some y =>
        if y.lowrank.q.isNone && y.lowrank.offered && decide (y.lowrank.qres.length = c.ctxFactor y 2) && decide (0 < y.lowrank.qres.length) then
          let q := chunksCodes fmt y.lowrank.qres
          let mask := match scalarFmt fmt with | some f => deadColumns f (codecRank (ctxCodec y)) q | none => 0
          let c := match c.ctxExtent y with
            | some e => c.putExtent
              (if e.commit then { e with qLower := q, maskLo := mask, seedLo := y.seq } else { e with qUpper := q, maskHi := mask, seedHi := y.seq })
            | none => c
          (c.putCtx i { y with lowrank := { y.lowrank with q := some q } }).queueDesc i .recon
        else c

end Sys2Proof.Machine
end

