-- ==== Sys2Proof/Machine/Mtx.lean ====
section
/-! DEFINITION. Tile tasks, kernels' ends, the factor unit (Matrix Engine, R233–R257). -/

namespace Sys2Proof.Machine

open Sys2Proof

/-- The dense chunks that hold row panel `p` of a matrix are in the working copy (R244). -/
def panelReady (x : Ctx) (d : Desc) (p : Nat) : Bool :=
  let v := max 1 (valuesPerChunk d.fmt)
  let lo := 32 * p * d.cols / v
  let hi := min (min (32 * (p + 1)) d.rows * d.cols) (d.rows * d.cols)
  ((List.range ((hi + v - 1) / v - lo)).map fun j => lo + j).all fun k => x.lowrank.dense.contains k

/-- The next task of a descriptor: the lowest output block whose last range is done and of which no task stands in a kernel slot (R233);
PROJ takes only panels whose dense chunks are in the working copy (R244), and a RECON that waits for a buffer none (R253). -/
def Chan.nextBlock (c : Chan) (i : Nat) (d : Desc) : Option Nat :=
  if d.factor || c.mem.waiters.contains (.operand d.slot i 2) then none
  else (List.range (descBlocks d)).find? fun b =>
    let k := cget {} d.blks b
    !k.busy && decide (k.ranges < descRanges d)
      && (decide (d.kernel ≠ .proj) || (match c.ctx? i with | some x => panelReady x d (b / descBlockCols d) | none => false))

/-- The next context after the last one served, in round robin, with a task (R234). -/
def Chan.nextDesc (c : Chan) : Option (Nat × Desc) :=
  let ready := c.mtx.descs.filter fun e => (c.nextBlock e.1 e.2).isSome
  match ready.find? fun e => decide (c.mtx.rr < e.1) with
  | some e => some e
  | none => ready.head?

/-- A tile with a free kernel slot: the emptiest, the lowest of those (log entry 34). -/
def Chan.freeTile (c : Chan) : Option Nat :=
  (c.tilesUp.filter fun t => decide ((vget c.mtx.tiles t).length < 4)).foldl (fun (m : Option Nat) t => match m with
    | some j => if (vget c.mtx.tiles t).length < (vget c.mtx.tiles j).length then some t else m
    | none => some t) none

/-- A task put into a tile's kernel slots. -/
def Chan.putTask (c : Chan) (t : Nat) (k : Task) : Chan := c.modMtx fun m => { m with tiles := vset m.tiles t (vget m.tiles t ++ [k]) }

/-- TILE_TASK_DISPATCH (R234): tasks that a fence moved go first; with no tile in service every waiting descriptor's wait begins (R253). -/
def Chan.dispatch (c : Chan) : Chan :=
  if c.tilesUp.isEmpty then
    c.modMtx fun m => { m with descs := m.descs.map fun e => (e.1, if e.2.noTileUs.isNone then { e.2 with noTileUs := some c.us } else e.2) }
  else
    let c := c.modMtx fun m => { m with descs := m.descs.map fun e => (e.1, { e.2 with noTileUs := none }) }
    match c.freeTile with
    | none => c
    | some t =>
      match c.mtx.moved with
      | k :: rest => (c.modMtx fun m => { m with moved := rest }).putTask t k
      | [] =>
        match c.nextDesc with
        | none => c
        | some (i, d) =>
          let b := (c.nextBlock i d).getD 0
          let k := cget {} d.blks b
          let d := { d with blks := cput d.blks b { k with busy := true } }
          (c.modMtx fun m => { m with descs := cput m.descs i d, rr := i }).putTask t ⟨i, d.pass, b, k.ranges⟩

/-- Nonfinite outputs counted (R241). -/
def Chan.countNonfinite (c : Chan) (x : Ctx) (f : FFmt) (cs : List Nat) : Chan :=
  let n := (cs.filter (fnonfinite f)).length
  (c.count 0x600054 n).raiseIf (decide (0 < n))
    { ev := .mtxNonfinite, slot := x.slot, comm := x.comm.toNat, seq := x.seq.toNat, shard := x.shard.toNat, value := n }

/-- Q_prev as PROJ reads it: the committed Q, its marked columns generated (R251). -/
def Chan.qPrev (c : Chan) (x : Ctx) (e : Extent) (f : FFmt) (r : Nat) : List Nat :=
  qRead f (c.slot x.slot).body.jobId.toNat x.comm.toNat x.shard.toNat (if e.commit then e.maskHi else e.maskLo)
    (if e.commit then e.seedHi else e.seedLo).toNat r (if e.commit then e.qUpper else e.qLower)

/-- The operands of a descriptor's pass, from the talus (R243). -/
def Chan.descOps (c : Chan) (d : Desc) (x : Ctx) (e : Extent) (f : FFmt) : KOps :=
  let lr := x.lowrank
  let m := match d.kernel with
    | .recon => []
    | .orth => []
    | _ => matCodes d.fmt x.chunks (d.rows * d.cols) (extWorking e)
  let p := if d.kernel = .orth then chunksCodes d.fmt lr.psum else lr.phat.getD []
  let q := match d.kernel with
    | .proj => c.qPrev x e f (descR d)
    | .resid => lr.qs.getD []
    | _ => lr.q.getD []
  kernelOps d.kernel d.pass f d.mx d.cols (descR d) m p q d.t1 d.t

/-- A task of a descriptor run: its block's accumulators stored (R233). -/
def Chan.runTask (c : Chan) (d : Desc) (x : Ctx) (k : Task) : Desc :=
  match c.ctxExtent x, scalarFmt d.fmt with
  | some e, some f =>
    let s := descShape d
    let n := taskInner d.kernel d.pass d.fmt d.mx (descR d)
    let part (total p : Nat) : List Nat := (List.range (min 32 (total - 32 * p))).map fun i => 32 * p + i
    let b := cget {} d.blks k.blk
    let acc := blockRun (c.descOps d x e f) (part s.1 (k.blk / descBlockCols d)) (part s.2.1 (k.blk % descBlockCols d)) (k.rng * n) n b.acc
    { d with done := d.done + 1, blks := cput d.blks k.blk { ranges := k.rng + 1, busy := false, acc := acc } }
  | _, _ => d

/-- RECON: result chunk `k` is covered by finished panels. -/
def reconReady (d : Desc) (k : Nat) : Bool :=
  let v := max 1 (valuesPerChunk d.fmt)
  let n := d.rows * d.cols
  let lo := k * v / max 1 d.cols / 32
  let hi := (min n ((k + 1) * v) - 1) / max 1 d.cols / 32
  (List.range (hi + 1 - lo)).all fun j => panelDone d (lo + j)

/-- RECON hands on the result chunks that are formed, in order, each through a pool 2 buffer of the slot; the engine stalls while none is
free (R114, R243, R253). The last one ends the kernel. -/
def Chan.reconFlush (c : Chan) (i : Nat) : Nat → Chan
  | 0 => c
  | n + 1 =>
    match cget? c.mtx.descs i, c.ctx? i with
    | some d, some x =>
      let v := max 1 (valuesPerChunk d.fmt)
      if d.kernel ≠ .recon ∨ x.chunks ≤ d.out ∨ !reconReady d d.out then c
      else
        let w : Waiter := .operand x.slot i 2
        let a := c.alloc (.slot x.slot) (chunkBytes d.fmt) (some w)
        match a.1, scalarFmt d.fmt with
        | some b, some f =>
          let last := decide (x.chunks ≤ d.out + 1)
          let cs := ((descOut d).drop (d.out * v)).take v |>.map (toFmt f)
          let bytes := codesBytes (elemBytes d.fmt) cs
          let c := a.2.served w
          let c := if last then (c.modMtx fun m => { m with descs := cdel m.descs i }).count 0x600044
            else c.modMtx fun m => { m with descs := cput m.descs i { d with out := d.out + 1 } }
          let c := ((c.countNonfinite x f cs).resultFormed x bytes).deliver i d.out x.lowrank.ncontrib bytes bytes false false
          (c.release b).reconFlush i n
        | _, _ => a.2.await w
    | _, _ => c

/-- A kernel other than RECON has run to its end: its result, and the next of the chain (R223, R243–R251). -/
def Chan.kernelDone (c : Chan) (i : Nat) : Chan :=
  match cget? c.mtx.descs i, c.ctx? i with
  | some d, some x =>
    let c := (c.modMtx fun m => { m with descs := cdel m.descs i }).count 0x600044
    match c.ctxExtent x, scalarFmt d.fmt with
    | some e, some f =>
      let out := (descOut d).map (toFmt f)
      let lr := x.lowrank
      let put (c : Chan) (g : LowRank → LowRank) : Chan := c.modCtx i fun y => { y with lowrank := g y.lowrank }
      match d.kernel with
      | .proj =>
        let marked := if e.seen then 0 else popcount (if e.commit then e.maskHi else e.maskLo) 64
        let c := ((c.putExtent { e with seen := true }).count 0x60005C marked).raiseIf (decide (0 < marked))
          { ev := .mtxReseed, slot := x.slot, comm := x.comm.toNat, seq := x.seq.toNat, shard := x.shard.toNat, value := marked }
        ((put (c.countNonfinite x f out) fun l => { l with ps := some out }).feedOwn i 1).lowAdvance i
      | .orth =>
        let n := d.dead.length
        let c := (c.count 0x600058 n).raiseIf (decide (0 < n) && !x.deficient)
          { ev := .mtxRankDeficient, slot := x.slot, comm := x.comm.toNat, seq := x.seq.toNat, shard := x.shard.toNat, value := n }
        let c := c.modCtx i fun y => { y with deficient := y.deficient || decide (0 < n) }
        let p := out.zipIdx.map fun v => if d.dead.contains (v.2 % descR d) then 0 else v.1
        let c := c.countNonfinite x f p
        ((codeChunks d.fmt p).zipIdx).foldl (fun (c : Chan) (b : List Byte × Nat) =>
          (c.resultFormed x b.1).sendChunk i (phaseChunk 1 b.2) lr.ncontrib b.1 none) c
      | .projt =>
        let c := (c.countNonfinite x f out).putExtent (if e.commit then { e with qLower := out } else { e with qUpper := out })
        (put c fun l => { l with qs := some out }).queueDesc i .resid
      | .resid =>
        let bad := (out.filter (fnonfinite f)).length
        let e' := ((codeChunks d.fmt (out.map fun v => if fnonfinite f v then 0 else v)).zipIdx).foldl
          (fun (e : Extent) (b : List Byte × Nat) => extPut e b.2 b.1) e
        let c := (((c.countNonfinite x f out).count 0x5000AC bad).raiseIf (decide (0 < bad))
          { ev := .codecNonfinite, slot := x.slot, comm := x.comm.toNat, value := bad }).putExtent e'
        ((put c fun l => { l with offered := true }).feedOwn i 2).lowAdvance i
      | .recon => c
      | .qinit => c
      | .selftest => c
    | _, _ => c
  | _, _ => c

/-- A pass of a kernel has run: the factor unit between the passes of ORTH, or the kernel's end (R247). -/
def Chan.passDone (c : Chan) (i : Nat) (d : Desc) : Chan :=
  if d.kernel = .orth ∧ d.pass < 2 then c.modMtx fun m => { m with descs := cput m.descs i { d with factor := true } }
  else c.kernelDone i

/-- TILE_TASK_COMPLETE: the task in progress on a tile ends; one of no descriptor leaves no trace (R233, R246). -/
def Chan.taskDone (c : Chan) (t : Nat) : Chan :=
  match vget c.mtx.tiles t with
  | [] => c
  | k :: rest =>
    let c := (c.modMtx fun m => { m with tiles := vset m.tiles t rest }).count 0x600040
    match cget? c.mtx.descs k.ctx, c.ctx? k.ctx with
    | some d, some x =>
      if d.pass = k.pass then
        let d := c.runTask d x k
        let c := c.modMtx fun m => { m with descs := cput m.descs k.ctx d }
        if d.kernel = .recon then c.reconFlush k.ctx x.chunks
        else if d.tasks ≤ d.done then c.passDone k.ctx d else c
      else c
    | _, _ => c

/-- NO_TILE_WAIT_EXPIRE: a descriptor that has waited 1 ms for a tile is discarded (R253). -/
def Chan.noTile (c : Chan) (i : Nat) : Chan :=
  match cget? c.mtx.descs i with
  | some d =>
    match d.noTileUs with
    | some t =>
      if c.tilesUp.isEmpty ∧ t + 1000 < c.us then
        (((c.dropTasks i).noKernel i).count 0x60004C).raise
          { ev := .mtxNoTile, slot := d.slot, comm := d.comm.toNat, seq := d.seq.toNat, shard := d.shard.toNat }
      else c
    | none => c
  | none => c

/-- QINIT of one shard: Q_prev with SEED 0 into the committed Q area (R249, R250). -/
def Chan.qinit (c : Chan) (slot : Nat) (comm shard : BitVec 16) : Chan :=
  match c.extent? slot comm.toNat shard.toNat, c.comm? slot comm.toNat with
  | some e, some m =>
    match scalarFmt m.body.fmt.toNat with
    | some f =>
      let q := kQinit f (c.slot slot).body.jobId.toNat comm.toNat shard.toNat 0 e.cols (codecRank m.body.codec.toNat)
      c.putExtent (if e.commit then { e with qUpper := q } else { e with qLower := q })
    | none => c
  | _, _ => c

/-- FACTOR_UNIT_COMPLETE: the chol_inv work between two passes of an ORTH, which the next pass follows, or the oldest QINIT, whose bind is
answered once all its shards are set (R247, R249, R255). -/
def Chan.factorDone (c : Chan) (ctx : Option Nat) : Chan :=
  match ctx with
  | some i =>
    match cget? c.mtx.descs i with
    | some d =>
      if d.factor then
        let p := d.pass + 1
        let r := descR d
        let z := cholInv r (matOf r (descOut d))
        let d' : Desc := { d with factor := false, pass := p, done := 0, blks := []
                                  t1 := if d.pass = 0 then z.1 else d.t1, t := if d.pass = 0 then d.t else d.t1.map fun row => rowMul r row z.1
                                  dead := d.dead ++ z.2.filter fun j => !d.dead.contains j
                                  tasks := passTasks d.kernel p d.fmt d.mx d.rows d.cols r }
        c.modMtx fun m => { m with descs := cput m.descs i d' }
      else c
    | none => c
  | none =>
    match c.mtx.binds with
    | [] => c
    | b :: rest =>
      match b.shards with
      | s :: more =>
        let c := (c.qinit b.slot b.comm s).count 0x600044
        if more.isEmpty then (c.modMtx fun m => { m with binds := rest }).answer b.opcode b.env stOk
        else c.modMtx fun m => { m with binds := { b with shards := more } :: rest }
      | [] => (c.modMtx fun m => { m with binds := rest }).answer b.opcode b.env stOk

/-! ### The commands -/

/-- A command to a channel's matrix engine: without an engine nothing runs (R256). -/
def onMtx (ch : Fin 8) (f : Chan → Chan) (s : State) : State := if s.mtxPresent ch then onLive ch f s else s
def execTileTaskDispatch (ch : Fin 8) (s : State) : Out := done (onMtx ch Chan.dispatch s)
def execTileTaskComplete (ch : Fin 8) (tile : Fin 17) (s : State) : Out := done (onMtx ch (fun c => c.taskDone tile) s)
def execNoTileWaitExpire (ch : Fin 8) (ctx : Fin 64) (s : State) : Out := done (onMtx ch (fun c => c.noTile ctx) s)
/-- FACTOR_UNIT_COMPLETE: `ctx` names the ORTH whose work ended; none the QINIT at the head. -/
def execFactorUnitComplete (ch : Fin 8) (ctx : Option (Fin 64)) (s : State) : Out :=
  done (onMtx ch (fun c => c.factorDone (ctx.map Fin.val)) s)

end Sys2Proof.Machine
end

