-- ==== Sys2Proof/Machine/Talus.lean ====
section
/-! DEFINITION. Talus extents and flow formats: CODEC_BIND, CODEC_UNBIND, CODEC_FLOW (Compression and Error Feedback, R195–R198,
R216–R218). -/

namespace Sys2Proof.Machine

open Sys2Proof

/-- The lowest offset at or after 1 at which `size` MiB of `total` are free of the runs in use (R217). -/
def firstFit (used : List (Nat × Nat)) (total size : Nat) : Option Nat :=
  let ok (p : Nat) : Bool := decide (p + size ≤ total) && used.all fun u => decide (u.1 + u.2 ≤ p) || decide (p + size ≤ u.1)
  ((1 :: used.map fun u => u.1 + u.2).filter ok).foldl (fun (m : Option Nat) p => match m with
    | some q => if p < q then some p else m
    | none => some p) none

/-- The lowest index that a table does not hold. -/
def lowestFree (used : List Nat) (n : Nat) : Option Nat := (List.range n).find? fun i => !used.contains i

/-- An instance of the communicator runs. -/
def Chan.commBusy (c : Chan) (slot comm : Nat) : Bool := c.col.ctxs.any fun e =>
  e.2.slot == slot && e.2.comm.toNat == comm && (!e.2.ending || e.2.queued)

/-- Whole MiB of `n` bytes. -/
def mibOf (n : Nat) : Nat := ceilDiv n 1048576

/-- Size of a talus extent (R217). -/
def talusMib (fmt codec chunks rows cols : Nat) : Nat :=
  if codecLossy codec = 3 then mibOf ((2 * chunks + factorChunks fmt codec rows cols 1 + 2 * factorChunks fmt codec rows cols 2) * 4096)
  else mibOf (2 * chunks * 4096)

/-- MiB of a region. -/
def Chan.regionMib (c : Chan) (r : Nat) : Nat := c.regionSize r / 1048576

/-- The ranges of *CODEC_BIND body* that name shards. -/
def shardRange (lo cnt : Nat) : Bool := decide (1 ≤ cnt) && decide (cnt ≤ 4096) && decide (lo + cnt - 1 ≤ 65535)

/-- The fields of a CODEC_BIND for an open communicator (R216). -/
def bindOk (m : Comm) (b : BindBody) : Bool :=
  let fmt := m.body.fmt.toNat
  let codec := m.body.codec.toNat
  let n := b.chunks.toNat
  let r := codecRank codec
  let v := valuesPerChunk fmt
  let dim (d : Nat) : Bool := decide (r ≤ d) && decide (d ≤ 16777215)
  codecEf codec && shardRange b.shardLo.toNat b.shardCnt.toNat && decide (b.rsvd = 0) && decide (1 ≤ n) && decide (n ≤ 16777215)
    && (if codecLossy codec = 3 then
          dim b.rows.toNat && dim b.cols.toNat && decide ((n - 1) * v < b.rows.toNat * b.cols.toNat)
            && decide (b.rows.toNat * b.cols.toNat ≤ n * v)
        else decide (b.rows = 0) && decide (b.cols = 0))

/-- The runs of a region that are not free: the MiB of metadata, the extents, and the MiB that R132 shuts out beside these. -/
def Chan.runsOf (c : Chan) (r : Nat) (extents : List (Nat × Nat)) : List (Nat × Nat) :=
  let used := (0, 1) :: extents
  used ++ (c.badMibs r).filter fun b => !used.any fun u => decide (u.1 ≤ b.1) && decide (b.1 < u.1 + u.2)
def Chan.talusRuns (c : Chan) : List (Nat × Nat) := c.runsOf 3 (c.codec.extents.map fun e => (e.baseMib, e.sizeMib))

/-- Extents for the shards not yet bound, placed one after another; none when one of them finds no place (R216, R217). -/
def Chan.placeExtents (c : Chan) (slot : Nat) (b : BindBody) (m : Comm) : List Nat → Option Chan
  | [] => some c
  | s :: rest =>
    let fmt := m.body.fmt.toNat
    let codec := m.body.codec.toNat
    let size := talusMib fmt codec b.chunks.toNat b.rows.toNat b.cols.toNat
    match lowestFree (c.codec.extents.map Extent.idx) 4096,
      firstFit c.talusRuns (c.regionMib 3) size with
    | some i, some p =>
      let e : Extent := { idx := i, slot := slot, comm := b.comm, shard := BitVec.ofNat 16 s, baseMib := p, sizeMib := size
                          chunks := b.chunks.toNat, rows := b.rows.toNat, cols := b.cols.toNat, lowrank := decide (codecLossy codec = 3) }
      (c.modCodec fun d => { d with extents := d.extents ++ [e] }).placeExtents slot b m rest
    | _, _ => none

/-- CODEC_BIND (R216, R249). -/
def Chan.codecBind (c : Chan) (env : CtlEnv) (slot : Nat) (b : BindBody) : Chan :=
  let op := 0x0200
  let shards := (List.range b.shardCnt.toNat).map fun i => b.shardLo.toNat + i
  let has (s : Nat) : Option Extent := c.extent? slot b.comm.toNat s
  let differs := shards.any fun s => match has s with
    | some e => decide (e.chunks ≠ b.chunks.toNat ∨ e.rows ≠ b.rows.toNat ∨ e.cols ≠ b.cols.toNat)
    | none => false
  match c.comm? slot b.comm.toNat with
  | none => c.answer op env stBadField
  | some m =>
    if !bindOk m b || differs then c.answer op env stBadField
    else if c.commBusy slot b.comm.toNat then c.answer op env stBusy
    else
      let new := shards.filter fun s => (has s).isNone
      match c.placeExtents slot b m new with
      | none => (c.raise { ev := .codecTalusFull, slot := slot, comm := b.comm.toNat }).answer op env stTalusFull
      | some c =>
        if codecLossy m.body.codec.toNat = 3 ∧ ¬new.isEmpty then
          c.modMtx fun q => { q with binds := q.binds ++ [⟨env, slot, b.comm, new.map fun s => BitVec.ofNat 16 s, op⟩] }
        else c.answer op env stOk

/-- The shard lies in the range an unbind names. -/
def inShards (b : UnbindBody) (comm shard : BitVec 16) : Bool :=
  decide (comm = b.comm) && decide (b.lo.toNat ≤ shard.toNat) && decide (shard.toNat < b.lo.toNat + b.cnt.toNat)

/-- CODEC_UNBIND (R218). -/
def Chan.codecUnbind (c : Chan) (env : CtlEnv) (slot : Nat) (b : UnbindBody) : Chan :=
  let op := 0x0201
  if (c.comm? slot b.comm.toNat).isNone || !shardRange b.lo.toNat b.cnt.toNat || decide (b.rsvd ≠ 0) then c.answer op env stBadField
  else if c.commBusy slot b.comm.toNat then c.answer op env stBusy
  else (c.modCodec fun d => { d with extents := d.extents.filter fun e => !(e.slot == slot && inShards b e.comm e.shard) }).answer op env stOk

/-- CODEC_FLOW (R198): TC, FMT and the two reserved bytes. -/
def Chan.codecFlow (c : Chan) (env : CtlEnv) (slot : Nat) (tc fmt : BitVec 8) (rsvd : BitVec 16) : Chan :=
  let s := c.slot slot
  let bad := (decide (tc ≠ 1) && decide (tc ≠ 3)) || decide (3 < fmt.toNat) || (decide (fmt ≠ 0) && !bitOf s.opts 0)
    || (decide (tc = 1) && decide (s.mode = .col)) || decide (rsvd ≠ 0)
  if bad then c.answer 0x0202 env stBadField
  else (c.modCodec fun d => { d with flows := cset 0 d.flows (4 * slot + tc.toNat) fmt.toNat }).answer 0x0202 env stOk

/-- Extents of a communicator, or of a slot, freed: talus and ledger (R218, R479). -/
def Chan.freeExtents (c : Chan) (slot : Nat) (comm : Option Nat) : Chan :=
  let mine (s : Nat) (m : BitVec 16) : Bool := s == slot && (match comm with | some k => m.toNat == k | none => true)
  (c.modCodec fun d => { d with extents := d.extents.filter fun e => !mine e.slot e.comm }).modPart fun p =>
    { p with ledgers := p.ledgers.filter fun l => !mine l.slot l.comm }

def execCodecBind (ch : Fin 8) (env : CtlEnv) (b : BindBody) (s : State) : Out :=
  done (onPath ch (fun c => c.onJob 0x0200 env fun k c => c.codecBind env k b) s)
def execCodecUnbind (ch : Fin 8) (env : CtlEnv) (b : UnbindBody) (s : State) : Out :=
  done (onPath ch (fun c => c.onJob 0x0201 env fun k c => c.codecUnbind env k b) s)
def execCodecFlow (ch : Fin 8) (env : CtlEnv) (tc fmt : BitVec 8) (rsvd : BitVec 16) (s : State) : Out :=
  done (onPath ch (fun c => c.onJob 0x0202 env fun k c => c.codecFlow env k tc fmt rsvd) s)

end Sys2Proof.Machine
end

