-- ==== Sys2Proof/Machine/Col.lean ====
section
/-! DEFINITION. The collective engine's commands: communicators, instances, messages, deadlines, the coordinator (Cross-Site Collectives,
R151–R193; Partitions, Drift and Unit Health, R477, R484–R487, R492). -/

namespace Sys2Proof.Machine

open Sys2Proof

/-! ### Communicators (R155, R156, R195, R196) -/

/-- The bytes of a COL_COMM_OPEN body. -/
def commBytes (b : CommBody) : List Byte :=
  beBytes 2 b.comm.toNat ++ beBytes 2 b.group.toNat ++ [b.algo, b.fmt, b.role, b.codec, b.childIn, b.rootOrLen]
    ++ beBytes 2 b.resultTree.toNat ++ beBytes 2 b.fwdTree.toNat ++ beBytes 2 b.rate.toNat ++ beBytes 2 b.alignUs.toNat
    ++ beBytes 2 b.pullUs.toNat ++ beBytes 2 b.graceUs.toNat ++ [b.dlMult, b.rsvd23] ++ beBytes 5 b.notify.toNat
    ++ beBytes 3 b.rsvd29.toNat ++ b.ringOrder

/-- *Allowed CODEC combinations* (R196). -/
def Chan.codecAllowed (c : Chan) (slot : Nat) (b : CommBody) : Bool :=
  let k := b.codec.toNat
  let o := (c.slot slot).opts
  let flt := decide (b.fmt = 1) || decide (b.fmt = 2) || decide (b.fmt = 3)
  let ef := codecEf k
  (match codecLossy k with
    | 0 => !ef && codecParam k == 0 && (!codecExp k || (flt && bitOf o 0))
    | 1 => flt && bitOf o 1 && !codecExp k && decide (codecParam k ≤ 5)
    | 2 => flt && bitOf o 2 && !codecExp k
    | 3 => flt && bitOf o 3 && ef && decide (codecParam k ≤ 4) && decide (b.algo = 1)
    | _ => false) && (!ef || decide (0 < c.regionSize 3))

/-- The group entry of a slot in its current generation, valid and its own. -/
def Chan.group? (c : Chan) (slot group : Nat) : Option GroupEntry :=
  match cget? (c.tables (c.genOf slot)).groups group with
  | some g => if grpValid g && grpSlot g == slot then some g else none
  | none => none

/-- The ring fields (R155). -/
def Chan.ringOk (c : Chan) (b : CommBody) : Bool :=
  let len := ringLen b
  let used := b.ringOrder.take len
  let p := c.ringPos b
  let next := if b.role = 4 then lget 0 used ((p + 1) % max 1 len) else lget 0 used ((p + len - 1) % max 1 len)
  b.ringOrder.length == 64 && decide (2 ≤ len) && decide (len ≤ 64) && (b.ringOrder.drop len).all (fun x => decide (x = 0))
    && used.all (fun x => decide (x.toNat ≤ 63)) && used.all (fun x => (used.filter fun y => decide (x = y)).length == 1)
    && used.contains c.cfg.site && decide (next = c.cfg.peerSite)

/-- The checks of R155. -/
def Chan.commOk (c : Chan) (slot : Nat) (b : CommBody) : Bool :=
  let r := b.role.toNat
  let tree := decide (b.algo = 1)
  let repl (g : GroupEntry) : Nat := (List.range 4).foldl (fun p a => if grpRepl g (a + 1) then p * grpLen g (a + 1) else p) 1
  decide ((c.slot slot).mode = .stage)
    && (match c.group? slot b.group.toNat with | some g => decide (repl g ≤ 16) | none => false)
    && decide (b.group.toNat ≤ 1023) && decide (b.comm ≠ 0)
    && ((tree && (r == 1 || r == 2 || r == 3 || r == 6) && b.ringOrder.isEmpty && decide (b.rootOrLen.toNat ≤ 63)
          && (r == 1) == decide (b.rootOrLen.toNat = c.ownSite))
        || (decide (b.algo = 2) && (r == 4 || r == 5) && c.ringOk b))
    && decide (b.childIn.toNat ≤ 63) && (r == 1 || r == 2 || r == 6 || decide (b.childIn = 0))
    && decide (1 ≤ b.fmt.toNat) && decide (b.fmt.toNat ≤ 11) && c.codecAllowed slot b
    && decide (fld b.resultTree 15 12 = 0) && (decide (b.fwdTree = 0xFFFF) || decide (fld b.fwdTree 15 12 = 0))
    && decide (1 ≤ b.rate.toNat) && decide (b.rate.toNat ≤ 1500)
    && (decide (b.dlMult = 0) || (decide (2 ≤ b.dlMult.toNat) && decide (b.dlMult.toNat ≤ 15)))
    && decide (b.rsvd23 = 0) && decide (b.rsvd29 = 0) && decide (siteOf b.notify ≤ 63)

/-- COL_COMM_OPEN (R154, R155, R410, R413). -/
def Chan.commOpen (c : Chan) (env : CtlEnv) (slot : Nat) (b : CommBody) : Chan :=
  let op := 0x0100
  if !c.commOk slot b then c.answerCol op env stBadField 0 0xFF
  else if (c.comm? slot b.comm.toNat).isSome then c.answerCol op env stOk 0x03 0xFF
  else if 256 ≤ c.col.comms.length then c.answerCol op env stOk 0x02 0xFF
  else
    let live := match c.group? slot b.group.toNat with | some g => grpExcl g | none => []
    let sp : Span := { slot := slot, comm := b.comm.toNat, digest := sm3Bytes (beBytes 4 (c.slot slot).body.jobId.toNat ++ beBytes 2 b.comm.toNat) }
    let idx := (lowestFree (c.col.comms.map Comm.idx) 256).getD 0
    let c := c.modCol fun q => { q with comms := q.comms ++ [({ idx := idx, slot := slot, body := b, live := live } : Comm)] }
    let c := c.modProv fun p => { p with spans := p.spans ++ [sp] }
    (c.slotCairn slot 7 b.comm.toNat 0 b.codec.toNat (sm3Bytes (commBytes b))).answerCol op env stOk 0 0xFF

/-- Pending demands that a condition picks are dropped and counted (R172). -/
def Chan.dropPending (c : Chan) (p : PendDemand → Bool) : Chan :=
  let n := (c.col.pending.filter p).length
  ((c.modCol fun q => { q with pending := q.pending.filter fun d => !p d }).count 0x400360 n).raiseIf (decide (0 < n))
    { ev := .colPendDrop, value := n }

/-- A communicator closed, with its extents and its span digest (R156, R218, R479). -/
def Chan.closeComm (c : Chan) (slot comm : Nat) : Chan :=
  let c := c.freeExtents slot (some comm)
  let c := c.modCol fun q => { q with comms := q.comms.filter fun m => !(m.slot == slot && m.body.comm.toNat == comm) }
  let c := c.modProv fun p => { p with spans := p.spans.filter fun s => !(s.slot == slot && s.comm == comm) }
  c.dropPending fun d => d.msg.slot.val == slot && d.msg.hdr.comm.toNat == comm

/-- COL_COMM_CLOSE (R154, R156). -/
def Chan.commClose (c : Chan) (env : CtlEnv) (slot : Nat) (comm rsvd : BitVec 16) : Chan :=
  let op := 0x0101
  if rsvd ≠ 0 then c.answerCol op env stBadField 0 0xFF
  else if (c.comm? slot comm.toNat).isNone then c.answerCol op env stOk 0x04 0xFF
  else if c.commBusy slot comm.toNat then c.answerCol op env stOk 0x06 0xFF
  else (c.closeComm slot comm.toNat).answerCol op env stOk 0 0xFF

/-! ### Demands (R165, R166, R172) -/

/-- A DEMAND for a range, passed on by the role of the channel; none when the message is a stray (R162, R166, R169, R477). -/
def Chan.demandIn (c : Chan) (i : Nat) (m : ColMsg) : Option Chan :=
  match c.ctx? i with
  | none => none
  | some x =>
    let first := m.hdr.chunk.toNat
    let n := beAt m.body 0 4
    let r := x.body.role.toNat
    if n = 0 ∨ 64 < n ∨ x.recon ≠ .no ∨ c.phaseCount x (chunkPhase first) ≤ chunkIndex first then none
    else if m.line then
      if r = 6 then some (c.toSibs x.slot x.body m.hdr m.body)
      else if (r = 2 ∧ !x.drift) ∨ r = 4 then
        let p := c.partIn x first
        if p.root then none
        else some ((if 0 < p.sibs then c.toSibs x.slot x.body m.hdr m.body else c).takeDemand i first n)
      else none
    else if r = 3 ∨ r = 5 then
      if siteOut x.live c.peerSite then some c
      else if x.drift then
        some ((List.range n).foldl (fun (c : Chan) j => c.toSibs x.slot x.body (hdrFor x 2 (first + j) 0) []) c)
      else some (c.putCtx i { x with demands := x.demands ++ [⟨c.us + x.body.alignUs.toNat, first, n⟩] })
    else none

/-- Chunks that RATE allows from a tick on (R155). -/
def Chan.rateChunks (c : Chan) (x : Ctx) (since : Nat) : Nat := x.body.rate.toNat * (c.us - since) / 10

/-- The next range that a root demands, within its phase: first chunk and count (R165, R223). -/
def Chan.nextRange (c : Chan) (x : Ctx) : Option (Nat × Nat) :=
  if x.body.role = 4 then
    let len := ringLen x.body
    let p := c.ringPos x.body
    let k := max x.nextDem (segStart x.chunks len p)
    let hi := segStart x.chunks len (p + 1)
    if k < hi then some (k, min 64 (hi - k)) else none
  else if ctxLow x then
    let ph := max 1 (chunkPhase x.nextDem)
    let i := if chunkPhase x.nextDem = 0 then 0 else chunkIndex x.nextDem
    let ph' := if c.ctxFactor x ph ≤ i then ph + 1 else ph
    let i' := if c.ctxFactor x ph ≤ i then 0 else i
    let ready := if ph' = 1 then x.lowrank.ps.isSome else decide (ph' = 2) && x.lowrank.offered
    if ready && decide (i' < c.ctxFactor x ph') then some (phaseChunk ph' i', min 64 (c.ctxFactor x ph' - i')) else none
  else if x.nextDem < x.chunks then some (x.nextDem, min 64 (x.chunks - x.nextDem)) else none

/-- A chunk of a reconcile instance goes out: ~l to the peer, or a correction to the siblings; through the packer when the communicator has
a CODEC (R200, R485, R487). -/
def Chan.reconOut (c : Chan) (i : Nat) (x : Ctx) (k : Nat) (result : Bool) (raw : List Byte) : Chan :=
  if x.body.codec ≠ 0 then c.modCodec fun d => { d with packQ := d.packQ ++ [.recon i k result raw] }
  else if result then c.toSibs x.slot x.body (hdrFor x 3 k 1) raw
  else c.toPeer x.slot (hdrFor x 2 k 1) raw

/-- The next rounded ledger chunks of a reconcile instance go to the peer at RATE (R485); under ANCHOR they are u (R486). -/
def Chan.reconSend (c : Chan) (i : Nat) (x : Ctx) : Chan :=
  let sends := x.recon = .merge ∨ (x.recon = .anchor ∧ (x.body.role = 1 ∨ x.body.role = 3))
  if ¬sends ∨ x.chunks ≤ x.sent ∨ c.rateChunks x x.demUs < x.sent then c
  else
    let l := (c.ledger? x.slot x.comm.toNat x.shard.toNat).getD default
    let n := min 64 (x.chunks - x.sent)
    let c := (List.range n).foldl (fun (c : Chan) j =>
      let raw := ledgerRounded (ctxFmt x) x.chunks l (x.sent + j)
      c.reconOut i x (x.sent + j) false raw) c
    let own := if x.recon = .anchor then
        (List.range n).foldl (fun m j => cput m (x.sent + j) (1, ledgerRounded (ctxFmt x) x.chunks l (x.sent + j))) x.crossed
      else x.crossed
    c.putCtx i { x with sent := x.sent + n, crossed := own }

/-- A reconcile instance completes at an end once it has sent every chunk due from it (R487). -/
def Chan.reconCheck (c : Chan) (i : Nat) : Chan :=
  match c.ctx? i with
  | some x =>
    let anchor := x.body.role = 1 ∨ x.body.role = 3
    let sent := if x.recon = .merge ∨ anchor then decide (x.chunks ≤ x.sent) else true
    let got := if x.recon = .merge ∨ ¬anchor then decide (x.chunks ≤ x.results.length) else true
    let packed := c.codec.packQ.all fun j => match j with | .recon k _ _ _ => k != i | _ => true
    if (x.recon = .merge ∨ x.recon = .anchor) ∧ sent ∧ got ∧ packed then
      (if serves x then c.toMembers x.slot x.body (hdrFor x 6 0 0) [] else c).endInstance i 0x10
    else c
  | none => c

/-- DEMAND_RATE_SEND: the next demand of a root, or the next ledger chunks of a reconcile instance, when RATE allows it (R165, R477,
R485). -/
def Chan.demandRate (c : Chan) (i : Nat) : Chan :=
  match c.ctx? i with
  | none => c
  | some x =>
    if x.ending then c
    else if x.recon ≠ .no then (c.reconSend i x).reconCheck i
    else
      let roots := x.body.role = 1 ∨ (x.body.role = 2 ∧ x.drift) ∨ x.body.role = 4
      match c.nextRange x with
      | none => c
      | some (first, n) =>
        let base := if x.body.role = 4 then segStart x.chunks (ringLen x.body) (c.ringPos x.body) else 0
        if ¬roots ∨ c.rateChunks x x.demUs < chunkIndex first - base then c
        else
          let p := c.partIn x first
          let h := hdrFor x 4 first 0
          let body := beBytes 4 n
          let c := if p.peer then c.toPeer x.slot h body else c
          let c := if 0 < p.sibs then c.toSibs x.slot x.body h body else c
          let newPhase := chunkPhase first ≠ chunkPhase x.nextDem
          let x' : Ctx := { x with nextDem := first + n, asked := if p.peer then x.asked ++ [(first, n)] else x.asked
                                   demUs := if newPhase then c.us else x.demUs }
          (c.putCtx i x').takeDemand i first n

/-- PULL_DELAY_EXPIRE: pulls that are due go out on RESULT_TREE (R165, R166). -/
def Chan.pullExpire (c : Chan) (i : Nat) : Chan :=
  match c.ctx? i with
  | none => c
  | some x =>
    let go := x.pulls.filter fun d => decide (d.dueUs < c.us)
    let c := c.putCtx i { x with pulls := x.pulls.filter fun d => decide (c.us ≤ d.dueUs), pulled := x.pulled ++ go.map fun d => (d.first, d.count) }
    go.foldl (fun (c : Chan) d => c.toMembers x.slot x.body (hdrFor x 5 d.first 0) (beBytes 4 d.count)) c

/-- ALIGN_DELAY_EXPIRE: demands that are due go to the peer (R166). -/
def Chan.alignExpire (c : Chan) (i : Nat) : Chan :=
  match c.ctx? i with
  | none => c
  | some x =>
    let go := x.demands.filter fun d => decide (d.dueUs < c.us)
    let x' : Ctx := { x with demands := x.demands.filter fun d => decide (c.us ≤ d.dueUs), asked := x.asked ++ go.map fun d => (d.first, d.count) }
    go.foldl (fun (c : Chan) d => c.toPeer x.slot (hdrFor x 4 d.first 0) (beBytes 4 d.count)) (c.putCtx i x')

/-- LOWRANK_PULL_SEND: the next dense PULL of a reducing channel, at RATE (R223 step 1). -/
def Chan.lowPull (c : Chan) (i : Nat) : Chan :=
  match c.ctx? i with
  | none => c
  | some x =>
    let k := x.lowrank.nextPull
    if !(ctxLow x && reducing x) ∨ x.recon ≠ .no ∨ x.chunks ≤ k ∨ c.rateChunks x x.baseUs < k then c
    else
      let n := min 64 (x.chunks - k)
      let c := c.toMembers x.slot x.body (hdrFor x 5 k 0) (beBytes 4 n)
      (c.putCtx i { x with pulled := x.pulled ++ [(k, n)], lowrank := { x.lowrank with nextPull := k + n } }).touch i k n

/-! ### Starting (R157, R158, R218, R257, R477, R485) -/

/-- EXPECT_US, computed where it is 0 (R157). -/
def Chan.expectOf (c : Chan) (b : CommBody) (s : StartBody) : Nat :=
  if s.expectUs = 0 then s.chunks.toNat * 10 / max 1 b.rate.toNat + 2 * c.rttUs else s.expectUs.toNat

/-- Check 1 of R157 (R218). -/
def Chan.startFields (c : Chan) (slot : Nat) (s : StartBody) : Bool :=
  decide (s.rsvd2 = 0) && decide (s.rsvd14 = 0) && decide (1 ≤ s.chunks.toNat) && decide (s.chunks.toNat ≤ 16777215)
    && (match c.comm? slot s.comm.toNat with
      | some m => !codecEf m.body.codec.toNat || (match c.extent? slot s.comm.toNat s.shard.toNat with
        | some e => e.chunks == s.chunks.toNat
        | none => false)
      | none => true)

/-- Checks 7 to 9 of R157: a status, or none. A shard in drift is refused once its offers have been exchanged (R484), and the far end's
limit binds whether or not the line is up (R480). -/
def Chan.driftStatus (c : Chan) (slot : Nat) (m : Comm) (shard : Nat) : Option Nat :=
  let action := match c.driftShard slot m.body.comm.toNat shard with | some d => d.action | none => none
  match action with
  | some .reload => some 0xA1
  | some _ => some 0xA4
  | none => match cget? c.part.drifts slot with
    | some f => if c.drifts m && m.body.role = 2 && f.limit then some 0xA0 else none
    | none => none

/-- The checks of R485 at an end of the lost span: a status, or the part the channel takes. -/
def Chan.reconPart (c : Chan) (slot : Nat) (m : Comm) (shard : Nat) : Nat × Recon :=
  if !(c.drifting slot && c.drifts m) then (0, .pass)
  else match c.driftShard slot m.body.comm.toNat shard with
  | some d => match d.action with
    | some .reload => (0xA1, .no)
    | some .merge => (0, .merge)
    | some .anchor => (0, .anchor)
    | none => (stBadField, .no)
  | none => (stBadField, .no)

/-- The instance begins in a context: pending demands apply, and one that uses a lost span without drift ends at once (R157, R172,
R186). While the line is away, and for a shard still in drift, the roles are those of *Roles in drift* (R477). -/
def Chan.begin (c : Chan) (i slot : Nat) (m : Comm) (g : GroupEntry) (s : StartBody) (recon : Recon) : Chan :=
  let drift := c.drifting slot && c.drifts m && recon = .no
    && (decide (c.line.state ≠ .up) || (c.driftShard slot s.comm.toNat s.shard.toNat).isSome)
  let x : Ctx :=
    { slot := slot, comm := s.comm, body := m.body, group := g, pepoch := (c.slot slot).pepoch, seq := s.seq, step := s.step
      shard := s.shard, chunks := s.chunks.toNat, expectUs := c.expectOf m.body s, drift := drift, recon := recon, live := m.live
      baseUs := c.us, demUs := c.us }
  let m := { m with lastSeq := s.seq, warned := m.warned.filter fun w => seqLater w.toNat s.seq.toNat }
  let c := ((c.putComm m).putCtx i x).count 0x400340
  let mine (d : PendDemand) : Bool := d.msg.slot.val == slot && decide (d.msg.hdr.comm = s.comm) && decide (d.msg.hdr.seq = s.seq)
  let pend := c.col.pending.filter mine
  let c := c.modCol fun q => { q with pending := q.pending.filter fun d => !mine d }
  let c := pend.foldl (fun (c : Chan) d => match c.demandIn i d.msg with | some c' => c' | none => c.stray { msg := d.msg }) c
  if c.line.state ≠ .up ∧ !drift then c.endAll i 0x15 false else c

/-- COL_START and RECON_START: the ordered checks, then the lowest free context (R157, R485). `tell` answers with status, COL_RESULT and
context. -/
def Chan.startWith (c : Chan) (slot : Nat) (s : StartBody) (recon : Bool) (tell : Chan → Nat → Nat → Nat → Chan) : Chan :=
  let sl := c.slot slot
  if !c.startFields slot s then tell c stBadField 0 0xFF
  else if s.step ≠ sl.step ∧ s.step ≠ sl.step - 1 then tell c stBadStep 0 0xFF
  else match c.comm? slot s.comm.toNat with
  | none => tell c stOk 0x04 0xFF
  | some m => match c.group? slot m.body.group.toNat with
    | none => tell c stBadField 0 0xFF
    | some g =>
      let part := if recon then c.reconPart slot m s.shard.toNat else ((c.driftStatus slot m s.shard.toNat).getD 0, Recon.no)
      if c.commBusy slot s.comm.toNat then tell c stOk 0x06 0xFF
      else if s.seq ≠ m.lastSeq + 1 then tell c stOk 0x05 0xFF
      else if part.1 ≠ 0 then tell c part.1 0 0xFF
      else if codecLossy m.body.codec.toNat = 3 ∧ c.tilesUp.isEmpty then tell c stMtxUnavailable 0 0xFF
      else
        let i := firstGap c.col.ctxs 0
        if 64 ≤ i ∨ c.ctxRes 2 < 24 then
          tell ((c.count 0x400344).raise { ev := .colNoContext, slot := slot, comm := s.comm.toNat, seq := s.seq.toNat }) stOk 0x01 0xFF
        else tell (c.begin i slot m g s part.2) stOk 0 i

/-! ### Attempts and the coordinator (R179–R184) -/

/-- The instance goes on under a new attempt with a live set: everything of the old one is freed (R182, R246). -/
def Chan.newAttempt (c : Chan) (i : Nat) (live : List ExclEntry) (attempt : Nat) : Chan :=
  match c.ctx? i with
  | none => c
  | some x =>
    let c := c.dropWork i x
    let c := match c.ctxExtent x with | some e => c.putExtent (extDrop e) | none => c
    c.putCtx i { x with
      live := live, attempt := attempt, baseUs := c.us, accs := [], nextDem := 0, demUs := c.us, sent := 0, pulls := [], demands := []
      pulled := [], asked := [], fromPeer := [], done := [], results := [], crossed := [], lateEnts := [], lateOver := false
      notStarted := [], peerLate := false, sent1 := false, sent2 := false, lowrank := {} }

/-- The body of an ABORT (R164). -/
def abortBody (live : List ExclEntry) : List Byte := beBytes 1 live.length ++ beBytes 7 0 ++ live.flatMap fun e => beBytes 6 e.toNat

/-- Exclusion entries read from a body. -/
def entriesOf (bs : List Byte) (n : Nat) : List ExclEntry := (List.range (min n 16)).map fun i => BitVec.ofNat 48 (beAt bs (8 + 6 * i) 6)

/-- Entries without repeats. -/
def addEntries (l new : List ExclEntry) : List ExclEntry := new.foldl (fun acc e => if acc.contains e then acc else acc ++ [e]) l

/-- *Coordinator decision* with the entries named (R181). -/
def Chan.coordDecide (c : Chan) (i : Nat) (named : List ExclEntry) : Chan :=
  match c.ctx? i with
  | none => c
  | some x =>
    let live := addEntries x.live named
    if ¬x.notStarted.isEmpty then c.endAll i 0x14 true
    else if x.lateOver ∨ 16 < live.length then c.endAll i 0x13 true
    else if someEmpty x.group x.chunks live then c.endAll i 0x12 true
    else if fld (c.reg 0x400300) 27 26 ≤ x.attempt then c.endAll i 0x11 true
    else
      let c := (c.count 0x40034C).raise { ev := .colAbort, slot := x.slot, comm := x.comm.toNat, seq := x.seq.toNat, value := x.attempt }
      let c := c.newAttempt i live (x.attempt + 1)
      match c.ctx? i with
      | some y => c.outward y (hdrFor y 7 0 0) (abortBody live) true
      | none => c

/-- COL_EXCLUDE (R184). -/
def Chan.exclude (c : Chan) (env : CtlEnv) (slot : Nat) (comm : BitVec 16) (e : ExclEntry) : Chan :=
  let op := 0x0103
  if fld e 7 4 ≠ 0 then c.answerCol op env stBadField 0 0xFF
  else match c.comm? slot comm.toNat with
  | none => c.answerCol op env stOk 0x04 0xFF
  | some m =>
    match c.col.ctxs.find? fun k => k.2.slot == slot && decide (k.2.comm = comm) && !k.2.ending with
    | some (i, x) =>
      if !c.isCoord x then c.answerCol op env stOk 0x07 0xFF
      else (c.coordDecide i (addEntries [e] x.lateEnts)).answerCol op env stOk 0 i
    | none =>
      let drift := c.drifting slot && c.drifts m && decide (c.line.state ≠ .up)
      let coord := m.body.role = 1 ∨ (m.body.role = 2 ∧ drift) ∨ (m.body.role = 4 ∧ c.ringPos m.body = 0)
      let live := addEntries m.live [e]
      if ¬coord then c.answerCol op env stOk 0x07 0xFF
      else if 16 < live.length then c.answerCol op env stBadField 0 0xFF
      else (c.putComm { m with live := live }).answerCol op env stOk 0 0xFF

/-- A LATE of the channel's own: recorded where the channel is the coordinator, else sent toward it; none without entries (R180). -/
def Chan.lateOut (c : Chan) (i : Nat) (reason : Nat) (ents : List ExclEntry) : Chan :=
  match c.ctx? i with
  | none => c
  | some x =>
    let ovr := decide (16 < ents.length)
    let l := ents.take 16
    if ents.isEmpty then c
    else if c.isCoord x then c.putCtx i { x with lateEnts := addEntries x.lateEnts l, lateOver := x.lateOver || ovr }
    else c.upward x.slot x.body x.drift (hdrFor x 8 0 0)
      (beBytes 1 (reason + if ovr then 128 else 0) ++ beBytes 1 l.length ++ beBytes 6 0 ++ l.flatMap fun e => beBytes 6 e.toNat)

/-- Local owners whose CONTRIB for a pulled chunk has not arrived (R180): one that waits for an accumulator has. -/
def Chan.missing (c : Chan) (x : Ctx) : List Coord :=
  let ks := (x.pulled.filter fun r => decide (chunkPhase r.1 = 0)).flatMap fun r => (List.range r.2).map fun j => r.1 + j
  let waits (k : Nat) (m : Coord) : Bool := c.col.inq.any fun q =>
    decide (q.msg.hdr.ctype = 1) && decide (q.msg.hdr.comm = x.comm) && decide (q.msg.hdr.seq = x.seq) && q.msg.hdr.chunk.toNat == k && q.msg.src == m
  (ks.filter fun k => !x.done.contains k).foldl (fun (acc : List Coord) k =>
    let a := cget {} x.accs k
    ((c.expectOwners x k).filter fun m => !a.srcs.contains (.owner m) && !waits k m).foldl
      (fun acc m => if acc.contains m then acc else acc ++ [m]) acc) []

/-- COL_DEADLINE (R180). -/
def Chan.deadlineLate (c : Chan) (i : Nat) : Chan :=
  match c.ctx? i with
  | none => c
  | some x =>
    if x.ending ∨ x.sent1 ∨ c.us ≤ x.baseUs + c.deadline x then c
    else (c.putCtx i { x with sent1 := true }).lateOut i 1 ((c.missing x).map memberEntry)

/-- COL_DEADLINE_PEER_LATE (R180): the peer is a child, a chunk demanded of it is missing, and no LATE came from it. -/
def Chan.peerLate (c : Chan) (i : Nat) : Chan :=
  match c.ctx? i with
  | none => c
  | some x =>
    let child := !x.drift && (decide (x.body.role = 1) || decide (x.body.role = 3) || decide (x.body.role = 5))
    let lack := x.asked.any fun r => (List.range r.2).any fun j => !x.fromPeer.contains (r.1 + j)
    if x.ending ∨ x.sent2 ∨ c.us ≤ x.baseUs + c.deadline x + 2 * c.rttUs ∨ !child ∨ !lack ∨ x.peerLate then c
    else (c.putCtx i { x with sent2 := true }).lateOut i 1 [siteEntry (BitVec.ofNat 40 (c.peerSite * 2 ^ 32))]

/-- COORDINATOR_DECISION (R179, R181). -/
def Chan.decision (c : Chan) (i : Nat) : Chan :=
  match c.ctx? i with
  | none => c
  | some x =>
    if x.ending ∨ !c.isCoord x ∨ c.us ≤ x.baseUs + c.deadline x + c.grace x then c else c.coordDecide i x.lateEnts

/-- ORPHAN_TIMEOUT (R185). -/
def Chan.orphan (c : Chan) (i : Nat) : Chan :=
  match c.ctx? i with
  | none => c
  | some x =>
    if x.ending ∨ c.isCoord x ∨ c.us ≤ x.baseUs + c.deadline x + 2 * c.grace x then c else c.endInstance i 0x16

/-! ### Messages received (R162, R168–R172, R180–R182, R485–R487, R492) -/

/-- A message leaves the engine's queue with its buffer; one that does not stand there comes without. -/
def Chan.takeCol (c : Chan) (m : ColMsg) : ColIn × Chan :=
  match c.col.inq.find? fun q => decide (q.msg = m) with
  | some q => (q, c.modCol fun d => { d with inq := eraseFirst (fun q => decide (q.msg = m)) d.inq })
  | none => ({ msg := m }, c)

/-- The engine cannot take a message yet: it stands in the queue again (R114, R171). -/
def Chan.putBack (c : Chan) (q : ColIn) : Chan := c.modCol fun d => { d with inq := q :: d.inq }

/-- A message of another placement epoch (R492). -/
def Chan.staleEpoch (c : Chan) (q : ColIn) : Chan :=
  let h := q.msg.hdr
  (((c.releaseOpt q.buf).count 0x80).raise
    { ev := .partStale, slot := q.msg.slot, comm := h.comm.toNat, seq := h.seq.toNat, value := h.pepoch.toNat }).partNotice q.msg.slot
    { what := 7, comm := some h.comm.toNat, seq := h.seq.toNat }

/-- The saddle window of the slot's last placement epoch change is open (R491). -/
def Chan.epochSaddle (c : Chan) (slot : Nat) : Bool := match cget? c.part.epochs slot with | some e => e.saddle.isSome | none => false

/-- A message as it reaches the engine: what no instance takes falls out, so does one of a phase that its communicator does not have
(R222); `no` gets one for an instance not running here, `f` one for a
running instance (R168, R172, R492). -/
def Chan.onCol (c : Chan) (m : ColMsg) (no : Chan → ColIn → Comm → Chan) (f : Chan → Nat → Ctx → ColIn → Chan) : Chan :=
  let r := c.takeCol m
  let q := r.1
  let c := r.2
  let k := m.slot.val
  let h := m.hdr
  if (c.slot k).mode ≠ .stage then c.stray q
  else match c.comm? k h.comm.toNat with
  | none =>
    if h.ctype = 4 then
      ((c.releaseOpt q.buf).count 0x400360).raise { ev := .colPendDrop, slot := k, comm := h.comm.toNat, seq := h.seq.toNat, value := 1 }
    else c.stray q
  | some cm =>
    let e := (c.slot k).pepoch
    let ph := chunkPhase h.chunk.toNat
    if ph = 3 ∨ (ph ≠ 0 ∧ codecLossy cm.body.codec.toNat ≠ 3) then c.stray q else
    let hit := c.col.ctxs.find? fun x =>
      x.2.slot == k && decide (x.2.comm = h.comm) && decide (x.2.seq = h.seq) && decide (x.2.pepoch = h.pepoch) && !x.2.ending
    if h.pepoch ≠ e && !(h.pepoch = e - 1 && c.epochSaddle k && hit.isSome) then c.staleEpoch q
    else match hit with
    | none => no c q cm
    | some (i, x) => f c i x q

/-- An input of the current attempt; an older one is stale, a newer one a stray (R168). -/
def Chan.nowAttempt (c : Chan) (x : Ctx) (q : ColIn) (f : Chan → Chan) : Chan :=
  if q.msg.hdr.attempt.toNat < x.attempt then c.stale q
  else if x.attempt < q.msg.hdr.attempt.toNat then c.stray q
  else f c

/-- A chunk came in by a way from which a site was reported not started (R181 row 2). -/
def heardFrom (x : Ctx) (src : InSrc) : Ctx := { x with notStarted := x.notStarted.filter fun e => decide (e.2 ≠ src) }

/-- A chunk body expanded to FMT: none when it is empty; an error when it is damaged (R200, R208). -/
def chunkPlain (x : Ctx) (body : List Byte) : Except Damage (Option (List Byte)) :=
  if body.isEmpty then .ok none
  else if x.body.codec = 0 then .ok (some body)
  else match expandBlock (some (ctxFmt x)) (body.length - 8) body with
    | .ok e => .ok (some e.bytes)
    | .error d => .error d

/-- A damaged body of which no copy can be had (R334). -/
def Chan.damagedCol (c : Chan) (q : ColIn) : Chan :=
  ((c.releaseOpt q.buf).count 0x5000A0).raise
    { ev := .codecUnrecoverable, slot := q.msg.slot, comm := q.msg.hdr.comm.toNat, seq := q.msg.hdr.seq.toNat }

/-- CONTRIB (R168, R171, R223). -/
def Chan.contrib (c : Chan) (m : ColMsg) : Chan :=
  c.onCol m (fun c q _ => c.stray q) fun c i x q => c.nowAttempt x q fun c =>
    let k := m.hdr.chunk.toNat
    let a := cget {} x.accs k
    if m.line || !reducing x || x.recon ≠ .no || decide (x.chunks ≤ k) || x.done.contains k
        || !(c.expectOwners x k).contains m.src || a.srcs.contains (.owner m.src) then c.stray q
    else if !c.roomFor x k then c.putBack q
    else c.addInput i k (.owner m.src) m.hdr.ncontrib.toNat (some m.body) q.buf

/-- u and the correction of a chunk of a reconcile instance at an end, from the peer's rounded ledger (R486): FP32 codes. -/
def Chan.reconChunk (c : Chan) (x : Ctx) (k : Nat) (peer : List Byte) : List Nat × List Nat :=
  let fmt := ctxFmt x
  let l := (c.ledger? x.slot x.comm.toNat x.shard.toNat).getD default
  let own := ledgerValues fmt x.chunks l k
  let d := (c.driftShard x.slot x.comm.toNat x.shard.toNat).getD default
  let nOwn := match d.mine with | some o => o.n.toNat | none => l.n
  let nPeer := match d.peer with | some o => o.n.toNat | none => 0
  let them := chunkFp32 fmt peer
  let mine := chunkFp32 fmt (ledgerRounded fmt x.chunks l k)
  let u := if x.recon = .anchor then them
    else if c.ownSite < c.peerSite then List.zipWith (fun a b => mergeElem nOwn a nPeer b) mine them
    else List.zipWith (fun a b => mergeElem nPeer b nOwn a) mine them
  (u, List.zipWith (fun a b => (fsub fmtFp32 a b).code) u own)

/-- A rounded ledger chunk from the peer: u is noted, the correction delivered (R486, R487). -/
def Chan.reconIn (c : Chan) (i k : Nat) (peer : List Byte) : Chan :=
  match c.ctx? i with
  | none => c
  | some x =>
    let r := c.reconChunk x k peer
    let fix := fp32Chunk (ctxFmt x) r.2
    let h := hdrFor x 3 k 1
    let c := c.resultFormed x fix
    let c := if serves x then c.toMembers x.slot x.body h fix else c
    let c := if x.body.role = 3 ∨ 0 < x.body.childIn.toNat - (if x.body.role = 1 then 1 else 0) then
        c.reconOut i x k true fix else c
    (c.putCtx i { x with results := x.results ++ [k], crossed := cput x.crossed k (1, fp32Chunk (ctxFmt x) r.1) }).reconCheck i

/-- A PARTIAL taken by a reducing channel (R169, R177). -/
def Chan.partialAdd (c : Chan) (i : Nat) (x : Ctx) (q : ColIn) (src : InSrc) : Chan :=
  let k := q.msg.hdr.chunk.toNat
  let a := cget {} x.accs k
  let l := c.lacking x k a
  let due := match src with | .peer => l.1.contains .peer | _ => decide (0 < l.2) && !a.srcs.contains src
  if x.done.contains k || decide (c.phaseCount x (chunkPhase k) ≤ chunkIndex k) || !due then c.stray q
  else if !c.roomFor x k then c.putBack q
  else match chunkPlain x q.msg.body with
  | .error _ => c.damagedCol q
  | .ok plain =>
    let x := heardFrom { x with fromPeer := if src = .peer then x.fromPeer ++ [k] else x.fromPeer } src
    let c := (c.putCtx i x).addInput i k src q.msg.hdr.ncontrib.toNat plain q.buf
    if chunkPhase k = 0 then c else c.feedOwn i (chunkPhase k)

/-- PARTIAL (R159, R162, R169, R485). -/
def Chan.partial_ (c : Chan) (m : ColMsg) : Chan :=
  c.onCol m (fun c q _ => c.stray q) fun c i x q => c.nowAttempt x q fun c =>
    let k := m.hdr.chunk.toNat
    let r := x.body.role.toNat
    if x.recon ≠ .no then
      let mine := x.recon = .merge ∨ (x.recon = .anchor ∧ r = 2)
      if ¬mine ∨ !m.line ∨ x.chunks ≤ k ∨ x.results.contains k then c.stray q
      else match chunkPlain x m.body with
      | .ok (some b) => (c.releaseOpt q.buf).reconIn i k b
      | _ => c.damagedCol q
    else if r = 3 ∨ r = 5 then
      if !m.line ∨ x.drift ∨ siteOut x.live c.peerSite ∨ x.fromPeer.contains k ∨ c.phaseCount x (chunkPhase k) ≤ chunkIndex k then c.stray q
      else
        let c := c.putCtx i (heardFrom { x with fromPeer := x.fromPeer ++ [k] } .peer)
        (c.releaseOpt q.buf).toSibs x.slot x.body m.hdr m.body
    else if r = 6 then
      if m.line then c.stray q else (c.putCtx i (heardFrom x (.sibling m.src))).toPeer x.slot m.hdr m.body q.buf
    else if reducing x then c.partialAdd i x q (if m.line then .peer else .sibling m.src)
    else c.stray q

/-- RESULT (R159, R162, R170, R224, R487). -/
def Chan.result (c : Chan) (m : ColMsg) : Chan :=
  c.onCol m (fun c q _ => c.stray q) fun c i x q => c.nowAttempt x q fun c =>
    let k := m.hdr.chunk.toNat
    let r := x.body.role.toNat
    let p := c.partIn x k
    let down := if m.line then (decide (r = 2) && !x.drift) || decide (r = 6) || (decide (r = 4) && !p.root) else decide (r = 3) || decide (r = 5)
    let back := !m.line && decide (x.recon = .pass) && (decide (r = 1) || decide (r = 2) || decide (r = 6))
    let seen := x.results.contains k || (cget? x.lowrank.pres (chunkIndex k)).isSome && decide (chunkPhase k = 1)
      || (cget? x.lowrank.qres (chunkIndex k)).isSome && decide (chunkPhase k = 2)
    if x.recon = .merge ∨ x.recon = .anchor then c.releaseOpt q.buf
    else if !(down || back) || seen || decide (c.phaseCount x (chunkPhase k) ≤ chunkIndex k) then c.stray q
    else match chunkPlain x m.body with
    | .error _ =>
      if reducing x then c.damagedCol q else (c.releaseOpt q.buf).deliver i k m.hdr.ncontrib.toNat m.body m.body m.line back
    | .ok b => ((c.releaseOpt q.buf).deliver i k m.hdr.ncontrib.toNat m.body (b.getD []) m.line back).lowAdvance i

/-- A DEMAND for an instance that has not started is kept; the first for it is answered with a LATE (R172). -/
def Chan.pendDemand (c : Chan) (q : ColIn) (cm : Comm) : Chan :=
  let m := q.msg
  let c := c.releaseOpt q.buf
  let known := cm.warned.contains m.hdr.seq
  let drop := decide (256 ≤ c.col.pending.length)
  let c := if drop then
      (c.count 0x400360).raise { ev := .colPendDrop, slot := m.slot, comm := m.hdr.comm.toNat, seq := m.hdr.seq.toNat, value := 1 }
    else c.modCol fun d => { d with pending := d.pending ++ [⟨m, c.us⟩] }
  if known then c
  else
    let h : ColHdr := { m.hdr with ctype := 8, chunk := 0, ncontrib := 0 }
    let drift := c.drifting m.slot && c.drifts cm && decide (c.line.state ≠ .up)
    let c := c.putComm { cm with warned := cm.warned ++ [m.hdr.seq] }
    c.upward m.slot cm.body drift h ([2, 1] ++ beBytes 6 0 ++ beBytes 6 (siteEntry c.cfg.coord).toNat)

/-- DEMAND (R162, R166, R172). -/
def Chan.demand (c : Chan) (m : ColMsg) : Chan :=
  c.onCol m
    (fun c q cm => if seqLater m.hdr.seq.toNat cm.lastSeq.toNat then c.pendDemand q cm else c.stray q)
    fun c i x q => c.nowAttempt x q fun c =>
      match (c.releaseOpt q.buf).demandIn i m with
      | some c' => c'
      | none => c.stray q

/-- The way on which ABORT, END and results come to a channel (R161). -/
def fromParent (role : Nat) (drift line : Bool) : Bool :=
  if line then (decide (role = 2) && !drift) || decide (role = 4) || decide (role = 6) else decide (role = 3) || decide (role = 5)

/-- The way on which partials and LATE reports come to it. -/
def fromChild (role : Nat) (line : Bool) : Bool :=
  if line then decide (role = 1) || decide (role = 3) || decide (role = 5)
  else decide (role = 1) || decide (role = 2) || decide (role = 4) || decide (role = 6)

/-- Where a role passes results, for an instance that has ended here (R161, R182). -/
def Chan.passDown (c : Chan) (slot : Nat) (b : CommBody) (h : ColHdr) (body : List Byte) : Chan :=
  if b.role = 3 ∨ b.role = 5 then c.toPeer slot h body else c.toSibs slot b h body

/-- ABORT (R182). -/
def Chan.abort (c : Chan) (m : ColMsg) : Chan :=
  c.onCol m
    (fun c q cm =>
      if m.hdr.seq = cm.lastSeq ∧ fromParent cm.body.role.toNat false m.line then
        ((c.releaseOpt q.buf).count 0x40034C).passDown m.slot cm.body m.hdr m.body
      else c.stray q)
    fun c i x q =>
      if c.isCoord x || !fromParent x.body.role.toNat x.drift m.line || decide (m.hdr.attempt.toNat ≤ x.attempt) then c.stray q
      else
        let c := ((c.releaseOpt q.buf).count 0x40034C).raise
          { ev := .colAbort, slot := x.slot, comm := x.comm.toNat, seq := x.seq.toNat, value := m.hdr.attempt.toNat }
        let c := c.newAttempt i (entriesOf m.body (beAt m.body 0 1)) m.hdr.attempt.toNat
        match c.ctx? i with
        | some y => c.outward y m.hdr m.body true
        | none => c

/-- LATE (R180, R181). -/
def Chan.late (c : Chan) (m : ColMsg) : Chan :=
  c.onCol m
    (fun c q cm =>
      if m.hdr.seq = cm.lastSeq ∧ fromChild cm.body.role.toNat m.line then (c.releaseOpt q.buf).upward m.slot cm.body false m.hdr m.body
      else c.stray q)
    fun c i x q =>
      let c' := c.releaseOpt q.buf
      let ents := entriesOf m.body (beAt m.body 1 1)
      let reason := beAt m.body 0 1 % 128
      if !fromChild x.body.role.toNat m.line then c.stray q
      else if !c.isCoord x then (c'.putCtx i { x with peerLate := x.peerLate || m.line }).upward x.slot x.body x.drift m.hdr m.body
      else
        let x := { x with peerLate := x.peerLate || m.line }
        if reason = 2 then
          c'.putCtx i { x with notStarted := x.notStarted ++ ents.map fun e => (e, if m.line then InSrc.peer else InSrc.sibling m.src) }
        else if m.hdr.attempt.toNat = x.attempt then
          c'.putCtx i { x with lateEnts := addEntries x.lateEnts ents, lateOver := x.lateOver || decide (128 ≤ beAt m.body 0 1) }
        else c'.putCtx i x

/-- The ways on which an END comes to a channel: those of ABORT, and FWD_TREE, where a FORWARDER or RING_PREV whose line went down sends one
(R182, R186). -/
def endWay (role : Nat) (drift line : Bool) : Bool := fromParent role drift line || !line

/-- END (R182). -/
def Chan.end_ (c : Chan) (m : ColMsg) : Chan :=
  c.onCol m
    (fun c q cm =>
      if m.hdr.seq = cm.lastSeq ∧ endWay cm.body.role.toNat false m.line then (c.releaseOpt q.buf).passDown m.slot cm.body m.hdr m.body
      else c.stray q)
    fun c i x q =>
      if !endWay x.body.role.toNat x.drift m.line then c.stray q
      else (c.releaseOpt q.buf).endAll i (beAt m.body 0 1) true

/-- PENDING_DEMAND_EXPIRE (R172). -/
def Chan.pendExpire (c : Chan) : Chan := c.dropPending fun d => decide (d.atUs + 1000000 < c.us)

/-! ### The commands -/

def execColCommOpen (ch : Fin 8) (env : CtlEnv) (b : CommBody) (s : State) : Out :=
  done (onPath ch (fun c => c.onColJob 0x0100 env fun k c => c.commOpen env k b) s)
def execColCommClose (ch : Fin 8) (env : CtlEnv) (comm rsvd : BitVec 16) (s : State) : Out :=
  done (onPath ch (fun c => c.onColJob 0x0101 env fun k c => c.commClose env k comm rsvd) s)
def execColStart (ch : Fin 8) (env : CtlEnv) (b : StartBody) (s : State) : Out :=
  done (onPath ch (fun c => c.onColJob 0x0102 env fun k c =>
    c.startWith k b false fun c status result ctx => c.answerCol 0x0102 env status result ctx) s)
def execColExclude (ch : Fin 8) (env : CtlEnv) (comm : BitVec 16) (e : ExclEntry) (s : State) : Out :=
  done (onPath ch (fun c => c.onColJob 0x0103 env fun k c => c.exclude env k comm e) s)
def execContribReceive (ch : Fin 8) (m : ColMsg) (s : State) : Out := done (onPath ch (fun c => c.contrib m) s)
def execPartialReceive (ch : Fin 8) (m : ColMsg) (s : State) : Out := done (onPath ch (fun c => c.partial_ m) s)
def execResultReceive (ch : Fin 8) (m : ColMsg) (s : State) : Out := done (onPath ch (fun c => c.result m) s)
def execDemandReceive (ch : Fin 8) (m : ColMsg) (s : State) : Out := done (onPath ch (fun c => c.demand m) s)
def execAbortReceive (ch : Fin 8) (m : ColMsg) (s : State) : Out := done (onPath ch (fun c => c.abort m) s)
def execLateReceive (ch : Fin 8) (m : ColMsg) (s : State) : Out := done (onPath ch (fun c => c.late m) s)
def execEndReceive (ch : Fin 8) (m : ColMsg) (s : State) : Out := done (onPath ch (fun c => c.end_ m) s)
def execDemandRateSend (ch : Fin 8) (ctx : Fin 64) (s : State) : Out := done (onPath ch (fun c => c.demandRate ctx) s)
def execPullDelayExpire (ch : Fin 8) (ctx : Fin 64) (s : State) : Out := done (onPath ch (fun c => c.pullExpire ctx) s)
def execAlignDelayExpire (ch : Fin 8) (ctx : Fin 64) (s : State) : Out := done (onPath ch (fun c => c.alignExpire ctx) s)
def execLowrankPullSend (ch : Fin 8) (ctx : Fin 64) (s : State) : Out := done (onPath ch (fun c => c.lowPull ctx) s)
def execColDeadline (ch : Fin 8) (ctx : Fin 64) (s : State) : Out := done (onPath ch (fun c => c.deadlineLate ctx) s)
def execColDeadlinePeerLate (ch : Fin 8) (ctx : Fin 64) (s : State) : Out := done (onPath ch (fun c => c.peerLate ctx) s)
def execCoordinatorDecision (ch : Fin 8) (ctx : Fin 64) (s : State) : Out := done (onPath ch (fun c => c.decision ctx) s)
def execOrphanTimeout (ch : Fin 8) (ctx : Fin 64) (s : State) : Out := done (onPath ch (fun c => c.orphan ctx) s)
def execPendingDemandExpire (ch : Fin 8) (s : State) : Out := done (onPath ch Chan.pendExpire s)

end Sys2Proof.Machine
end

