-- ==== Sys2Proof/Machine/Codec.lean ====
section
/-! DEFINITION. Packer and expander: PACKER_CODE_BLOCK, EXPANDER_BLOCK, and the order in which what came from the line goes on (Compression
and Error Feedback, R198–R212, R219; The Daeno Fabric Port, R86, R87; Line Frame, R334). -/

namespace Sys2Proof.Machine

open Sys2Proof

/-! ### The packer (R199, R200, R206, R207, R219) -/

/-- Flow format of a slot's class (R198). -/
def Chan.flowFmt (c : Chan) (slot cls : Nat) : Nat := cget 0 c.codec.flows (4 * slot + cls)

/-- Bytes taken in and handed on, in KiB that wrap (R231). -/
def Chan.countKib (c : Chan) (raw out : Nat) : Chan :=
  let r := c.codec.rawRem + raw
  let o := c.codec.outRem + out
  let c := (c.setReg 0x5000B4 (c.reg 0x5000B4 + BitVec.ofNat 32 (r / 1024))).setReg 0x5000B8 (c.reg 0x5000B8 + BitVec.ofNat 32 (o / 1024))
  c.modCodec fun d => { d with rawRem := r % 1024, outRem := o % 1024 }

/-- A block emitted, counted under its type; a RAW block only as the fallback of R206. -/
def Chan.countBlock (c : Chan) (fallback : Bool) (blk : List Byte) : Chan :=
  match (blkHdrOf blk).type with
  | 1 => c.count 0x500080
  | 2 => c.count 0x500088
  | 3 => c.count 0x50008C
  | _ => if fallback then c.count 0x500084 else c

/-- The check decoder's outcome: coded again once, and a RAW block in place of the second (R207). -/
def Chan.recoded (c : Chan) (fails : Nat) : Chan :=
  let packer (e : Ev) : Raised := { ev := e, uclass := 6, unit := 0 }
  if fails = 0 then c
  else
    let c := (c.count 0x5000A4).raise (packer .codecRecode)
    if fails = 1 then c else c.raise (packer .codecRecodeFail)

/-- A RAW block of a piece: opaque where it holds no whole number of values. -/
def rawPiece (fmt : Nat) (piece : List Byte) : List Byte :=
  if piece.length % max 1 (elemBytes fmt) = 0 then rawBlock fmt (piece.length / max 1 (elemBytes fmt)) piece else rawBlock 0 0 piece

/-- The blocks of a packet's payload under a flow format (R199); `fails` tells of each, in order, how often the check decoder refused it
(R207). -/
def flowBlocks (fmt : Nat) (fails : List (Fin 3)) (payload : List Byte) : List (List Byte × Nat) :=
  (pieces 4096 payload).zipIdx.map fun x =>
    let n := (fails.getD x.2 0).val
    (if n = 2 then rawPiece fmt x.1 else flowBlock fmt x.1, n)

/-- A packet coded for its flow; it stalls while no buffer is free for its blocks (R199, R228). -/
def Chan.packObject (c : Chan) (slot cls : Nat) (fails : List (Fin 3)) (o : LineObj) (rest : List PackJob) : Chan :=
  let payload := o.bytes.drop 24
  let blks := flowBlocks o.code fails payload
  let body := blks.flatMap Prod.fst
  let bytes := o.bytes.take 24 ++ body
  let w : Waiter := .packer slot ((poolFor bytes.length).getD 3)
  let r := c.alloc (.slot slot) bytes.length (some w)
  match r.1 with
  | none => r.2.await w
  | some b =>
    let c := ((r.2.served w).releaseOpt o.buf).modCodec fun d => { d with packQ := rest }
    let c := blks.foldl (fun (c : Chan) (x : List Byte × Nat) =>
      (c.recoded x.2).countBlock (decide ((blkHdrOf x.1).fmt ≠ 0) && decide (x.2 < 2)) x.1) c
    let o' : LineObj := { o with kind := .coded, bytes := bytes, buf := some b, code := 0 }
    (c.countKib payload.length body.length).enqueue slot cls o'

/-- What a lossy chunk's coding leaves: the values coded, the line form, its expansion, the residual and counts (R219). -/
def Chan.feedback (c : Chan) (x : Ctx) (k fails : Nat) (raw : List Byte) : Coded × Option (List Byte × Nat) :=
  let fmt := ctxFmt x
  let codec := ctxCodec x
  let lossy := codecLossy codec
  let ef := codecEf codec && (decide (lossy = 1) || decide (lossy = 2))
  match c.ctxExtent x with
  | some e =>
    if ef then
      let v := (chunkAdd fmt raw (residualOf fmt (extCommitted e) k raw.length)).1
      if fails = 2 then (⟨rawPiece fmt v, v, 0, 0⟩, some (List.replicate raw.length 0, 0))
      else
        let q := codeChunk fmt codec v
        (q, some (residual fmt v q.back))
    else (if fails = 2 then ⟨rawPiece fmt raw, raw, 0, 0⟩ else codeChunk fmt codec raw, none)
  | none => (if fails = 2 then ⟨rawPiece fmt raw, raw, 0, 0⟩ else codeChunk fmt codec raw, none)

/-- A chunk of an instance coded: the PARTIAL to the parent, or the RESULT formed here, in a buffer of the slot, or a stall while none is
free (R114, R200, R219, R224). -/
def Chan.packChunk (c : Chan) (i k nc fails : Nat) (x : Ctx) (raw : List Byte) (buf : Option Buf) (rest : List PackJob) : Chan :=
  let r := c.feedback x k fails raw
  let q := r.1
  let w : Waiter := .packer x.slot ((poolFor q.line.length).getD 3)
  let a := c.alloc (.slot x.slot) q.line.length (some w)
  match a.1 with
  | none => a.2.await w
  | some b =>
  let c := ((a.2.served w).releaseOpt buf).modCodec fun d => { d with packQ := rest }
  let c := match r.2, c.ctxExtent x with
    | some e', some e => ((c.putExtent (extPut e k e'.1)).count 0x5000AC e'.2).raiseIf (decide (0 < e'.2))
        { ev := .codecNonfinite, slot := x.slot, comm := x.comm.toNat, value := e'.2 }
    | _, _ => c
  let c := c.recoded fails
  let c := (c.count 0x5000AC q.nonfin).raiseIf (decide (0 < q.nonfin)) { ev := .codecNonfinite, slot := x.slot, comm := x.comm.toNat, value := q.nonfin }
  let c := (c.count 0x5000B0 q.sat).raiseIf (decide (0 < q.sat)) { ev := .codecSaturate, slot := x.slot, comm := x.comm.toNat, value := q.sat }
  let c := (c.countBlock (codecExp (ctxCodec x) && decide (fails < 2)) q.line).countKib raw.length q.line.length
  if (c.partIn x k).root then ((c.release b).deliver i k nc q.line q.back false false).lowAdvance i
  else c.toPeer x.slot (hdrFor x 2 k nc) q.line (some b)

/-- A chunk of a reconcile instance coded without loss: ~l to the peer, or a correction to the siblings (R200, R485, R487). -/
def Chan.packRecon (c : Chan) (i k fails : Nat) (result : Bool) (x : Ctx) (raw : List Byte) (rest : List PackJob) : Chan :=
  let line := if fails = 2 then rawPiece (ctxFmt x) raw else losslessLine (ctxFmt x) (ctxCodec x) raw
  let w : Waiter := .packer x.slot ((poolFor line.length).getD 3)
  let a := c.alloc (.slot x.slot) line.length (some w)
  match a.1 with
  | none => a.2.await w
  | some b =>
    let c := ((a.2.served w).modCodec fun d => { d with packQ := rest }).recoded fails
    let c := (c.countBlock (codecExp (ctxCodec x) && decide (fails < 2)) line).countKib raw.length line.length
    let c := if result then (c.toSibs x.slot x.body (hdrFor x 3 k 1) line).release b else c.toPeer x.slot (hdrFor x 2 k 1) line (some b)
    c.reconCheck i

/-- An object toward the line takes its flow format at the packer; while one of its flow waits there, it waits behind it (R198, R199). -/
def Chan.toPacker (c : Chan) (slot cls : Nat) (o : LineObj) : Chan :=
  let o := { o with code := if o.kind = .packet ∧ 24 < o.bytes.length ∧ (cls = 1 ∨ cls = 3) then c.flowFmt slot cls else 0 }
  let waits := c.codec.packQ.any fun j => match j with | .object k l _ => k == slot && l == cls | _ => false
  if o.code ≠ 0 || waits then c.modCodec fun d => { d with packQ := d.packQ ++ [.object slot cls o] } else c.enqueue slot cls o

/-- A parity mismatch in reading what the oldest job at the packer holds: the object or chunk is discarded (R110). -/
def Chan.packParity (c : Chan) : Chan :=
  match c.codec.packQ with
  | [] => c
  | .object slot _ o :: rest => (c.modCodec fun d => { d with packQ := rest }).parityOpt o.buf slot
  | .chunk i _ _ _ _ b :: rest => (c.modCodec fun d => { d with packQ := rest }).parityOpt b (match c.ctx? i with | some x => x.slot | none => 0xFF)
  | .recon _ _ _ _ :: _ => c

/-- PACKER_CODE_BLOCK: the oldest job at the packer; `fails` tells of each of its blocks how often the check decoder refused it. -/
def Chan.pack (c : Chan) (fails : List (Fin 3)) : Chan :=
  match c.codec.packQ with
  | [] => c
  | .object slot cls o :: rest =>
    if o.code = 0 then (c.modCodec fun d => { d with packQ := rest }).enqueue slot cls o else c.packObject slot cls fails o rest
  | .chunk i attempt k nc raw buf :: rest =>
    let gone := (c.modCodec fun d => { d with packQ := rest }).releaseOpt buf
    match c.ctx? i with
    | some x => if x.attempt = attempt ∧ !x.ending then c.packChunk i k nc (fails.getD 0 0) x raw buf rest else gone
    | none => gone
  | .recon i k result raw :: rest =>
    match c.ctx? i with
    | some x => c.packRecon i k (fails.getD 0 0) result x raw rest
    | none => c.modCodec fun d => { d with packQ := rest }

/-! ### What goes on from the line (R86, R87, R200) -/

/-- The slot that the peer's slot number of a TU names (R321; log entry 40). -/
def Chan.ownSlot (c : Chan) (peer : Nat) : Option Nat :=
  (List.range 16).find? fun k => decide ((c.slot k).mode ≠ .free) && (match (c.slot k).peerSlot with | some p => p.val == peer | none => false)

/-- A coded packet may cross the site as it is: its entry has RELAY set and prefix and blocks fit (R87). -/
def Chan.relays (c : Chan) (slot : Nat) (o : RxObj) : Bool :=
  match c.xlate slot (c.genOf slot) (rankOf (pktOf o.bytes).dest) with
  | some e => entRelay e && decide (entAction e = 1) && decide (8 + (o.bytes.length - 24) ≤ 8192)
  | none => false

/-- The message must be expanded at this channel: its body is added or delivered here (R200). -/
def Chan.expandsCol (c : Chan) (q : ColIn) : Bool :=
  let h := q.msg.hdr
  match c.col.ctxs.find? fun x => x.2.slot == q.msg.slot.val && decide (x.2.comm = h.comm) && decide (x.2.seq = h.seq) && !x.2.ending with
  | some (_, x) =>
    decide (x.body.codec ≠ 0) && !q.msg.body.isEmpty && (decide (h.ctype = 2) || decide (h.ctype = 3))
      && (reducing x || decide (x.recon = .merge) || decide (x.recon = .anchor))
  | none => false

/-- A job needs the expander's work. -/
def Chan.expands (c : Chan) (j : ExpJob) : Bool :=
  match j with
  | .packet slot _ o => decide (o.kind = .coded) && !c.relays slot o
  | .chunk q => c.expandsCol q

/-- A packet from the line goes toward the fabric; a coded one with RELAY set keeps its blocks behind the 8-byte prefix (R86, R87). -/
def Chan.packetOut (c : Chan) (slot : Nat) (o : RxObj) : Chan :=
  let p := pktOf o.bytes
  let p : Packet := if o.kind = .coded then
      let body := beBytes 2 p.length.toNat ++ beBytes 6 0 ++ o.bytes.drop 24
      { p with coded := true, length := BitVec.ofNat 14 body.length, payload := body }
    else { p with coded := false }
  (c.releaseOpt o.buf).emitRank p slot 0

/-- Types of collective message that a channel takes; every other one is a stray (R164). -/
def takenTypes : List Nat := [1, 2, 3, 4, 7, 8, 9]

/-- A job that needs no expansion goes on. -/
def Chan.passOn (c : Chan) (j : ExpJob) : Chan :=
  match j with
  | .packet slot _ o => c.packetOut slot o
  | .chunk q => if takenTypes.contains q.msg.hdr.ctype.toNat then c.modCol fun d => { d with inq := d.inq ++ [q] } else c.stray q

/-- The flow a job belongs to: the line's, by slot and class, or the fabric's collective messages of a slot. -/
def jobFlow : ExpJob → Nat
  | .packet slot cls _ => 4 * slot + cls
  | .chunk q => if q.msg.line then 4 * q.msg.slot.val + 2 else 64 + q.msg.slot.val

/-- An object or message that came in goes on, or waits at the expander behind those of its flow. -/
def Chan.goOn (c : Chan) (j : ExpJob) : Chan :=
  if c.expands j || c.codec.expQ.any fun x => jobFlow x == jobFlow j then c.modCodec fun d => { d with expQ := d.expQ ++ [j] } else c.passOn j

/-- Jobs at the head of the expander's queue that need no expansion go on. -/
def Chan.drain (c : Chan) : Nat → Chan
  | 0 => c
  | n + 1 => match c.codec.expQ with
    | j :: rest => if c.expands j then c else ((c.modCodec fun d => { d with expQ := rest }).passOn j).drain n
    | [] => c

/-! ### The expander (R208, R209, R211, R212) -/

/-- Lag of a block: input handshakes beyond the output handshakes, 512 bytes each (R212). -/
def blockLag (blk : List Byte) (expanded : Nat) : Nat := ((blkHdrOf blk).clen + 511) / 512 - (expanded + 511) / 512

/-- A block expanded: its lag sampled and counted (R212). -/
def Chan.lagged (c : Chan) (blk : List Byte) (expanded : Nat) : Chan :=
  let lag := blockLag blk expanded
  let c := c.sample 292 lag
  if lag = 0 then c else (c.count 0x5000A8).raise { ev := .codecLag, value := lag }

/-- A damaged block, counted under its reason (R208). -/
def Chan.damaged (c : Chan) (slot : Nat) (d : Damage) : Chan :=
  (c.count (match d with | .header => 0x500090 | .length => 0x500094 | .code => 0x500098 | .crc => 0x50009C)).raise
    { ev := .codecDamaged, slot := slot }

/-- An unrecoverable block (R209). -/
def Chan.unrecoverable (c : Chan) (slot : Nat) : Chan := (c.count 0x5000A0).raise { ev := .codecUnrecoverable, slot := slot }

/-- Buffer of a job. -/
def jobBuf : ExpJob → Option Buf
  | .packet _ _ o => o.buf
  | .chunk q => q.buf

/-- First TSEQ, TSEQ of the copy, class, slot and whether it is a copy, of a job from the line. -/
def jobSeq : ExpJob → Nat × Nat × Nat × Nat × Bool
  | .packet slot cls o => (o.firstTseq, o.tseq, cls, slot, o.copy)
  | .chunk q => (q.first, q.tseq, 2, q.msg.slot.val, q.copy)

/-- A damaged block: asked for again from the line, with all of its flow behind it; a copy sent again, or one from the fabric, is lost
(R209, R334). -/
def Chan.damagedJob (c : Chan) (j : ExpJob) (ds : List Damage) : Chan :=
  let s := jobSeq j
  let c := ds.foldl (fun (c : Chan) d => c.damaged s.2.2.2.1 d) c
  let fromLine := match j with | .packet _ _ _ => true | .chunk q => q.msg.line
  if !fromLine then c.releaseOpt (jobBuf j)
  else if s.2.2.2.2 then (c.releaseOpt (jobBuf j)).unrecoverable s.2.2.2.1
  else
    let mine (x : ExpJob) : Bool := jobFlow x == jobFlow j
    let behind := c.codec.expQ.filter mine
    let a : Awaited := { first := s.1, tseq := s.2.1, tc := s.2.2.1, slot := s.2.2.2.1, jobs := j :: behind, lastUs := c.line.upUs }
    let c := c.modCodec fun q => { q with expQ := q.expQ.filter fun x => !mine x }
    c.modLine fun l => { l with awaited := l.awaited ++ [a], naks := l.naks ++ [⟨s.2.1, 1⟩] }

/-- A parity mismatch in reading the oldest job that needs expansion: it is discarded, and those behind it go on (R110). -/
def Chan.expandParity (c : Chan) : Chan :=
  let c := c.drain c.codec.expQ.length
  match c.codec.expQ with
  | [] => c
  | j :: rest =>
    let c := (c.modCodec fun d => { d with expQ := rest }).parityOpt (jobBuf j) (jobSeq j).2.2.2.1
    c.drain c.codec.expQ.length

/-- Bytes in the transmit FIFO of a port (R30). -/
def portTxBytes (x : Port) : Nat := ((x.txq.map fun p => 24 + p.payload.length).sum) + (x.cut.map List.length).sum

/-- The first port of a packet has its 16 KiB transmit FIFO full, which stalls the expander's handshake (R30). -/
def Chan.expStalled (c : Chan) : ExpJob → Bool
  | .packet slot _ o =>
    match c.xlate slot (c.genOf slot) (rankOf (pktOf o.bytes).dest) with
    | some e => decide (entAction e = 1) && !c.portFenced (entPort e) && decide (16384 ≤ portTxBytes (c.port (entPort e)))
    | none => false
  | .chunk _ => false

/-- EXPANDER_BLOCK: the oldest job that needs expansion is expanded and goes on, and those behind it that need none; nothing while its port's
back-pressure stalls it (R30). -/
def Chan.expand (c : Chan) : Chan :=
  let c := c.drain c.codec.expQ.length
  match c.codec.expQ with
  | [] => c
  | j :: rest =>
    if c.expStalled j then c
    else
    let c := c.modCodec fun d => { d with expQ := rest }
    let c := match j with
      | .packet slot cls o =>
        let p := pktOf o.bytes
        match expandPacket p.length.toNat (o.bytes.drop 24) with
        | .error ds => c.damagedJob j ds
        | .ok e =>
          let blks := (walkBlocks o.bytes.length (o.bytes.drop 24)).getD []
          let c := (blks.zipIdx).foldl (fun (c : Chan) (x : List Byte × Nat) => c.lagged x.1 (min 4096 (e.bytes.length - 4096 * x.2))) c
          let c := (c.count 0x5000B0 e.ovr).raiseIf (decide (0 < e.ovr)) { ev := .codecSaturate, slot := slot, value := e.ovr }
          c.passOn (.packet slot cls { o with kind := .packet, bytes := o.bytes.take 24 ++ e.bytes })
      | .chunk q =>
        let fmt := match c.comm? q.msg.slot q.msg.hdr.comm.toNat with | some m => m.body.fmt.toNat | none => 0
        match expandBlock (some fmt) (q.msg.body.length - 8) q.msg.body with
        | .error d => c.damagedJob j [d]
        | .ok e =>
          let c := (c.count 0x5000B0 e.ovr).raiseIf (decide (0 < e.ovr))
            { ev := .codecSaturate, slot := q.msg.slot, comm := q.msg.hdr.comm.toNat, value := e.ovr }
          (c.lagged q.msg.body e.bytes.length).passOn j
    c.drain c.codec.expQ.length

/-! ### The commands -/

/-- PACKER_CODE_BLOCK: `fails` tells of each block how often the check decoder refused it (R207); `parity`: the buffer read mismatches
(R110). -/
def execPackerCodeBlock (ch : Fin 8) (fails : List (Fin 3)) (s : State) (parity : Bool := false) : Out :=
  done (onPath ch (fun c => if parity then c.packParity else c.pack fails) s)
/-- EXPANDER_BLOCK; `parity`: the buffer read mismatches (R110). -/
def execExpanderBlock (ch : Fin 8) (s : State) (parity : Bool := false) : Out :=
  done (onPath ch (fun c => if parity then c.expandParity else c.expand) s)

end Sys2Proof.Machine
end

