-- ==== Sys2Proof/Machine/Path.lean ====
section
/-! DEFINITION. What the line's coming and going does to jobs, instances and drift (Line Frame, R308–R310; Partitions, Drift and Unit
Health, R472–R476, R482, R490; Cross-Site Collectives, R186). -/

namespace Sys2Proof.Machine

open Sys2Proof

/-- Occupied slots. -/
def Chan.occupied (c : Chan) : List Nat := (List.range 16).filter fun k => decide ((c.slot k).mode ≠ .free)

/-- STALL of every occupied slot (R473). -/
def Chan.setStall (c : Chan) (b : Bool) : Chan := c.occupied.foldl (fun (c : Chan) k => c.putSlot k { c.slot k with stall := b }) c

/-- STALL clears once the line is up and a key epoch is active (R473). -/
def Chan.clearStall (c : Chan) : Chan := if c.line.state = .up ∧ c.sec.cur.isSome then c.setStall false else c

/-- PATH_DOWN or PATH_UP for each occupied slot (R472). -/
def Chan.pathNotices (c : Chan) (what site : Nat) (ev : Ev) : Chan :=
  c.occupied.foldl (fun (c : Chan) k =>
    (c.raise { ev := ev, slot := k, job := (c.slot k).body.jobId.toNat, value := site, scope := k }).partNotice k { what := what, site := site }) c

/-! ### Entering drift (R474–R476) -/

/-- A communicator's shards that are bound to the ledger join those in drift. -/
def Chan.driftLedgers (c : Chan) (slot : Nat) (m : Comm) : Chan :=
  (c.part.ledgers.filter fun l => l.slot == slot && decide (l.comm = m.body.comm)).foldl (fun (c : Chan) l => c.noteShard slot l.comm l.shard) c

/-- A slot whose communicators drift is in drift from the first loss of the span on (R474, R490). -/
def Chan.enterDrift (c : Chan) (slot : Nat) : Chan :=
  let ms := c.col.comms.filter fun m => m.slot == slot && c.drifts m
  if (c.slot slot).mode ≠ .stage ∨ ms.isEmpty then c
  else
    let c := if c.drifting slot then c
      else ((c.modPart fun p => { p with drifts := cput p.drifts slot { sinceMs := c.ms, far := ms.any fun m => decide (m.body.role = 2) } }).count 0x8C).raise
        { ev := .partDrift, slot := slot, job := (c.slot slot).body.jobId.toNat, scope := slot }
    let c := c.modPart fun p => { p with
      shards := p.shards.map fun x => if x.slot = slot ∧ x.action ≠ some .reload then { x with mine := none, acked := false, peer := none, action := none } else x }
    ms.foldl (fun (c : Chan) m => c.driftLedgers slot m) c

/-! ### Offers (R482) -/

/-- The bytes of a DRIFT_OFFER. -/
def offerBytes (o : OfferBody) : List Byte :=
  beBytes 4 o.job.toNat ++ beBytes 2 o.comm.toNat ++ beBytes 2 o.shard.toNat ++ beBytes 2 o.index.toNat ++ beBytes 2 o.count.toNat
    ++ beBytes 4 o.lastSeq.toNat ++ beBytes 4 o.step.toNat ++ beBytes 2 o.n.toNat ++ [o.flags, o.rsvd]

/-- The offer of a shard in drift as it stands. -/
def Chan.offerOf (c : Chan) (x : DriftShard) : OfferBody :=
  let mine := c.part.shards.filter fun y => y.slot == x.slot && decide (y.comm = x.comm)
  let i := (mine.findIdx? fun y => decide (y.shard = x.shard)).getD 0
  let m := c.comm? x.slot x.comm.toNat
  let l := c.ledger? x.slot x.comm.toNat x.shard.toNat
  let held := match l with | some l => !l.lost | none => false
  let lim := match cget? c.part.drifts x.slot with | some d => d.limit | none => false
  let anchor := match m with | some m => commAnchor m | none => false
  { job := (c.slot x.slot).body.jobId, comm := x.comm, shard := x.shard, index := BitVec.ofNat 16 i, count := BitVec.ofNat 16 mine.length
    lastSeq := (m.map Comm.lastSeq).getD 0, step := (c.slot x.slot).step, n := BitVec.ofNat 16 ((l.map Ledger.n).getD 0)
    flags := BitVec.ofNat 8 (held.toNat + 2 * lim.toNat + 4 * anchor.toNat) }

/-- A shard's offer made and sent. -/
def Chan.sendOffer (c : Chan) (x : DriftShard) : Chan :=
  let o := match x.mine with | some o => o | none => c.offerOf x
  (c.putShard { x with mine := some o, sentUs := c.us }).sendHlth 0x10 (offerBytes o)

/-! ### The line comes and goes -/

/-- The line enters UP (R310, R418, R472, R482). -/
def Chan.lineUp (c : Chan) : Chan :=
  let c := (c.modLine fun l => { l with
    state := .up, txSuper := 0, rxSuper := 0, legs := l.legs.map fun g => { g with tuSuper := none } }).raise { ev := .lineUp }
  let c := c.flushProv.clearStall.pathNotices 2 c.peerSite .partPathUp
  let c := c.modPart fun p => { p with drifts := p.drifts.filter fun d => p.shards.any fun x => x.slot == d.1 }
  (c.part.shards.filter fun x => decide (x.action ≠ some .reload)).foldl (fun (c : Chan) x => c.sendOffer x) c

/-! ### Misses of a mode change (R495) -/

/-- A miss is recorded, once: the control plane and the peer are told. -/
def Chan.recordMiss (c : Chan) (slot : Nat) : Chan :=
  match cget? c.part.modes slot with
  | none => c
  | some m =>
    if m.missed || m.reverted then c
    else
      let job := (c.slot slot).body.jobId.toNat
      let c := (c.modPart fun p => { p with modes := cput p.modes slot { m with missed := true } }).partNotice slot { what := 6 }
      let c := c.sendHlth 0x12 (beBytes 4 job ++ beBytes 1 (if m.toCol then 2 else 1) ++ beBytes 3 0 ++ stampBytes m.at_)
      (c.count 0x88).raise { ev := .partModeMiss, slot := slot, job := job, scope := slot }

/-- The peer's SLOT_MODE still names the old mode more than RTT / 2 + 10 µs after ACT: a miss (R495). -/
def Chan.modeWatch (c : Chan) : Chan :=
  c.part.modes.foldl (fun (c : Chan) e =>
    let m := e.2
    let old := if m.toCol then 1 else 2
    let shows := match (c.slot e.1).peerSlot with
      | some p => decide (fld c.line.peerModes (2 * p.val + 1) (2 * p.val) = old)
      | none => false
    if m.acted && shows && decide (m.at_ + c.rttNs / 2 + 10000 < c.now) then c.recordMiss e.1 else c) c

/-- The line leaves UP for another state (R186, R310, R473, R474). -/
def Chan.lineDown (c : Chan) (st : LineState) : Chan :=
  let c := (c.modLine fun l => { l with state := st }).raise { ev := .lineDown }
  let c := (c.optLineDown.cutStream).setStall true
  let c := (c.col.ctxs.filter fun e => !e.2.ending && !e.2.drift).foldl (fun (c : Chan) e => c.endAll e.1 0x15 false) c
  let c := c.occupied.foldl (fun (c : Chan) k => c.enterDrift k) c
  c.pathNotices 1 c.peerSite .partPathDown

/-- The receive direction enters DOWN_LOS or DOWN_LOF: from UP the line goes down first; relay signalling begins (R308, R310, R313). -/
def Chan.rxDown (c : Chan) (st : LineState) : Chan :=
  let was := c.line.state
  let c := if was = .up then c.lineDown st else c.modLine fun l => { l with state := st }
  let c := c.modLine fun l => { l with bdiRun := 0, bipRx := none }
  let c := if st = .downLos then (c.count 0x800108).raise { ev := .lineLos }
    else if was = .up ∨ was = .rxUp then (c.count 0x800104).raise { ev := .lineLof } else c.count 0x800104
  c.startAis 0 c.cfg.peerSite

end Sys2Proof.Machine
end

