-- ==== Sys2Proof/Machine/LineRx.lean ====
section
/-! DEFINITION. The line's receive side up to whole elements: lanes, frame state, frames decoded, tributaries, the stream parser, RACK, NAK
and GONE (Line Frame, R303–R324, R328–R332). -/

namespace Sys2Proof.Machine

open Sys2Proof

/-! ### Holes (R329, R330) -/

/-- A range joins the NAKs of the next frames; a TSEQ right after the last range extends it. -/
def addNak (l : List Range) (t : Nat) : List Range :=
  match l.getLast? with
  | some r => if (r.first + r.count) % tsMod = t ∧ r.count < 65535 then l.dropLast ++ [{ r with count := r.count + 1 }] else l ++ [⟨t, 1⟩]
  | none => [⟨t, 1⟩]

/-- A hole found: counted, and reported in the next frame (R329, R330). -/
def Chan.foundHole (c : Chan) (t : Nat) : Chan :=
  (c.modLine fun l => { l with
    holes := l.holes ++ [{ tseq := t, foundUs := l.upUs, lastUs := l.upUs, reports := 1 }], naks := addNak l.naks t
    unsure := l.unsure.filter fun u => u ≠ t }).count 0x80011C

/-- TSEQs whose element is in progress at the parser or waits to be treated. -/
def Chan.inProgress (c : Chan) : List Nat :=
  let of (p : Option Partial) : List Nat := match p with | some p => if 12 ≤ p.bytes.length then [(elemOf p.bytes).tseq] else [] | none => []
  of c.line.parser.cur ++ of c.line.parser.susp ++ c.line.rxq.map Element.tseq

/-- Every TSEQ after the highest up to `t` is known of: a hole, unless its element is in progress (R329). -/
def Chan.advance (c : Chan) (t : Nat) : Chan :=
  if !tsAfter t c.line.highest then c
  else
    let from_ := c.line.highest
    let busy := c.inProgress
    let c := (List.range ((t + tsMod - from_) % tsMod)).foldl (fun (c : Chan) i =>
      let u := (from_ + 1 + i) % tsMod
      if busy.contains u then c.modLine fun l => { l with unsure := l.unsure ++ [u] } else c.foundHole u) c
    c.modLine fun l => { l with highest := t }

/-- An element that was in progress is gone without having been received (R329). -/
def Chan.dropped (c : Chan) (t : Nat) : Chan := if c.line.unsure.contains t then c.foundHole t else c

/-- A hole resolved without its data (R330). -/
def Chan.lostHole (c : Chan) (t : Nat) : Chan :=
  if c.line.holes.any fun h => h.tseq == t then
    ((c.modLine fun l => { l with holes := l.holes.filter fun h => h.tseq ≠ t }).count 0x800134).raise { ev := .lineRtxLost, value := t }
  else c

/-! ### Awaited copies (R334) -/

/-- An awaited flow goes on: with the copy in place of the damaged object, or without it, which is then unrecoverable. -/
def Chan.resumeFlow (c : Chan) (a : Awaited) (copy : Option ExpJob) : Chan :=
  let c := c.modLine fun l => { l with awaited := l.awaited.filter fun x => decide (x ≠ a) }
  match a.jobs with
  | j :: rest =>
    let c := c.releaseOpt (jobBuf j)
    match copy with
    | some k => (k :: rest).foldl (fun (c : Chan) x => c.goOn x) c
    | none => rest.foldl (fun (c : Chan) x => c.goOn x) (c.unrecoverable a.slot)
  | [] => c

/-! ### Resync and out of frame (R307, R319, R324) -/

/-- Tributary messages that are open are lost (R319). -/
def Chan.dropTribs (c : Chan) : Chan :=
  (List.range 5).foldl (fun (c : Chan) t =>
    let x := vget c.line.tribs t
    if x.rx.isSome ∨ x.rxPrev.isSome then
      ((c.modLine fun l => { l with tribs := vset l.tribs t { x with rx := none, rxPrev := none } }).count 0x80013C).raise
        { ev := .lineTribDrop, value := t }
    else c) c

/-- A resync: elements in progress are dropped and bytes discarded up to a TUPTR (R324, R329). -/
def Chan.resync (c : Chan) : Chan :=
  let of (p : Option Partial) : List Nat := match p with | some p => if 12 ≤ p.bytes.length then [(elemOf p.bytes).tseq] else [] | none => []
  let gone := of c.line.parser.cur ++ of c.line.parser.susp
  let c := (c.modLine fun l => { l with parser := { skip := true } }).count 0x800118
  gone.foldl (fun (c : Chan) t => c.dropped t) (c.raise { ev := .lineResync })

/-- Every logical lane has a physical lane, or a pair of them, of its own in the receive map (R295). -/
def mapWhole (m : Vector MapEnt 32) : Bool :=
  let ps := (List.range 32).flatMap fun l => entLanes (vget m l)
  ps.all (fun p => decide (p < 36)) && decide ps.Nodup

/-- In frame: every logical lane carried and in SYNC, MFAS agreeing, skew within 1.0 µs. A lane may lag by the lane unit that has not come
yet (R295, R307; log entry 41). -/
def Chan.aligned (c : Chan) (mfas : BitVec 8) : Bool :=
  let ls := c.line.lanes.toList
  let sk := ls.map Lane.skewNs
  mapWhole c.opt.rxMap && ls.all (fun l => decide (l.align = .sync) && (decide (l.mfas = mfas) || decide (l.mfas = mfas - 1)))
    && decide (sk.foldl max 0 ≤ sk.foldl min 1000000 + 1000)

/-- The receiver goes in or out of frame (R307). -/
def Chan.setOof (c : Chan) (oof : Bool) : Chan :=
  if oof = c.line.oof then c
  else if oof then
    let c := ((c.modLine fun l => { l with oof := true, oofUs := c.us, bipRx := none, bdiRun := 0, lastRx := none, window := [] }).count 0x800100).raise { ev := .lineOof }
    c.dropTribs.resync
  else c.modLine fun l => { l with oof := false, inUs := c.us }

/-! ### Lanes (R304–R307, R365) -/

/-- A logical lane's receiver replaced, and the frame state with it. -/
def Chan.putLane (c : Chan) (l : Nat) (x : Lane) (mfas : BitVec 8) : Chan :=
  let c := c.modLine fun y => { y with lanes := vset y.lanes l x }
  c.setOof (!c.aligned mfas)

/-- The first unit of a superframe on logical lane 0 is a mark of the time unit in frame mode, numbered from line-up (R450). -/
def Chan.superMark (c : Chan) (mfas : BitVec 8) : Chan :=
  if mfas ≠ 0 then c
  else
    let n := c.line.rxSuper
    let c := c.modLine fun l => { l with rxSuper := n + 1 }
    if c.time.frameMode then c.modTime fun t => { t with arr36 := keepMarks (cput t.arr36 n c.time.unit.now) } else c

/-- A map entry without a physical lane. -/
def noLane : MapEnt := { phys := 0x3F }

/-- The logical lane of a physical one: as the receive map has it; while DOWN_LOF as its LID says, unless the lane in the last map
carries that LID in SYNC. A lane whose LID takes it elsewhere leaves its old place without one (R295, R306, R365; log entry 42). -/
def Chan.laneOf (c : Chan) (p : Nat) (lid : BitVec 8) : Option Nat × Chan :=
  let n := lid.toNat / 8
  if c.line.state = .downLof then
    let e := vget c.opt.rxMap n
    if entLanes e |>.contains p then (some n, c)
    else if (vget c.line.lanes n).align = .sync then (none, c)
    else (some n, c.modOpt fun o => { o with
      rxMap := vset (o.rxMap.map fun x => if (entLanes x).contains p then noLane else x) n { e with phys := BitVec.ofNat 6 p, ook := bitOf lid 2 } })
  else (logicalOf c.opt.rxMap p, c)

/-- 48 raw bits are the frame alignment pattern but for at most six (R304). -/
def fasFits (raw pat : BitVec 48) : Bool := decide (popcount (raw ^^^ pat) 48 ≤ 6)

/-- A lane unit of a logical lane: its 48 raw FAS bits, LID, MFAS and skew (R304–R306). The first unit of a superframe on logical lane 0 is
a mark of the time unit in frame mode, stamped at the deserialiser (R450). -/
def Chan.unitIn (c : Chan) (l : Nat) (fasRaw : BitVec 48) (lid mfas : BitVec 8) (skewNs : Nat) : Chan :=
  let x := vget c.line.lanes l
  let match_ := fasFits fasRaw (BitVec.ofNat 48 fas)
  let wrong := decide (x.align = .sync) && decide (lid.toNat / 8 ≠ l)
  let c := if wrong then (c.count 0x800140).raise { ev := .lineLaneId, value := l } else c
  let good := match_ && !wrong
  let n := fld (c.reg 0x800008) 31 28
  let m := fld (c.reg 0x800008) 27 24
  let x := { x with mfas := mfas, skewNs := skewNs }
  let y : Lane :=
    if x.dark then { x with align := .hunt }
    else match x.align with
      | .hunt => if match_ then { x with align := .presync, good := 1, bad := 0 } else x
      | .presync =>
        if good then (if n ≤ x.good + 1 then { x with align := .sync, good := 0, bad := 0 } else { x with good := x.good + 1 })
        else { x with align := .hunt, good := 0 }
      | .sync =>
        if good then { x with bad := 0 }
        else if m ≤ x.bad + 1 then { x with align := .hunt, bad := 0, outUs := c.us } else { x with bad := x.bad + 1 }
  let c := if y.align = .sync ∧ mfas = 0 then c.rxBoundary else c
  let c := if l = 0 ∧ y.align = .sync then c.superMark mfas else c
  c.putLane l y mfas

/-- A unit arrives on a lane (R294, R304–R306, R356, R365). A unit with the complemented pattern makes its lane a test lane, and never passes to
the framer: where the lane carries a logical lane, that lane has an errored frame. On a lane of an OOK pair the low 24 bits of `fasRaw` are
the lane's half; the units of both lanes are joined before they count (log entry 165). -/
def Chan.laneUnit (c : Chan) (p : Nat) (fasRaw : BitVec 48) (lid mfas : BitVec 8) (skewNs : Nat) : Chan :=
  if fasFits fasRaw (~~~ BitVec.ofNat 48 fas) then
    let c := c.modRx p fun x => { x with test := true }
    match logicalOf c.opt.rxMap p with
    | some l => if (vget c.line.lanes l).align = .hunt then c else c.unitIn l fasRaw (BitVec.ofNat 8 (8 * l)) (vget c.line.lanes l).mfas skewNs
    | none => c
  else
    let r := c.laneOf p lid
    match r.1 with
    | none => r.2
    | some l =>
      let c := r.2.modRx p fun x => { x with test := false }
      let e := vget c.opt.rxMap l
      if e.pair = 0x3F then c.unitIn l fasRaw lid mfas skewNs
      else
        let first := decide (p = e.phys.toNat)
        let mine : BitVec 24 := fasRaw.setWidth 24
        let x := vget c.line.lanes l
        let keep (h : Option (Bool × BitVec 24)) : Chan := c.modLine fun y => { y with lanes := vset y.lanes l { x with half := h } }
        match x.half with
        | some (f, w) =>
          if f = first then keep (some (first, mine))
          else (keep none).unitIn l (if first then joinFas mine w else joinFas w mine) lid mfas skewNs
        | none => keep (some (first, mine))

/-- The peer has reached step 6 of its start-up: a lane has received its test units, or its frames (R525). -/
def Chan.peerLit (c : Chan) : Bool := c.opt.rx.toList.any (·.test) || c.line.lanes.toList.any fun x => decide (x.align ≠ .hunt)

/-- LANE_UNIT_RECEIVE. The bound of step 6 of start-up runs from the first unit of the peer that the channel takes (R525, R527). -/
def Chan.laneUnitIn (c : Chan) (p : Nat) (fasRaw : BitVec 48) (lid mfas : BitVec 8) (skewNs : Nat) : Chan :=
  let d := c.laneUnit p fasRaw lid mfas skewNs
  if c.boot.phase = 5 ∧ !c.peerLit ∧ d.peerLit then { d with boot := { d.boot with stepUs := d.us } } else d

/-- LOSS_OF_LIGHT on a logical lane (R305). -/
def Chan.lightLost (c : Chan) (l : Nat) : Chan :=
  let x := vget c.line.lanes l
  c.putLane l { x with
    align := .hunt, good := 0, bad := 0, dark := true, darkUs := if x.dark then x.darkUs else c.us, half := none,
    outUs := if x.align = .sync then c.us else x.outUs } x.mfas

/-- LOS: at least 16 lanes have reported loss of light for 10 µs (R307). -/
def Chan.los (c : Chan) : Bool := decide (16 ≤ (c.line.lanes.toList.filter fun l => l.dark && decide (l.darkUs + 10 < c.us)).length)

/-- LIGHT_RETURN on a logical lane: it may lock again, and LOS can end (R305, R308). -/
def Chan.lightBack (c : Chan) (l : Nat) : Chan :=
  let x := vget c.line.lanes l
  let c := c.modLine fun y => { y with lanes := vset y.lanes l { x with dark := false } }
  if c.line.state = .downLos ∧ !c.los then c.rxDown .downLof else c

/-- LOS_DETECT (R307, R308). -/
def Chan.losDetect (c : Chan) : Chan := if c.los ∧ c.line.state ≠ .downLos then c.rxDown .downLos else c

/-- LOF_CLR_EXPIRE: in frame for LOF_CLR, the receive direction enters RX_UP, and CAP is sent (R308, R313, R320). -/
def Chan.lofClear (c : Chan) : Chan :=
  if c.line.state = .downLof ∧ !c.line.oof ∧ c.line.inUs + 10 * fld (c.reg 0x800008) 11 0 < c.us then
    ((c.modLine fun l => { l with state := .rxUp, bdiRun := 0 }).stopAis 0).sendCap
  else c

/-- LOF_SET_EXPIRE: out of frame for LOF_SET (R308). -/
def Chan.lofSet (c : Chan) : Chan :=
  if c.inFrame ∧ c.line.oof ∧ c.line.oofUs + 10 * fld (c.reg 0x800008) 23 12 < c.us then c.rxDown .downLof else c

/-! ### Tributaries received (R318, R319, R397, R398) -/

/-- Whether a message with its CRC is whole. -/
def tribWhole (m : List Byte) : Bool :=
  let n := m.length - 4
  decide (5 ≤ m.length) && decide (crc32c (m.take n) = BitVec.ofNat 32 (beAt m n 4))

/-- The message open after a slice: none where there is none, and whether one was dropped. -/
def openMsg (rx : Option (List Byte)) (som : Bool) (bs : List Byte) : Option (List Byte) × Bool :=
  let cur := if som then some [] else rx
  match cur with
  | none => (none, !bs.isEmpty)
  | some m => if 8192 < m.length + bs.length then (none, true) else (some (m ++ bs), som && rx.isSome)

/-- TYPEs that a tributary's receiver knows of: TIME 0x01 (R445), KEY those of R383, PROV 0x01 and 0x02 (R417), HLTH 0x01–0x0C
and 0x10–0x12 (R320, R361, R482). -/
def tribKnown (t : Nat) (m : List Byte) : Bool :=
  let y := beAt m 0 1
  match t with
  | 1 => y == 1
  | 2 => [1, 2, 3, 4, 0x10, 0x11, 0x12, 0x20, 0x21, 0x3F].contains y
  | 3 => y == 1 || y == 2
  | 4 => decide (1 ≤ y) && decide (y ≤ 18) && !(decide (13 ≤ y) && decide (y ≤ 15))
  | _ => true

/-- One slice taken in. -/
def Chan.sliceIn (c : Chan) (t : Nat) (bs : List Byte) : Chan :=
  let ctl := beAt bs 0 1
  let n := min (ctl % 64) (sliceSize t - 1)
  let raw := (bs.drop 1).take n
  let som := decide (128 ≤ ctl)
  let eom := decide (64 ≤ ctl % 128)
  if n = 0 ∧ !som ∧ !eom then c
  else
    let now := match t, c.sec.cur with
      | 0, some e => cfb8 c.suite (c.key e.secret "MGT" false) false c.sec.mgmtRx raw
      | _, _ => (raw, c.sec.mgmtRx)
    let old := match t, c.sec.prev with
      | 0, some e => some (cfb8 c.suite e.rxMgt false c.sec.mgmtRxPrev raw)
      | _, _ => none
    let c := c.modSec fun s => { s with mgmtRx := now.2, mgmtRxPrev := match old with | some o => o.2 | none => s.mgmtRxPrev }
    let x := vget c.line.tribs t
    let a := openMsg x.rx som now.1
    let b := match old with | some o => openMsg x.rxPrev som o.1 | none => (none, false)
    let whole (m : Option (List Byte)) : Option (List Byte) := m.filter tribWhole
    let got := if eom then (match whole a.1 with | some m => some m | none => whole b.1) else none
    let bad := a.2 || (eom && a.1.isSome && got.isNone)
    let x := { x with
      rx := if eom then none else a.1, rxPrev := if eom then none else b.1,
      rxq := match got with | some m => if tribKnown t m then x.rxq ++ [m.take (m.length - 4)] else x.rxq | none => x.rxq }
    let c := c.modLine fun l => { l with tribs := vset l.tribs t x }
    if bad then (c.count 0x80013C).raise { ev := .lineTribDrop, value := t } else c

/-! ### RACK, NAK and GONE received (R328, R330, R332, R334) -/

/-- TSEQs joined to the GONE ranges to report. -/
def addGone (l : List Range) (t : Nat) : List Range := addNak l t

/-- One TSEQ of a NAK (R332). -/
def Chan.nakOne (c : Chan) (t : Nat) : Chan :=
  let bad := tsAfter t c.line.ended || (c.line.rtx.any fun r => r.older.contains t)
  if bad then c.count 0x800128
  else match c.line.rtx.find? fun r => r.latest == t with
    | some r =>
      if c.inWindow r && !r.lost then
        if r.queued then c
        else
          let c := c.modLine fun l => { l with rtx := l.rtx.map fun x => if x.first = r.first then { x with queued := true } else x }
          c.modSch fun s => { s with resends := s.resends ++ [(r.tu.tc, r.first)] }
      else c.modLine fun l => { l with gone := addGone l.gone t }
    | none => c.modLine fun l => { l with gone := addGone l.gone t }

/-- A NAK range. -/
def Chan.nakIn (c : Chan) (r : Range) : Chan :=
  (List.range r.count).foldl (fun (c : Chan) i => c.nakOne ((r.first + i) % tsMod)) (c.count 0x800124)

/-- A TSEQ stands in a range. -/
def inRange (r : Range) (t : Nat) : Bool := decide ((t + tsMod - r.first) % tsMod < r.count)

/-- A GONE range: holes it covers are resolved, and awaited copies will not come (R330, R334). -/
def Chan.goneIn (c : Chan) (r : Range) : Chan :=
  let c := c.count 0x800130 r.count
  let c := (c.line.holes.filter fun h => inRange r h.tseq).foldl (fun (c : Chan) h => c.lostHole h.tseq) c
  (c.line.awaited.filter fun a => inRange r a.tseq).foldl (fun (c : Chan) a => c.resumeFlow a none) c

/-! ### Relay path overhead (R315, R316) -/

/-- A leg's indication begins: PATH_DOWN, and relay signalling onward with its site. -/
def Chan.aisBegin (c : Chan) (j : Nat) : Chan :=
  let site := vget c.line.aisSite j
  let c := (c.modLine fun l => { l with aisRx := putBit l.aisRx j true }).raise { ev := .lineAisRx, value := site.toNat }
  (c.pathNotices 1 site.toNat .partPathDown).startAis (1 + j) site

/-- RPOH entry `j` of a decoded frame. -/
def Chan.rpohIn (c : Chan) (j : Nat) (w : BitVec 32) : Chan :=
  if w = BitVec.allOnes 32 then if bitOf c.line.aisRx j then c else c.aisBegin j
  else
    let c := if bitOf c.line.aisRx j then (c.modLine fun l => { l with aisRx := putBit l.aisRx j false }).stopAis (1 + j) else c
    if fld w 31 30 = 1 then c.modLine fun l => { l with aisSite := vset l.aisSite j (BitVec.ofNat 8 (fld w 31 24 % 64)) } else c

/-! ### The stream parser (R323, R324) -/

/-- Bytes of an element once its header is known (R322). -/
def elemNeed (hdr : List Byte) : Nat := (elemOf hdr).len + (if (elemOf hdr).rsnd then 6 else 0) + 16

/-- Bytes of an element that waits for decryption. -/
def elemBytesOf (e : Element) : Nat := e.len + (if e.rsnd then 6 else 0) + 16

/-- An element that has been parsed whole waits for the cipher engine: in 1 MiB, or it is discarded and counted (R34; log entry 162). -/
def Chan.parsed (c : Chan) (bs : List Byte) : Chan :=
  let used := (c.line.rxq.map elemBytesOf).foldl (· + ·) 0
  let e := elemOf bs
  let c := c.modLine fun l => { l with parser := { l.parser with cur := none } }
  if 1048576 < used + bs.length then (c.modLine fun l => { l with rxDrops := l.rxDrops + 1 }).dropped e.tseq
  else c.modLine fun l => { l with rxq := l.rxq ++ [e] }

/-- The stream's bytes from position `pos` of a payload with a TUPTR, taken in pieces. -/
def Chan.parse (tuptr : Nat) : Nat → Chan → Nat → List Byte → Chan
  | 0, c, _, _ => c
  | fuel + 1, c, pos, bs =>
    let p := c.line.parser
    match bs with
    | [] => c
    | b :: rest =>
      if p.skip then
        if tuptr ≠ 0x7FFF ∧ pos ≤ tuptr then
          Chan.parse tuptr fuel (c.modLine fun l => { l with parser := { p with skip := false } }) tuptr (bs.drop (tuptr - pos))
        else c
      else match p.cur with
      | some e =>
        if p.sect then
          if b = 0xC0 then Chan.parse tuptr fuel (c.modLine fun l => { l with parser := { p with sect := false } }) (pos + 1) rest
          else if b = 0x80 then
            Chan.parse tuptr fuel (c.modLine fun l => { l with parser := { p with cur := none, susp := some e, sect := false } }) (pos + 1) rest
          else Chan.parse tuptr fuel c.resync pos bs
        else
          let tc3 := decide (12 ≤ e.bytes.length) && decide ((elemOf e.bytes).tc = 3)
          let lim := e.need - e.bytes.length
          let n := min (if tc3 then min lim (256 - e.bytes.length % 256) else lim) bs.length
          let got := e.bytes ++ bs.take n
          let fresh := decide (e.need = 12) && decide (got.length = 12)
          let x := elemOf got
          if fresh && (decide (x.len < 64) || decide (8256 < x.len)) then Chan.parse tuptr fuel c.resync (pos + n) (bs.drop n)
          else if fresh then
            Chan.parse tuptr fuel (c.modLine fun l => { l with parser := { p with cur := some ⟨got, elemNeed got⟩ } }) (pos + n) (bs.drop n)
          else if got.length = e.need then Chan.parse tuptr fuel (c.parsed got) (pos + n) (bs.drop n)
          else
            let sect := tc3 && decide (got.length % 256 = 0)
            Chan.parse tuptr fuel (c.modLine fun l => { l with parser := { p with cur := some ⟨got, e.need⟩, sect := sect } }) (pos + n) (bs.drop n)
      | none =>
        if b = 0 then Chan.parse tuptr fuel (c.modLine fun l => { l with parser := { p with skip := true } }) 32256 []
        else if b = 0xC1 then
          match p.susp with
          | some e => Chan.parse tuptr fuel (c.modLine fun l => { l with parser := { p with cur := some e, susp := none } }) (pos + 1) rest
          | none => Chan.parse tuptr fuel c.resync pos bs
        else if b.toNat / 64 = 1 then
          Chan.parse tuptr fuel (c.modLine fun l => { l with parser := { p with cur := some ⟨[], 12⟩ } }) pos bs
        else Chan.parse tuptr fuel c.resync pos bs

/-! ### Frames decoded (R303, R308, R311, R312) -/

/-- Bits corrected by the inner decoder, by lane: counters that wrap (R338). -/
def Chan.countPrefec (c : Chan) (l : List Nat) : Chan :=
  (l.zipIdx).foldl (fun (c : Chan) (p : Nat × Nat) =>
    if p.1 = 0 then c else c.setReg (0x800280 + 4 * p.2) (c.reg (0x800280 + 4 * p.2) + BitVec.ofNat 32 p.1)) c

/-- BIPs of a frame checked against those of the frame before: counts, and what the next frame sent returns (R311, R312). -/
def Chan.bipCheck (c : Chan) (lanes : List (List Byte)) (pbip : Byte) : Chan :=
  match c.line.bipRx with
  | none => c
  | some (secs, path) =>
    let errs := (List.range 32).map fun l => bitDiff (lget 0 secs l) (lget 0 (lget [] lanes l) 8)
    let pe := bitDiff path pbip
    let c := (errs.zipIdx).foldl (fun (c : Chan) (p : Nat × Nat) => c.count (0x800200 + 4 * p.2) p.1) (c.count 0x800110 pe)
    let any := decide (0 < pe) || errs.any fun e => decide (0 < e)
    (c.modLine fun l => { l with sbei := List.zipWith (· + ·) l.sbei errs, pbei := l.pbei + pe }).raiseIf any { ev := .linePathErr, value := pe }

/-- BDI of eight consecutive decoded frames (R308), with CAP where it takes the line to RX_UP (R320); during recovery they are counted for its step 10 (R533). -/
def Chan.bdiIn (c : Chan) (bdi : Bool) : Chan :=
  let want := match c.line.state with | .rxUp => !bdi | .up => bdi | _ => false
  let run := if want then c.line.bdiRun + 1 else 0
  let c := c.modLine fun l => { l with bdiRx := bdi, bdiRun := run }
  if run < 8 ∨ c.boot.phase = 8 then c
  else if c.line.state = .rxUp then (c.modLine fun l => { l with bdiRun := 0 }).lineUp
  else (((c.modLine fun l => { l with bdiRun := 0 }).raise { ev := .lineBdi }).lineDown .rxUp).sendCap

/-- A block that leaves the decoding window, after the block before it: an uncorrected frame is counted and its content discarded; during
recovery payload and overhead messages are discarded, but for the KEY tributary from step 9 on (R303, R533). -/
def Chan.frameOut (c : Chan) (prev : List (List Byte)) (b : RxBlock) : Chan :=
  let c := c.modLine fun l => { l with lastRx := some b.lanes }
  if !staircaseOk prev b.lanes b.parity then
    (((c.modLine fun l => { l with bipRx := none }).count 0x80010C).raise { ev := .lineUncorr }).dropTribs.resync
  else
    let plain := (b.lanes.zipIdx).map fun (p : List Byte × Nat) => scramble p.2 p.1
    let coh := cohOf (plain.flatMap fun l => (l.drop 10).take 6)
    let payload := plain.flatMap fun l => l.drop 16
    let mfas := lget 0 (lget [] plain 0) 7
    let c := c.bipCheck plain coh.pbip
    let c := (c.count 0x800114 coh.pbei).modLine fun l => { l with
      bipRx := some (plain.map bip, bip payload), mfasRx := mfas, peerRack := coh.rack, peerModes := coh.modes }
    let c := c.modeWatch.bdiIn coh.bdi
    if c.boot.phase = 8 then if c.resumed then c.sliceIn 2 (lget [] coh.slices 2) else c
    else
    let c := (coh.rpoh.zipIdx).foldl (fun (c : Chan) (p : BitVec 32 × Nat) => c.rpohIn p.2 p.1) c
    let c := coh.naks.foldl (fun (c : Chan) r => c.nakIn r) c
    let c := match coh.gone with | some r => c.goneIn r | none => c
    let c := (coh.slices.zipIdx).foldl (fun (c : Chan) (p : List Byte × Nat) => c.sliceIn p.2 p.1) c
    let c := Chan.parse coh.tuptr 65536 c 0 payload
    if c.line.state = .up then c.advance coh.txhi else c

/-- FRAME_DECODE: a frame passes the inner decoder and joins the decoding window; the block that was in a full window longest leaves it,
decoded (R300–R303). No frame is decoded out of frame (R307). -/
def Chan.frameIn (c : Chan) (b : BlockIn) : Chan :=
  if c.line.oof then c
  else
    let r := rxBlockOf b.raw
    let c := c.countPrefec r.2
    let c := if c.line.lastRx.isNone ∧ c.line.window.isEmpty then c.modLine fun l => { l with lastRx := some (b.prev.getD zeroBlock) } else c
    match c.line.window with
    | o :: rest =>
      if c.line.window.length < 8 then c.modLine fun l => { l with window := l.window ++ [r.1] }
      else
        let prev := c.line.lastRx.getD zeroBlock
        (c.modLine fun l => { l with window := rest ++ [r.1] }).frameOut prev (decodeOldest prev o (rest ++ [r.1]))
    | [] => c.modLine fun l => { l with window := [r.1] }

/-! ### The commands -/

/-- FRAME_SEND: no frame leaves below Active, or while the modulators are quiet (R533, R542). -/
def execFrameSend (ch : Fin 8) (s : State) : Out := done (onLive ch (fun c => if c.boot.pst = 0 ∧ c.lineRuns then c.frameSend else c) s)
/-- LANE_UNIT_RECEIVE on a physical lane. -/
def execLaneUnitReceive (ch : Fin 8) (phys : Fin 36) (fasRaw : BitVec 48) (lid mfas : BitVec 8) (skewNs : BitVec 16) (s : State) : Out :=
  done (onLive ch (fun c => if c.lineRuns then c.laneUnitIn phys fasRaw lid mfas skewNs.toNat else c) s)
def execLossOfLight (ch : Fin 8) (lane : Fin 32) (s : State) : Out := done (onLive ch (fun c => c.lightLost lane) s)
def execLightReturn (ch : Fin 8) (lane : Fin 32) (s : State) : Out := done (onLive ch (fun c => c.lightBack lane) s)
def execLosDetect (ch : Fin 8) (s : State) : Out := done (onLive ch Chan.losDetect s)
def execLofClrExpire (ch : Fin 8) (s : State) : Out := done (onLive ch Chan.lofClear s)
def execLofSetExpire (ch : Fin 8) (s : State) : Out := done (onLive ch Chan.lofSet s)
def execFrameDecode (ch : Fin 8) (b : BlockIn) (s : State) : Out := done (onLive ch (fun c => if c.lineRuns then c.frameIn b else c) s)

end Sys2Proof.Machine
end

