-- ==== Sys2Proof/Machine/TuRx.lean ====
section
/-! DEFINITION. Elements received, decrypted, buffered, delivered in the order of their flows; hole reports; relay legs; CAP (Line Frame,
R314, R320–R334; Line Encryption, R394; Staging Pools, R114, R622). -/

namespace Sys2Proof.Machine

open Sys2Proof

/-! ### Keys and tags (R394) -/

/-- The keys of the epoch that KEPOCH names: the current one, or the previous one within its window. -/
def Chan.epochKey (c : Chan) (k : BitVec 8) : Option EpochKeys :=
  match c.sec.cur, c.sec.prev with
  | some e, p => if e.num = k then some (c.keysOf e) else match p with | some q => if q.num = k then some q else none | none => none
  | none, _ => none

/-- The body of an element decrypted: none when its tag fails. -/
def Chan.openTu (c : Chan) (k : EpochKeys) (e : Element) : Option (List Byte) :=
  if e.tag = tuTag c.suite k.rxMac e then some (ctrBody c.suite k.rxEnc e.kepoch e.tseq e.body) else none

/-! ### Collective messages on the line (R164, R275, R322) -/

/-- The body of a collective message without the padding of a TU of 64 bytes, whose body after the collective header is 36 bytes long;
every longer body is as it came, so bytes beyond CLEN fail the LENGTH check (R208, R275). -/
def colBody (codec : Nat) (h : ColHdr) (bs : List Byte) : List Byte :=
  if bs.length ≠ 36 then bs
  else match h.ctype.toNat with
  | 2 => if h.ncontrib = 0 then [] else if codec = 0 then bs else bs.take (8 + (blkHdrOf bs).clen)
  | 3 => if codec = 0 then bs else bs.take (8 + (blkHdrOf bs).clen)
  | 4 => bs.take 4
  | 5 => bs.take 4
  | 6 => []
  | 7 => bs.take (8 + 6 * beAt bs 0 1)
  | 8 => bs.take (8 + 6 * beAt bs 1 1)
  | 9 => bs.take 8
  | _ => bs

/-- CODEC of an open communicator. -/
def Chan.codecOf (c : Chan) (slot comm : Nat) : Nat := match c.comm? slot comm with | some m => m.body.codec.toNat | none => 0

/-- The context whose reserve takes a collective message, or the system share (R622). -/
def Chan.colShare (c : Chan) (slot : Nat) (h : ColHdr) : Share :=
  match c.col.ctxs.find? fun x =>
      x.2.slot == slot && decide (x.2.comm = h.comm) && decide (x.2.seq = h.seq) && decide (x.2.pepoch = h.pepoch) && !x.2.ending with
  | some (i, _) => .ctx i
  | none => .system

/-- A collective message of a slot, from header and body bytes. -/
def Chan.colMsg (c : Chan) (slot : Fin 16) (line : Bool) (src : Coord) (bs : List Byte) : ColMsg :=
  let h := colHdrOf bs
  let body := bs.drop 16
  { slot := slot, line := line, src := src, hdr := h, body := if line then colBody (c.codecOf slot h.comm.toNat) h body else body }

/-! ### Buffers for received TUs (R114, R116, R622) -/

/-- A buffer for a TU, or a place in its slot's receive spill queue; none where the TU is discarded. A failed allocation is counted (R114). -/
def Chan.tuBuf (c : Chan) (own : Option Nat) (e : Element) (first : Nat) (body : List Byte) : Option (Option Buf) × Chan :=
  let tc := e.tc.toNat
  let plain (sh : Share) : Option (Option Buf) × Chan := let r := c.alloc sh body.length; (r.1.map some, r.2)
  match own with
  | none => plain .system
  | some k =>
    if tc = 2 then plain (c.colShare k (colHdrOf body))
    else if tc = 0 then plain .system
    else
      let spill (c : Chan) : Option (Option Buf) × Chan :=
        match c.spillPut k tc false (.toFabric { kind := .packet, bytes := body, firstTseq := first, tseq := e.tseq }) with
        | some c => (some none, c)
        | none => (none, c)
      if c.spilling k tc false then spill c
      else
        let r := c.alloc (.slot k) body.length
        match r.1 with
        | some b => (some (some b), r.2)
        | none => spill r.2

/-- A TU discarded for want of a buffer: one of TC2 is counted among the inputs discarded too (R114, R622). -/
def Chan.tuFailed (c : Chan) (own : Option Nat) (e : Element) : Chan :=
  if e.tc.toNat = 2 ∧ !e.sys then (c.count 0x40035C).raise { ev := .colInDiscard, slot := own.getD 0xFF } else c

/-! ### TU_RECEIVE (R324–R334, R394) -/

/-- A TSEQ received: a hole is filled, or the highest moves on (R326, R329, R330). -/
def Chan.gotSeq (c : Chan) (t : Nat) : Chan :=
  if tsAfter t c.line.highest then
    let c := c.advance ((t + tsMod - 1) % tsMod)
    c.modLine fun l => { l with highest := t }
  else c.modLine fun l => { l with holes := l.holes.filter fun h => h.tseq ≠ t, unsure := l.unsure.filter fun u => u ≠ t }

/-- A TSEQ has neither been received nor resolved. -/
def Chan.openSeq (c : Chan) (t : Nat) : Bool :=
  tsAfter t c.line.highest || c.line.unsure.contains t || c.line.holes.any fun h => h.tseq == t

/-- The copy of an awaited TU: the damaged object taken from it (R334). -/
def copyJob (a : Awaited) (tseq : Nat) (body : List Byte) : Option ExpJob :=
  match a.jobs with
  | .packet slot cls o :: _ =>
    match objectsOf body.length body with
    | some os => (os[o.idx]?).map fun x => .packet slot cls { o with bytes := x.2, tseq := tseq, copy := true, buf := none }
    | none => none
  | .chunk q :: _ => some (.chunk { q with tseq := tseq, copy := true, buf := none })
  | [] => none

/-- A copy of a collective message carries its body again. -/
def Chan.colCopy (c : Chan) (j : ExpJob) (body : List Byte) : ExpJob :=
  match j with
  | .chunk q => .chunk { q with msg := { q.msg with body := (c.colMsg q.msg.slot true 0 body).body } }
  | j => j

/-- An AIS TU: an indication of its leg (R316). -/
def Chan.aisTuIn (c : Chan) (j : Nat) : Chan := if 4 ≤ j ∨ bitOf c.line.aisRx j then c else c.aisBegin j

/-- A TU decrypted: a copy, a duplicate, or a TU that waits for its turn; or discarded for want of a buffer, its TSEQ still a hole. -/
def Chan.tuIn (c : Chan) (e : Element) (body : List Byte) : Chan :=
  let first := if e.rsnd then e.orig else e.tseq
  match c.line.awaited.find? fun a => a.first == first with
  | some a =>
    let c := c.gotSeq e.tseq
    c.resumeFlow a ((copyJob a e.tseq body).map fun j => c.colCopy j body)
  | none =>
    if !c.openSeq first then (c.gotSeq e.tseq).count 0x800138
    else
      let own := if e.sys then none else c.ownSlot e.slot.toNat
      let objs := if e.tc.toNat = 2 && !e.sys then some [] else if body.all (fun b => b = 0xFF) then some [] else objectsOf body.length body
      if e.sys && body.all fun b => b = 0xFF then ((c.gotSeq first).gotSeq e.tseq).aisTuIn e.slot.toNat
      else if objs.isNone then (((c.gotSeq first).gotSeq e.tseq).count 0x800118).raise { ev := .lineResync }
      else if !e.sys && own.isNone then (((c.gotSeq first).gotSeq e.tseq).count 0x100060).raise { ev := .fabNoJob, value := e.slot.toNat }
      else match c.tuBuf own e first body with
      | (some buf, c) =>
        let t : RxTu := { first := first, tseq := e.tseq, prev := e.prev, tc := e.tc.toNat, slot := own.getD 0, sys := e.sys, mode := e.mode.toNat
                          body := body, buf := buf }
        let c := (c.gotSeq first).gotSeq e.tseq
        c.modLine fun l => { l with waiting := l.waiting ++ [t] }
      | (none, c) =>
        let c := c.tuFailed own e
        if tsAfter e.tseq c.line.highest then c.advance e.tseq else c.dropped e.tseq

/-- TU_RECEIVE: the oldest element that the parser has taken whole. -/
def Chan.tuReceive (c : Chan) : Chan :=
  match c.line.rxq with
  | [] => c
  | e :: rest =>
    let c := c.modLine fun l => { l with rxq := rest }
    match c.epochKey e.kepoch with
    | none => ((c.count 0xA00084).raise { ev := .secEpochBad, value := e.kepoch.toNat }).dropped e.tseq
    | some k =>
      match c.openTu k e with
      | none => ((c.count 0xA00080).raise { ev := .secTagFail }).dropped e.tseq
      | some body => (c.modSec fun s => { s with rxBytes := s.rxBytes + e.len }).tuIn e body

/-! ### TU_DELIVER (R327) -/

/-- Flow of a waiting TU. -/
def rxFlow (t : RxTu) : Nat := flowKey t.sys t.slot t.tc

/-- A TU lies in its slot's receive spill queue: it is read back before it goes on (R116). -/
def Chan.inSpill (c : Chan) (t : RxTu) : Bool :=
  !t.sys && t.buf.isNone && (c.spillQ t.slot t.tc false).objs.any fun o => match o.1 with | .toFabric x => x.firstTseq == t.first | .toLine _ => false

/-- A TU brings control objects, which a stalled sequencer leaves in the line receive path (R265). -/
def Chan.heldBySeq (c : Chan) (t : RxTu) : Bool :=
  !c.seqFree && (decide (t.tc ≠ 2) || t.sys) && ((objectsOf t.body.length t.body).getD []).any fun o => o.1 == 3

/-- A TU may be delivered: it is in a pool buffer, its predecessor has been delivered or resolved, its flow does not wait for a copy, and
the sequencer takes what it brings (R116, R265, R327, R334). -/
def Chan.ready (c : Chan) (t : RxTu) : Bool :=
  let older := c.line.waiting.any fun w => rxFlow w == rxFlow t && tsAfter t.first w.first
  let stopped := !t.sys && c.line.awaited.any fun a => a.slot == t.slot && a.tc == t.tc
  let pred := if t.prev = 0 then true
    else if t.prev = 16383 then
      (c.line.holes.map Hole.tseq ++ c.line.unsure).all fun h => tsAfter h ((t.first + tsMod - 16383) % tsMod)
    else !c.openSeq ((t.first + tsMod - t.prev) % tsMod)
  !older && !stopped && pred && !c.inSpill t && !c.heldBySeq t

/-- One object of a TU goes on: packets and coded packets toward the fabric, control objects to the sequencer (R322). -/
def Chan.objectOut (c : Chan) (t : RxTu) (i : Nat) (x : Nat × List Byte) : Chan :=
  if x.1 = 3 then c.arrive true 0 x.2
  else if t.sys then c
  else c.goOn (.packet t.slot t.tc
    { kind := if x.1 = 2 then .coded else .packet, bytes := x.2, firstTseq := t.first, tseq := t.tseq, idx := i })

/-- TU_DELIVER: the first waiting TU whose turn has come; with `parity` its buffer mismatches, and it is discarded (R110, R327). -/
def Chan.deliverTu (c : Chan) (parity : Bool) : Chan :=
  match c.line.waiting.find? c.ready with
  | none => c
  | some t =>
    let c := c.modLine fun l => { l with waiting := eraseFirst (fun w => decide (w = t)) l.waiting }
    if parity ∧ t.buf.isSome then c.parityOpt t.buf (if t.sys then 0xFF else t.slot)
    else if t.tc = 2 ∧ !t.sys then
      c.goOn (.chunk { msg := c.colMsg (Fin.ofNat 16 t.slot) true 0 t.body, buf := t.buf, first := t.first, tseq := t.tseq })
    else
      let c := c.releaseOpt t.buf
      (((objectsOf t.body.length t.body).getD []).zipIdx).foldl (fun (c : Chan) (p : (Nat × List Byte) × Nat) => c.objectOut t p.2 p.1) c

/-! ### Hole timers (R330, R334) -/

/-- NAK_MAX and the interval of reports in µs. -/
def Chan.nakMax (c : Chan) : Nat := fld (c.reg 0x80000C) 15 12
def Chan.nakGap (c : Chan) : Nat := c.rttUs + fld (c.reg 0x80000C) 11 0

/-- NAK_REPORT_TIMER: holes and awaited copies are reported again, up to NAK_MAX times; a copy that did not come is given up. -/
def Chan.nakTimer (c : Chan) : Chan :=
  if c.line.state ≠ .up then c
  else
    let due (last : Nat) : Bool := decide (last + c.nakGap < c.line.upUs)
    let again := c.line.holes.filter fun h => due h.lastUs && decide (h.reports < c.nakMax)
    let c := again.foldl (fun (c : Chan) h => c.modLine fun l => { l with
      naks := addNak l.naks h.tseq
      holes := l.holes.map fun x => if x.tseq = h.tseq then { x with lastUs := l.upUs, reports := x.reports + 1 } else x }) c
    (c.line.awaited.filter fun a => due a.lastUs).foldl (fun (c : Chan) a =>
      if a.reports < c.nakMax then
        c.modLine fun l => { l with
          naks := addNak l.naks a.tseq
          awaited := l.awaited.map fun x => if x = a then { x with lastUs := l.upUs, reports := x.reports + 1 } else x }
      else c.resumeFlow a none) c

/-- HOLE_WINDOW_EXPIRE: holes older than RTX_WIN of line-up time are resolved as lost (R330). -/
def Chan.holeExpire (c : Chan) : Chan :=
  (c.line.holes.filter fun h => decide (h.foundUs + c.rtxWin < c.line.upUs)).foldl (fun (c : Chan) h => c.lostHole h.tseq) c

/-! ### Relay legs (R314) -/

/-- LINE_AIS from a coordinate that is not a sealed upstream one is discarded (R314). A reserved STATE changes nothing (log entry 161). -/
def Chan.lineAisIn (c : Chan) (src : Coord) (site state : BitVec 8) : Chan :=
  let c := { c with ctrl := { c.ctrl with seqIn := eraseFirst (fun r => decide (r.src = src) && decide (beAt r.bytes 0 2 = 0x0300)) c.ctrl.seqIn } }
  match (List.range 4).find? fun j => decide (c.legCoord 0x800020 j = some src) with
  | none =>
    ((c.count 0x800144).raise { ev := .lineAisDenied, addr := src.toNat }).viol
      { source := .fabric, ch := 0, kind := .inbandRule, addr := c.cfg.coord.toNat, coord := src }
  | some j =>
    let g := vget c.line.legs j
    let put (g : Leg) : Chan := c.modLine fun l => { l with legs := vset l.legs j g }
    if state = 1 then put { g with inAis := true, site := site, lastUs := c.us }
    else if state = 0 then put { g with inAis := false, site := site }
    else c

/-- AIS_LEG_TIMEOUT: 10 ms without a STATE = 1 (R314). -/
def Chan.legTimeout (c : Chan) (j : Nat) : Chan :=
  let g := vget c.line.legs j
  if g.inAis ∧ g.lastUs + 10000 < c.us then c.modLine fun l => { l with legs := vset l.legs j { g with inAis := false } } else c

/-- CAP: the peer's LINE_NET (R267, R320). -/
def Chan.capIn (c : Chan) (net : BitVec 16) : Chan := (c.modSch fun s => { s with peerNet := net.toNat }).setRline

/-! ### The commands -/

def execTuReceive (ch : Fin 8) (s : State) : Out := done (onPath ch Chan.tuReceive s)
def execTuDeliver (ch : Fin 8) (s : State) (parity : Bool := false) : Out := done (onPath ch (fun c => c.deliverTu parity) s)
def execNakReportTimer (ch : Fin 8) (s : State) : Out := done (onPath ch Chan.nakTimer s)
def execHoleWindowExpire (ch : Fin 8) (s : State) : Out := done (onPath ch Chan.holeExpire s)
def execLineAis (ch : Fin 8) (src : Coord) (site state : BitVec 8) (s : State) : Out :=
  done (onPath ch (fun c => c.lineAisIn src site state) s)
def execAisLegTimeout (ch : Fin 8) (leg : Fin 4) (s : State) : Out := done (onPath ch (fun c => c.legTimeout leg) s)
def execCap (ch : Fin 8) (h : SealHdr) (net : BitVec 16) (s : State) : Out :=
  done (onPath ch (fun c => c.onSealed 4 0x01 h fun c => c.capIn net) s)

end Sys2Proof.Machine
end

