-- ==== Sys2Proof/Machine/Tables.lean ====
section
/-! DEFINITION. Tables and their generations: TABLE_WRITE, GEN_SWITCH, TABLE_ABORT, the switch instant, saddle windows, copy-forward (The
Daeno Fabric Port, R84–R92, R98; Cross-Site Collectives, R151, R158; Classes, Scheduling and Policing, R281, R283). -/

namespace Sys2Proof.Machine

open Sys2Proof

/-! ### Entries written -/

/-- Bytes of an entry of a table; 0 for a reserved table (R90). -/
def entrySize (t : Nat) : Nat := lget 0 [8, 16, 32, 128, 32] t

/-- Blocks a slot holds, and its allotted entries (R88). -/
def Chan.blocksOf (c : Chan) (slot : Nat) : Nat := (c.fab.blocks.filter fun b => b.2.1 == slot).length
def Chan.allotted (c : Chan) (slot : Nat) : Nat := 256 * c.blocksOf slot

/-- Indices of a table, for a slot. -/
def Chan.tableLen (c : Chan) (slot t : Nat) : Nat := if t = 1 then c.allotted slot else lget 0 [8, 0, 4096, 1024, 256] t

/-- Check 1 of a TABLE_WRITE (R90). -/
def Chan.tableForm (c : Chan) (slot : Nat) (b : TableBody) : Bool :=
  let t := b.table.toNat
  let n := b.count.toNat
  decide (t ≤ 4) && decide (b.rsvd = 0) && decide (1 ≤ n) && decide (n ≤ 256) && decide (b.entries.length = n * entrySize t)
    && decide (16 + b.entries.length ≤ 8192) && decide (b.index.toNat + n ≤ c.tableLen slot t)

/-- The entries of a write, as bytes. -/
def tableEntries (b : TableBody) : List (List Byte) := pieces (max 1 (entrySize b.table.toNat)) b.entries

/-- The tables with a write carried out in a generation. -/
def Chan.tableApply (c : Chan) (slot : Nat) (g : Bool) (b : TableBody) : Chan :=
  let es := (tableEntries b).zipIdx
  let i0 := b.index.toNat
  let num (n : Nat) (e : List Byte) : BitVec n := BitVec.ofNat n (beNat e)
  match b.table.toNat with
  | 0 => c.modTables g fun t => { t with windows := es.foldl (fun m (e : List Byte × Nat) => cset 0 m (8 * slot + i0 + e.2) (num 64 e.1)) t.windows }
  | 1 => c.modTables g fun t => { t with ranks := es.foldl (fun m (e : List Byte × Nat) =>
      match c.physEntry slot (i0 + e.2) with | some p => cset 0 m p (num 128 e.1) | none => m) t.ranks }
  | 2 => c.modTables g fun t => { t with trees := es.foldl (fun m (e : List Byte × Nat) => cset 0 m (i0 + e.2) (num 256 e.1)) t.trees }
  | 3 => c.modTables g fun t => { t with groups := es.foldl (fun m (e : List Byte × Nat) => cset 0 m (i0 + e.2) (num 1024 e.1)) t.groups }
  | _ => c.modTables g fun t => { t with policers := es.foldl (fun m (e : List Byte × Nat) => cset 0 m (i0 + e.2) (num 256 e.1)) t.policers }

/-! ### Contents (R84, R85, R98, R151, R281) -/

/-- Two runs do not meet. -/
def apart (a n b m : Nat) : Bool := decide (a + n ≤ b) || decide (b + m ≤ a)

/-- The windows of a slot as they would stand (R84). -/
def Chan.windowsOk (c : Chan) (slot : Nat) (g : Bool) : Bool :=
  let ws := (List.range 8).map fun i => cget 0 (c.tables g).windows (8 * slot + i)
  let cnt (w : BitVec 64) : Nat := fld w 62 42
  ws.all (fun w => decide (fld w 21 17 = 0) && decide (fld w 16 0 + cnt w ≤ c.allotted slot)
      && (!bitOf w 63 || (decide (1 ≤ cnt w) && decide (cnt w ≤ 1048576))))
    && (ws.zipIdx).all fun (p : BitVec 64 × Nat) => (ws.zipIdx).all fun (q : BitVec 64 × Nat) =>
      decide (p.2 = q.2) || !bitOf p.1 63 || !bitOf q.1 63
        || (apart (fld p.1 41 22) (cnt p.1) (fld q.1 41 22) (cnt q.1) && apart (fld p.1 16 0) (cnt p.1) (fld q.1 16 0) (cnt q.1))

/-- A rank entry (R85); SITE values 64 to 255 of its COORD are reserved (R48). -/
def rankOk (e : BitVec 128) : Bool :=
  decide (fld e 39 32 < 64) && match fld e 127 126 with
  | 0 => !bitOf e 120
  | 1 => decide (1 ≤ fld e 125 121) && decide (fld e 125 121 ≤ 16) && decide (fld e 119 115 ≤ 3)
  | 2 => decide (fld e 125 121 = 0) && !bitOf e 120 && decide (fld e 119 40 = 0)
  | _ => false

/-- A tree entry in the hands of a slot (R98). -/
def Chan.treeOk (c : Chan) (slot i : Nat) (e : TreeEntry) : Bool :=
  let other (g : Bool) : Bool := match cget? (c.tables g).trees i with | some x => bitOf x 255 && decide (fld x 254 251 ≠ slot) | none => false
  !other false && !other true && decide (fld e 254 251 = slot) && decide (fld e 250 192 = 0)

/-- A group entry (R151, R152). -/
def Chan.groupOk (c : Chan) (slot i : Nat) (e : GroupEntry) : Bool :=
  let other (g : Bool) : Bool := match cget? (c.tables g).groups i with | some x => grpValid x && decide (grpSlot x ≠ slot) | none => false
  let mask := (c.slot slot).body.siteMask
  let n := grpNexcl e
  !other false && !other true && decide (grpSlot e = slot) && decide (fld e (960 + 49) 960 = 0)
    && (List.range 5).all (fun a => decide (grpLo e a ≤ grpHi e a)) && decide (grpHi e 0 ≤ 63)
    && (List.range 64).all (fun s => decide (s < grpLo e 0) || decide (grpHi e 0 < s) || bitOf mask s)
    && decide (n ≤ 16) && (List.range 14).all (fun j => decide (grpByte e (18 + j) = 0))
    && (List.range 16).all fun j => if j < n then decide (grpByte e (32 + 6 * j + 5) < 16) else (List.range 6).all fun b => decide (grpByte e (32 + 6 * j + b) = 0)

/-- A policer entry (R280, R281); `g` is the shadow as it would stand. -/
def Chan.policerOk (c : Chan) (slot i : Nat) (g : Bool) (e : PolicerEntry) : Bool :=
  let other (g : Bool) : Bool := match cget? (c.tables g).policers i with | some x => polValid x && decide (polSlot x ≠ slot) | none => false
  let meets (x : PolicerEntry) : Bool := polValid x && polSlot x == slot && decide (polClasses x &&& polClasses e ≠ 0) && decide (polPorts x &&& polPorts e ≠ 0)
  !other false && !other true && decide (polSlot e = slot) && decide (fld (polWord e 0) 14 8 = 0) && decide (fld (polWord e 1) 31 20 = 0)
    && decide (fld (polWord e 2) 31 20 = 0) && decide (fld (polWord e 3) 31 24 = 0) && decide (fld (polWord e 4) 31 24 = 0)
    && (List.range 3).all (fun j => decide (polWord e (5 + j) = 0)) && decide (polYellow e ≠ 3) && decide (polRed e ≠ 3)
    && (!polValid e || (decide (polClasses e ≠ 0) && decide (polPorts e ≠ 0))) && decide (polCir e ≤ polPir e)
    && decide (8448 ≤ polCbs e) && decide (8448 ≤ polPbs e)
    && (!polValid e || (c.tables g).policers.all fun p => decide (p.1 = i) || !meets p.2)

/-- Check 3 of a TABLE_WRITE: the channel as it would stand goes with the write. -/
def Chan.tableContents (c : Chan) (slot : Nat) (g : Bool) (b : TableBody) : Bool :=
  let d := c.tableApply slot g b
  let es := (tableEntries b).zipIdx
  let i0 := b.index.toNat
  match b.table.toNat with
  | 0 => d.windowsOk slot g
  | 1 => es.all fun (e : List Byte × Nat) => rankOk (BitVec.ofNat 128 (beNat e.1))
  | 2 => es.all fun (e : List Byte × Nat) => c.treeOk slot (i0 + e.2) (BitVec.ofNat 256 (beNat e.1))
  | 3 => es.all fun (e : List Byte × Nat) => c.groupOk slot (i0 + e.2) (BitVec.ofNat 1024 (beNat e.1))
  | _ => es.all fun (e : List Byte × Nat) =>
    d.policerOk slot (i0 + e.2) g (BitVec.ofNat 256 (beNat e.1))

/-- A write into the slot's shadow, or the status that refuses it (R90). -/
def Chan.tryWrite (c : Chan) (slot : Nat) (b : TableBody) : Nat × Chan :=
  let g := !c.genOf slot
  if !c.tableForm slot b then (stBadField, c)
  else if (cget? c.fab.changes slot).isSome then (stBusy, c)
  else if !c.tableContents slot g b then (stBadField, c)
  else (stOk, c.tableApply slot g b)

/-- TABLE_WRITE (R90). -/
def Chan.tableWrite (c : Chan) (env : CtlEnv) (slot : Nat) (b : TableBody) : Chan :=
  let r := c.tryWrite slot b
  r.2.answer 0x0010 env r.1

/-! ### Switching (R91, R158, R283) -/

/-- A generation switch armed, or the status that refuses it (R90, R91). -/
def Chan.armSwitch (c : Chan) (slot : Nat) (b : SwitchBody) : Nat × Chan :=
  match instantOf b.actS b.actNs with
  | none => (stBadField, c)
  | some t =>
    if b.rsvd ≠ 0 ∨ t < c.now + 100000 then (stBadField, c)
    else if !c.fab.changes.isEmpty then (stBusy, c)
    else
      let c := { c with fab := { c.fab with changes := cput c.fab.changes slot (.armed t b.windowUs.toNat) } }
      (stOk, c.arm 1 t)

/-- GEN_SWITCH (R90, R91). -/
def Chan.genSwitch (c : Chan) (env : CtlEnv) (slot : Nat) (b : SwitchBody) : Chan :=
  let r := c.armSwitch slot b
  r.2.answer 0x0011 env r.1

/-- The slot that owns an index of a table by a valid entry in either generation (R98, R151, R281). -/
def indexOwner {α : Type} (valid : α → Bool) (slotOf : α → Nat) (a b : Cells α) (i : Nat) : Option Nat :=
  let own (m : Cells α) : Option Nat := (cget? m i).bind fun e => if valid e then some (slotOf e) else none
  (own a).orElse fun _ => own b

/-- A table with the indices of a slot as they stand in another generation: those that the slot owns, and those that no slot owns whose entry
names the slot. -/
def copyOwned {α : Type} (valid : α → Bool) (slotOf : α → Nat) (slot : Nat) (old new : Cells α) : Cells α :=
  let names (m : Cells α) (i : Nat) : Bool := match cget? m i with | some e => slotOf e == slot | none => false
  let mine (i : Nat) : Bool := match indexOwner valid slotOf old new i with | some k => k == slot | none => names old i || names new i
  (new.filter fun e => mine e.1).foldl (fun m e => cput m e.1 e.2) (old.filter fun e => !mine e.1)

/-- The slot's part of a generation written over the other (R90, R91). -/
def Chan.copyTables (c : Chan) (slot : Nat) (from_ : Bool) : Chan :=
  let src := c.tables from_
  let mineW (k : Nat) : Bool := k / 8 == slot
  let mineR (k : Nat) : Bool := c.fab.blocks.any fun b => b.1 == k / 256 && b.2.1 == slot
  let ovr {α : Type} (mine : Nat → Bool) (old new : Cells α) : Cells α :=
    (new.filter fun e => mine e.1).foldl (fun m e => cput m e.1 e.2) (old.filter fun e => !mine e.1)
  c.modTables (!from_) fun t => { t with
    windows := ovr mineW t.windows src.windows
    ranks := ovr mineR t.ranks src.ranks
    trees := copyOwned (fun (x : TreeEntry) => bitOf x 255) (fun x => fld x 254 251) slot t.trees src.trees
    groups := copyOwned grpValid grpSlot slot t.groups src.groups
    policers := copyOwned polValid polSlot slot t.policers src.policers }

/-- TABLE_ABORT (R90). -/
def Chan.tableAbort (c : Chan) (env : CtlEnv) (slot : Nat) : Chan :=
  match cget? c.fab.changes slot with
  | some (.saddle _) => c.answer 0x0012 env stBusy
  | some .copying => c.answer 0x0012 env stBusy
  | x =>
    let c := if x.isSome then { c.disarm 1 with fab := { c.fab with changes := cdel c.fab.changes slot } } else c
    (c.copyTables slot (c.genOf slot)).answer 0x0012 env stOk

/-- Buckets of a policer index when the slot's generation changes (R283). -/
def Chan.switchBuckets (c : Chan) (slot : Nat) (i : Nat) (new : PolicerEntry) : Chan :=
  let old := cget? (c.tables (c.genOf slot)).policers i
  let was := match old with | some x => polValid x && polSlot x == slot | none => false
  let tc : Int := (8 * polCbs new : Nat)
  let tp : Int := (8 * polPbs new : Nat)
  if !polValid new || polSlot new ≠ slot then c
  else
    let b := cget {} c.sch.pol i
    let b' : Buckets := if was then { tc := min b.tc tc, tp := min b.tp tp } else { tc := tc, tp := tp }
    c.modSch fun s => { s with pol := cput s.pol i b' }

/-- GEN_SWITCH_INSTANT: the shadow becomes current, the saddle window opens, live sets start again, packets held for the switch leave (R91,
R94, R158). -/
def Chan.genInstant (c : Chan) : Chan :=
  if !c.due 1 then c
  else match c.fab.changes.find? fun e => match e.2 with | .armed _ _ => true | _ => false with
  | some (k, .armed _ w) =>
    let c := c.fire 1
    let c := (c.tables (!c.genOf k)).policers.foldl (fun (c : Chan) e => c.switchBuckets k e.1 e.2) c
    let c := { c with fab := { c.fab with
      curGen := putBit c.fab.curGen k (!c.genOf k)
      changes := cput c.fab.changes k (.saddle (c.us + max w (2 * c.rttUs))) } }
    let c := c.modCol fun q => { q with
      comms := q.comms.map fun m => if m.slot = k then
          { m with live := match c.group? k m.body.group.toNat with | some g => grpExcl g | none => [] }
        else m
      ctxs := q.ctxs.map fun e => if e.2.slot = k then (e.1, { e.2 with regen := true }) else e }
    c.resendHeld fun h => h.forGen && decide (h.slot = some k)
  | _ => c

/-- GEN_SADDLE_CLOSE: the copy-forward begins (R91). -/
def Chan.genClose (c : Chan) : Chan :=
  { c with fab := { c.fab with changes := c.fab.changes.map fun e => match e.2 with
    | .saddle t => if t < c.us then (e.1, GenChange.copying) else e
    | _ => e } }

/-- COPY_FORWARD_DONE: the new current generation stands in the other copy too (R91). -/
def Chan.copyDone (c : Chan) : Chan :=
  let go := c.fab.changes.filter fun e => decide (e.2 = .copying)
  go.foldl (fun (c : Chan) e => { c.copyTables e.1 (c.genOf e.1) with fab := { (c.copyTables e.1 (c.genOf e.1)).fab with changes := cdel c.fab.changes e.1 } }) c

/-- The slot's tables invalid in both generations, its switch gone (R57, R281). -/
def Chan.dropTables (c : Chan) (slot : Nat) : Chan :=
  let armed := match cget? c.fab.changes slot with | some (.armed _ _) => true | _ => false
  let c := if armed then c.disarm 1 else c
  let c := { c with fab := { c.fab with changes := cdel c.fab.changes slot } }
  let clear (t : Tables) : Tables := { t with
    windows := t.windows.filter fun e => e.1 / 8 ≠ slot
    trees := t.trees.filter fun e => fld e.2 254 251 ≠ slot
    groups := t.groups.filter fun e => grpSlot e.2 ≠ slot
    policers := t.policers.filter fun e => polSlot e.2 ≠ slot }
  (c.modTables false clear).modTables true clear

/-! ### The commands -/

def execTableWrite (ch : Fin 8) (env : CtlEnv) (b : TableBody) (s : State) : Out :=
  done (onPath ch (fun c => c.onJob 0x0010 env fun k c => c.tableWrite env k b) s)
def execGenSwitch (ch : Fin 8) (env : CtlEnv) (b : SwitchBody) (s : State) : Out :=
  done (onPath ch (fun c => c.onJob 0x0011 env fun k c => c.genSwitch env k b) s)
def execTableAbort (ch : Fin 8) (env : CtlEnv) (s : State) : Out :=
  done (onPath ch (fun c => c.onJob 0x0012 env fun k c => c.tableAbort env k) s)
def execGenSwitchInstant (ch : Fin 8) (s : State) : Out := done (onLive ch Chan.genInstant s)
def execGenSaddleClose (ch : Fin 8) (s : State) : Out := done (onLive ch Chan.genClose s)
def execCopyForwardDone (ch : Fin 8) (s : State) : Out := done (onPath ch Chan.copyDone s)

end Sys2Proof.Machine
end

