-- ==== Sys2Proof/Machine/Jobs.lean ====
section
/-! DEFINITION. Admission, release and steps of jobs (Multi-Site Jobs, R50–R59, R624, R625; Classes, Scheduling and Policing, R266;
Partitions, Drift and Unit Health, R461, R480). -/

namespace Sys2Proof.Machine

open Sys2Proof

/-! ### The job-change queue (R461) -/

/-- Instants in the job-change queue. -/
def Chan.jobInstants (c : Chan) : List Instant :=
  (c.part.epochs.filter fun e => e.2.saddle.isNone).map (fun e => e.2.at_)
    ++ c.part.modes.flatMap fun e => (if e.2.acted then [] else [e.2.at_]) ++ (if e.2.reverted then [] else [e.2.rev])

/-- Trigger slot 2 holds the earliest instant of the queue. -/
def Chan.rearmJobs (c : Chan) : Chan :=
  let t := vget c.time.slots 2
  match c.jobInstants with
  | [] => if t.armed then c.disarm 2 else c
  | x :: xs =>
    let m := xs.foldl min x
    if t.armed && decide (t.at_ = m) then c else c.setSlot 2 { t with at_ := m, armed := true, fired := false }

/-! ### Slots and blocks (R56, R82, R88) -/

/-- A slot is free: neither occupied, nor releasing, nor reserved by an admission that waits for the peer. -/
def Chan.slotFree (c : Chan) (k : Nat) : Bool := decide ((c.slot k).mode = .free) && (c.slot k).pend.isNone

/-- A JOB_ID stands in a slot, or another equal to it in bits 19:0 (R82). -/
def Chan.jobHeld (c : Chan) (job : BitVec 32) : Bool :=
  (List.range 16).any fun k => !c.slotFree k && decide (fld (c.slot k).body.jobId 19 0 = fld job 19 0)

/-- Blocks of rank entries that a body needs (R88). -/
def blocksFor (b : AdmitBody) : Nat := (b.entries.toNat + 255) / 256

/-- The lowest free blocks given to a slot. -/
def Chan.allot (c : Chan) (slot n : Nat) : Chan :=
  let free := ((List.range 512).filter fun p => (cget? c.fab.blocks p).isNone).take n
  { c with fab := { c.fab with blocks := (free.zipIdx).foldl (fun (m : Cells (Nat × Nat)) (e : Nat × Nat) => cput m e.1 (slot, e.2)) c.fab.blocks } }

/-- A slot's blocks returned. -/
def Chan.freeBlocks (c : Chan) (slot : Nat) : Chan :=
  { c with fab := { c.fab with blocks := c.fab.blocks.filter fun b => b.2.1 ≠ slot } }

/-! ### Checks of a JOB_ADMIT (R50–R53, R197, R257) -/

/-- The channel cannot admit: start-up, recovery, a margin test, or no agreed keys (R51, R388). -/
def Chan.notReady (c : Chan) : Bool := decide (c.boot.phase ≠ 7) || decide (c.boot.pst ≠ 0) || c.opt.mtRun.isSome || c.sec.cur.isNone

/-- Sites of a mask. -/
def siteCount (m : BitVec 64) : Nat := ((List.range 64).filter fun s => bitOf m s).length

/-- The fields of a JOB_ADMIT body (R50, R52). -/
def Chan.admitFields (c : Chan) (b : AdmitBody) : Bool :=
  let opts := b.opts.toNat
  let inMask (s : Nat) : Bool := decide (s < 64) && bitOf b.siteMask s
  decide (b.jobId ≠ 0) && (decide (b.slot.toNat < 16) || decide (b.slot = 0xFF)) && decide (b.anchor.toNat < 64) && decide (opts < 16)
    && (decide (b.mode ≠ 2) || decide (opts < 2)) && decide (1 ≤ b.rankCount.toNat) && decide (b.rankCount.toNat ≤ 1048576)
    && decide (b.driftS.toNat ≤ 900) && decide (b.driftSteps.toNat ≤ 1024) && decide (b.profile.toNat < 16)
    && decide (2 ≤ b.sites.toNat) && decide (b.sites.toNat ≤ 64) && decide (siteCount b.siteMask = b.sites.toNat)
    && decide (1 ≤ b.entries.toNat) && decide (b.entries.toNat ≤ 131072) && decide (b.rsvd = 0)
    && inMask c.ownSite && inMask c.peerSite && inMask b.anchor.toNat

/-- The unit checks (R52, R197, R257). -/
def Chan.unitCheck (c : Chan) (mtx : Bool) (opts : BitVec 8) : Nat :=
  if !bitOf opts 3 then stOk
  else if !mtx then stMtxAbsent
  else if c.tilesUp.isEmpty then stMtxUnavailable
  else if c.regionSize 3 = 0 then stTalusAbsent
  else stOk

/-- The checks of R53 in their order: the slot to take, or the status of the first that fails. `job` is the envelope's JOB_ID; `own`: the
request came from this end's fabric, which may name its slot (R624). -/
def Chan.admitCheck (c : Chan) (mtx own : Bool) (job : BitVec 32) (b : AdmitBody) : Except Nat Nat :=
  let free := (List.range 16).filter c.slotFree
  let want := if own && decide (b.slot ≠ 0xFF) then free.filter fun k => k == b.slot.toNat else free
  if c.notReady then .error stNotReady
  else if b.mode ≠ 1 ∧ b.mode ≠ 2 then .error stBadMode
  else if !c.admitFields b || decide (b.jobId ≠ job) then .error stBadField
  else if c.jobHeld b.jobId then .error stDupJob
  else match want with
  | [] => .error stNoSlot
  | k :: _ =>
    if 512 < c.fab.blocks.length + blocksFor b then .error stNoTableSpace
    else
      let u := c.unitCheck mtx b.opts
      if u = stOk then .ok k else .error u

/-! ### Admission (R53–R55, R624) -/

/-- The 40 bytes of a body (R50). -/
def admitBytes (b : AdmitBody) : List Byte :=
  beBytes 4 b.jobId.toNat ++ beBytes 1 b.slot.toNat ++ beBytes 1 b.mode.toNat ++ beBytes 1 b.anchor.toNat ++ beBytes 1 b.opts.toNat
    ++ beBytes 4 b.rankCount.toNat ++ beBytes 2 b.driftS.toNat ++ beBytes 2 b.driftSteps.toNat ++ beBytes 1 b.pepoch.toNat
    ++ beBytes 1 b.profile.toNat ++ beBytes 2 b.sites.toNat ++ beBytes 4 b.firstStep.toNat ++ beBytes 4 b.entries.toNat
    ++ beBytes 4 b.rsvd.toNat ++ beBytes 8 b.siteMask.toNat

/-- The job takes its slot: fields, flow formats, first TUs of its flows without a predecessor, OPEN cairn, stall while the line is down (R59,
R198, R321, R410, R473). -/
def Chan.occupy (c : Chan) (k : Nat) (b : AdmitBody) (owner : Option Coord) (peer : Fin 16) : Chan :=
  let s : Slot := { mode := if b.mode = 2 then .col else .stage, peerSlot := some peer, body := b, opts := b.opts, step := b.firstStep, pepoch := b.pepoch
                    owner := owner, stall := decide (c.line.state ≠ .up) || c.sec.cur.isNone }
  let f := if bitOf b.opts 0 then 1 else 0
  let c := c.modCodec fun d => { d with flows := cset 0 (cset 0 d.flows (4 * k + 1) f) (4 * k + 3) f }
  let c := c.modLine fun l => { l with lastFirst := [0, 1, 2, 3].foldl (fun m j => cdel m (flowKey false k j)) l.lastFirst }
  (c.putSlot k s).slotCairn k 5 0 0 0 (sm3Bytes (admitBytes b))

/-- A relay to the peer over TC0; none while the line is down (R473). All but a STEP_MARK go in system TUs, since their slot may hold no job or one
that is leaving; a STEP_MARK goes in its slot's TC0 flow (log entry 143). -/
def Chan.relayPeer (c : Chan) (bytes : List Byte) : Chan := if c.line.state = .up then c.sysControl bytes else c

/-- Answer to the peer for a JOB_ADMIT that it forwarded. -/
def Chan.answerPeer (c : Chan) (e : CtlEnv) (status : Nat) : Chan :=
  c.relayPeer (envBytes 0x8001 e ++ beBytes 1 status ++ beBytes 1 0)

/-- A reservation given up, with its blocks. -/
def Chan.unreserve (c : Chan) (k : Nat) : Chan := (c.putSlot k {}).freeBlocks k

/-- The turn of a JOB_ADMIT among those that wait, of either side, has come: it stands before all of them, or it comes now and none waits
(R56). -/
def Chan.admitTurn (c : Chan) (peer : Bool) (e : CtlEnv) : Bool :=
  let admits (q : List SeqReq) : List SeqReq := q.filter fun r => decide (beAt r.bytes 0 2 = 1)
  let mine := (if peer then c.ctrl.peerIn else c.ctrl.seqIn).find? fun r =>
    (peer || decide (r.src = e.src)) && decide (r.bytes.take 8 = envBytes 0x0001 e)
  (admits c.ctrl.seqIn ++ admits c.ctrl.peerIn).all fun r => match mine with | some m => decide (m.nr ≤ r.nr) | none => false

/-- JOB_ADMIT from the fabric (R53). -/
def Chan.jobAdmit (c : Chan) (mtx : Bool) (e : CtlEnv) (b : AdmitBody) : Chan :=
  match c.admitCheck mtx true e.job b with
  | .error st => c.answer 0x0001 e st
  | .ok k =>
    let c := c.putSlot k { body := b, pend := some ⟨e, c.us, 2 * c.rttUs + 10000⟩ }
    (c.allot k (blocksFor b)).relayPeer (envBytes 0x0001 e ++ admitBytes b)

/-- The slot that an admission of a JOB_ID reserves while it waits for the peer. -/
def Chan.reserved (c : Chan) (job : BitVec 32) : Option Nat :=
  (List.range 16).find? fun k => (c.slot k).pend.isSome && decide ((c.slot k).body.jobId = job)

/-- Two bodies match in every field but SLOT and TABLE_ENTRIES (R55). -/
def sameAdmit (a b : AdmitBody) : Bool := decide ({ a with slot := 0, entries := 0 } = ({ b with slot := 0, entries := 0 } : AdmitBody))

/-- A forwarded request applied in this end's lowest free slot, and answered (R624). -/
def Chan.applyForwarded (c : Chan) (mtx : Bool) (e : CtlEnv) (b : AdmitBody) (peer : Fin 16) : Chan :=
  match c.admitCheck mtx false e.job b with
  | .error st => c.answerPeer e st
  | .ok k => ((c.allot k (blocksFor b)).occupy k b none peer).answerPeer e stOk

/-- JOB_ADMIT forwarded by the peer; a request of this end's own for the same JOB_ID meets it (R55, R624). -/
def Chan.jobForwarded (c : Chan) (mtx : Bool) (e : CtlEnv) (b : AdmitBody) (peer : Fin 16) : Chan :=
  if !c.seqFree || !c.admitTurn true e then c
  else
    let c := c.takePeer 0x0001 e
    match c.reserved b.jobId with
    | some k =>
      let s := c.slot k
      if sameAdmit s.body b then (c.putSlot k { s with peerSlot := some peer }).answerPeer e stOk
      else if c.ownSite < c.peerSite then c.answerPeer e stDupJob
      else
        let c := match s.pend with | some p => c.answer 0x0001 p.env stDupJob | none => c
        (c.unreserve k).applyForwarded mtx e b peer
    | none => c.applyForwarded mtx e b peer

/-- An admission that timed out has its answer: JOB_ID and REQ_TAG are those of the request that was forwarded (log entry 144). -/
def Chan.isLate (c : Chan) (e : CtlEnv) : Bool := c.ctrl.late.any fun l => l.jobId == e.job && l.tag == e.tag

/-- The first admission of a JOB_ID and REQ_TAG that timed out waits for its answer no longer. -/
def Chan.dropLate (c : Chan) (e : CtlEnv) : Chan :=
  { c with ctrl := { c.ctrl with late := eraseFirst (fun l => l.jobId == e.job && l.tag == e.tag) c.ctrl.late } }

/-- An acceptance after PEER_TIMEOUT: the peer is sent a release (R54). -/
def Chan.releaseLate (c : Chan) (e : CtlEnv) : Chan := (c.dropLate e).relayPeer (envBytes 0x0002 e)

/-- JOB_ADMIT_PEER_ANSWER: the control plane is answered, and the job takes the slot or the slot is free (R51, R54, R624). The answer of an
admission that timed out is told from that of a later one by its REQ_TAG, and comes first where both carry one (log entry 144). -/
def Chan.peerAnswer (c : Chan) (e : CtlEnv) (status : BitVec 8) (peer : Fin 16) : Chan :=
  if !c.seqFree then c
  else
    let c := c.takePeer 0x8001 e
    if c.isLate e then (if status = 0 then c.releaseLate e else c.dropLate e)
    else match c.reserved e.job with
    | none => c
    | some k =>
      let s := c.slot k
      match s.pend with
      | none => c
      | some p =>
        if p.env.tag ≠ e.tag then c
        else if status = 0 then (c.occupy k s.body (some p.env.src) peer).answer 0x0001 p.env stOk
        else (c.unreserve k).answer 0x0001 p.env stPeerRefused status.toNat

/-- PEER_TIMEOUT: 2 × round-trip time + 10 ms without an answer (R54). -/
def Chan.peerTimeout (c : Chan) (k : Nat) : Chan :=
  match (c.slot k).pend with
  | some p =>
    if p.sinceUs + p.waitUs < c.us then
      let job := (c.slot k).body.jobId
      let c := (c.unreserve k).answer 0x0001 p.env stPeerTimeout
      { c with ctrl := { c.ctrl with late := c.ctrl.late ++ [⟨job, p.env.tag⟩] } }
    else c
  | none => c

/-- LATE_PEER_ACCEPT: an acceptance after PEER_TIMEOUT; the peer is sent a release (R54). -/
def Chan.lateAccept (c : Chan) (e : CtlEnv) : Chan :=
  if !c.seqFree || !c.isLate e then c else (c.takePeer 0x8001 e).releaseLate e

/-! ### Release (R57, R156, R218, R266, R281, R479, R625) -/

/-- Objects of a slot dropped, with their buffers. -/
def Chan.dropObjs (c : Chan) (bufs : List (Option Buf)) : Chan := bufs.foldl (fun (c : Chan) b => c.releaseOpt b) c

/-- Every object queued or spilled for a slot, in either direction, is discarded and counted (R266; log entry 157). -/
def Chan.dropQueues (c : Chan) (slot : Nat) : Chan :=
  let flows := (List.range 4).flatMap fun cls => (c.flow slot cls).objs.map LineObj.buf
  let spills := (c.mem.spill.filter fun e => e.1 / 4 == slot).flatMap fun e => e.2.objs.map fun o => match o.1 with
    | .toLine x => x.buf
    | .toFabric x => x.buf
  let packs := c.codec.packQ.filterMap fun j => match j with
    | .object k _ o => if k = slot then some o.buf else none
    | _ => none
  let held := (c.fab.held.filter fun h => decide (h.slot = some slot)).map fun h => h.buf.map fun b => (⟨b.1, b.2⟩ : Buf)
  let fences := c.fab.fences.filter fun f => decide (f.slot = some slot)
  let all := flows ++ spills ++ packs ++ held
  let rx := c.line.waiting.filter fun t => !t.sys && t.slot == slot
  let ofSlot (j : ExpJob) : Bool := match j with | .packet k _ _ => k == slot | .chunk q => q.msg.slot.val == slot
  let exp := c.codec.expQ.filter ofSlot
  let held1 := c.line.awaited.filter fun a => a.slot == slot
  let jobBuf (j : ExpJob) : Option Buf := match j with | .packet _ _ o => o.buf | .chunk q => q.buf
  let all := all ++ (rx.filter fun t => t.buf.isSome).map RxTu.buf ++ exp.map jobBuf ++ held1.flatMap fun a => a.jobs.map jobBuf
  let n := all.length + fences.length
  let c := c.dropObjs all
  let c := c.modSch fun s => { s with flows := s.flows.filter fun e => e.1 / 4 ≠ slot }
  let c := { c with mem := { c.mem with spill := c.mem.spill.filter fun e => e.1 / 4 ≠ slot } }
  let c := c.modCodec fun d => { d with packQ := d.packQ.filter fun j => match j with | .object k _ _ => k ≠ slot | _ => true }
  let c := { c with fab := { c.fab with held := c.fab.held.filter fun h => h.slot ≠ some slot, fences := c.fab.fences.filter fun f => f.slot ≠ some slot } }
  let c := c.modLine fun l => { l with
    waiting := l.waiting.filter fun t => t.sys || t.slot ≠ slot, awaited := l.awaited.filter fun a => a.slot ≠ slot }
  let c := (c.modCodec fun d => { d with expQ := d.expQ.filter fun j => !ofSlot j }).slotWaits slot
  (c.count 0x70004C n).raiseIf (decide (0 < n)) { ev := .schRelDrop, slot := slot, job := (c.slot slot).body.jobId.toNat, value := n }

/-- Drift and armed changes of a slot dropped. -/
def Chan.dropPart (c : Chan) (slot : Nat) : Chan :=
  (c.modPart fun p => { p with
    drifts := cdel p.drifts slot, shards := p.shards.filter fun x => x.slot ≠ slot
    epochs := cdel p.epochs slot, modes := cdel p.modes slot, unarmed := cdel p.unarmed slot }).rearmJobs

/-- An occupied slot is released: its instances end, its communicators close, its tables and queues go, CLOSE is queued, and it stops
taking traffic (R57, R156, R266, R281, R410). -/
def Chan.releaseSlot (c : Chan) (k : Nat) : Chan :=
  let c := (c.col.ctxs.filter fun e => e.2.slot == k && !e.2.ending).foldl (fun (c : Chan) e => c.endInstance e.1 0 false) c
  let c := (c.col.comms.filter fun m => m.slot == k).foldl (fun (c : Chan) m => c.closeComm k m.body.comm.toNat) c
  let c := ((c.freeExtents k none).dropPending fun d => d.msg.slot.val == k)
  let c := c.slotCairn k 6 0 0 0 []
  ((((c.dropTables k).dropQueues k).dropPart k).modCodec fun d => { d with flows := cdel (cdel d.flows (4 * k + 1)) (4 * k + 3) }).putSlot k
    { c.slot k with mode := .releasing, stall := false }

/-- The slot that holds a JOB_ID, one that is releasing included (R625). -/
def Chan.holds (c : Chan) (job : BitVec 32) : Option Nat :=
  (List.range 16).find? fun k => decide ((c.slot k).mode ≠ .free) && decide ((c.slot k).body.jobId = job)

/-- JOB_RELEASE from the fabric (R625). -/
def Chan.jobRelease (c : Chan) (e : CtlEnv) : Chan :=
  match c.holds e.job with
  | none => c.answer 0x0002 e stNoJob
  | some k =>
    if (c.slot k).mode = .releasing then c.answer 0x0002 e stOk
    else ((c.releaseSlot k).answer 0x0002 e stOk).relayPeer (envBytes 0x0002 e)

/-- JOB_RELEASE relayed by the peer (R625). -/
def Chan.releaseRelayed (c : Chan) (e : CtlEnv) : Chan :=
  if !c.seqFree then c
  else
    let c := c.takePeer 0x0002 e
    match c.holds e.job with
    | some k => if (c.slot k).mode = .releasing then c else c.releaseSlot k
    | none => c

/-- Every TU of the job in a slot has been acknowledged or has left its window (R57). -/
def Chan.drained (c : Chan) (k : Nat) : Bool :=
  let job := (c.slot k).body.jobId
  (c.line.rtx.all fun r => r.tu.sys || r.job ≠ job || !tsAfter r.latest c.line.peerRack || !c.inWindow r)
    && c.sch.toCipher.all fun x => match x.tu with | some t => t.sys || t.slot ≠ k | none => true

/-- SLOT_FREE (R57). -/
def Chan.slotFreed (c : Chan) (k : Nat) : Chan :=
  if (c.slot k).mode = .releasing ∧ c.drained k then c.unreserve k else c

/-! ### Steps (R59, R480) -/

/-- The far end's drift limit is reached: the notice is sent once (R480). -/
def Chan.driftLimit (c : Chan) (slot : Nat) (d : Drift) : Chan :=
  if d.limit || !d.far then c
  else
    ((c.modPart fun p => { p with drifts := cput p.drifts slot { d with limit := true } }).raise
      { ev := .partDriftLimit, slot := slot, job := (c.slot slot).body.jobId.toNat, scope := slot }).partNotice slot
        { what := 3, step := (c.slot slot).step.toNat }

/-- DRIFT_STEPS and DRIFT_S of a slot; 0 selects the sealed default (R50, R509). -/
def Chan.driftSteps (c : Chan) (slot : Nat) : Nat :=
  if (c.slot slot).body.driftSteps = 0 then fld (c.reg 0x48) 21 11 else (c.slot slot).body.driftSteps.toNat
def Chan.driftSecs (c : Chan) (slot : Nat) : Nat :=
  if (c.slot slot).body.driftS = 0 then fld (c.reg 0x48) 31 22 else (c.slot slot).body.driftS.toNat

/-- A STEP_MARK that moves the step on counts toward the drift limit (R480). -/
def Chan.acceptStep (c : Chan) (slot : Nat) (s : BitVec 32) : Chan :=
  let c := c.putSlot slot { c.slot slot with step := s }
  match cget? c.part.drifts slot with
  | some d =>
    let d := { d with steps := d.steps + 1 }
    let c := c.modPart fun p => { p with drifts := cput p.drifts slot d }
    if c.driftSteps slot ≤ d.steps then c.driftLimit slot d else c
  | none => c

/-- STEP_MARK from the fabric (R59). -/
def Chan.stepMark (c : Chan) (e : CtlEnv) (slot : Nat) (s : BitVec 32) : Chan :=
  let cur := (c.slot slot).step
  if s = cur then c.answer 0x0003 e stOk
  else if s = cur + 1 then
    let c := (c.acceptStep slot s).answer 0x0003 e stOk
    if c.line.state = .up then
      c.enqueue slot 0 { kind := .control, bytes := envBytes 0x0003 e ++ beBytes 4 s.toNat, step := s, mode := c.tuMode slot }
    else c
  else c.answer 0x0003 e stBadStep

/-- STEP_MARK relayed by the peer: applied to the matching slot, answered nowhere (R59). -/
def Chan.stepRelayed (c : Chan) (e : CtlEnv) (s : BitVec 32) : Chan :=
  if !c.seqFree then c
  else
    let c := c.takePeer 0x0003 e
    match c.holds e.job with
    | some k => if (c.slot k).mode ≠ .releasing ∧ s = (c.slot k).step + 1 then c.acceptStep k s else c
    | none => c

/-! ### The commands -/

def execJobAdmit (ch : Fin 8) (e : CtlEnv) (b : AdmitBody) (s : State) : Out :=
  done (onPath ch (fun c => if c.admitTurn false e then c.onRequest 0x0001 e fun c => c.jobAdmit (s.mtxPresent ch) e b else c) s)
/-- JOB_ADMIT_FORWARDED; `peer` is the slot that the peer reserved (log entry 40). -/
def execJobAdmitForwarded (ch : Fin 8) (e : CtlEnv) (b : AdmitBody) (peer : Fin 16) (s : State) : Out :=
  done (onPath ch (fun c => c.jobForwarded (s.mtxPresent ch) e b peer) s)
/-- JOB_ADMIT_PEER_ANSWER; `peer` is the slot that the peer took (log entry 40). -/
def execJobAdmitPeerAnswer (ch : Fin 8) (e : CtlEnv) (status : BitVec 8) (peer : Fin 16) (s : State) : Out :=
  done (onPath ch (fun c => c.peerAnswer e status peer) s)
def execPeerTimeout (ch : Fin 8) (slot : Fin 16) (s : State) : Out := done (onPath ch (fun c => c.peerTimeout slot) s)
def execLatePeerAccept (ch : Fin 8) (e : CtlEnv) (s : State) : Out := done (onPath ch (fun c => c.lateAccept e) s)
def execJobRelease (ch : Fin 8) (e : CtlEnv) (s : State) : Out :=
  done (onPath ch (fun c => c.onRequest 0x0002 e fun c => c.jobRelease e) s)
def execJobReleaseRelayed (ch : Fin 8) (e : CtlEnv) (s : State) : Out := done (onPath ch (fun c => c.releaseRelayed e) s)
def execSlotFree (ch : Fin 8) (slot : Fin 16) (s : State) : Out := done (onPath ch (fun c => c.slotFreed slot) s)
def execStepMark (ch : Fin 8) (e : CtlEnv) (step : BitVec 32) (s : State) : Out :=
  done (onPath ch (fun c => c.onJob 0x0003 e fun k c => c.stepMark e k step) s)
def execStepMarkRelayed (ch : Fin 8) (e : CtlEnv) (step : BitVec 32) (s : State) : Out :=
  done (onPath ch (fun c => c.stepRelayed e step) s)

end Sys2Proof.Machine
end

