-- ==== Sys2Proof/Machine/Ingress.lean ====
section
/-! DEFINITION. Packets from the fabric: the receive checks and where a packet goes (The Daeno Fabric Port, R67, R81–R83, R87, R92, R93,
R100; Multi-Site Jobs, R47–R49, R58; Staging Pools, R114, R116, R622, R623; Classes, Scheduling and Policing, R261, R263, R265;
Partitions, Drift and Unit Health, R473). -/

namespace Sys2Proof.Machine

open Sys2Proof

/-! ### Control requests at the door of the sequencer (R83) -/

/-- Whether the body of a request has the length its opcode asks for; none for an unknown opcode. A TABLE_ABORT has no body to check (R90). -/
def reqForm (op : Nat) (b : List Byte) : Option Bool :=
  let len (n : Nat) : Option Bool := some (decide (b.length = n))
  match op with
  | 0x0001 => len 40 | 0x0002 => len 0 | 0x0003 => len 4
  | 0x0010 => some (decide (8 ≤ b.length)) | 0x0011 => len 16 | 0x0012 => some true
  | 0x0100 => len (if beAt b 4 1 = 2 then 96 else 32) | 0x0101 => len 4 | 0x0102 => len 24 | 0x0103 => len 8
  | 0x0200 => len 20 | 0x0201 => len 8 | 0x0202 => len 4
  | 0x0300 => len 4 | 0x0501 => len 24
  | 0x0601 => len 16 | 0x0602 => len 24 | 0x0603 => len 4 | 0x0604 => len 0 | 0x0605 => len 12 | 0x0606 => len 8 | 0x0607 => len 8
  | 0x0608 => len 24 | 0x0609 => len 4 | 0x060A => len 0 | 0x060B => len 0
  | _ => none

/-- The request names a job (R83). -/
def namesJob (op : Nat) : Bool :=
  decide (op = 0x0002) || decide (op = 0x0003) || (decide (0x0010 ≤ op) && decide (op ≤ 0x0012))
    || (decide (0x0100 ≤ op) && decide (op < 0x0300)) || (decide (0x0600 ≤ op) && decide (op < 0x0700))

/-- A slot that counts as occupied for a request (R83, R625). -/
def Chan.knows (c : Chan) (op : Nat) (job : BitVec 32) : Bool :=
  match c.holds job with
  | some k => decide (op = 0x0002) || decide ((c.slot k).mode ≠ .releasing)
  | none => false

/-- A control request from a listed coordinate: queued, or answered where its opcode or length is not one that a command takes (R83). -/
def Chan.toSequencer (c : Chan) (src : Coord) (bs : List Byte) : Chan :=
  let op := beAt bs 0 2
  let e : CtlEnv := { src := src, tag := BitVec.ofNat 16 (beAt bs 2 2), job := BitVec.ofNat 32 (beAt bs 4 4) }
  let say (c : Chan) (st : Nat) : Chan :=
    if (0x0100 ≤ op ∧ op ≤ 0x0103) ∨ op = 0x0608 then c.answerCol op e st 0 0xFF else c.answer op e st
  match reqForm op (bs.drop 8) with
  | some true => c.arrive false src bs
  | none => say c stBadField
  | some false =>
    if op = 0x0300 then c
    else if namesJob op && !c.knows op e.job then say c stNoJob
    else if op = 0x0001 ∧ c.notReady then say c stNotReady
    else say c stBadField

/-! ### Discards (R81) -/

/-- A packet discarded by a check: counted and raised with its source. -/
def Chan.discard (c : Chan) (p : Packet) (ev : Ev) (slot : Nat := 0xFF) : Chan :=
  (c.count 0x100060).raise { ev := ev, slot := slot, addr := p.src.toNat }

/-- A packet discarded under the violation rule, its source coordinate logged. -/
def Chan.fabViol (c : Chan) (p : Packet) : Chan :=
  c.viol { source := .fabric, ch := 0, kind := .inbandRule, addr := p.dest.toNat, coord := p.src }

/-- Check 1 of R81; the second component tells of a reserved SITE (R48). -/
def headerBad (p : Packet) : Bool × Bool :=
  let coord := decide (p.kind = 1) || decide (p.kind = 3)
  let site := decide (p.ver = 1) && (decide (64 ≤ siteOf p.src) || (coord && decide (64 ≤ siteOf p.dest)))
  (decide (p.ver ≠ 1) || decide (3 < p.kind.toNat) || decide (16 < p.hops.toNat) || decide (8192 < p.length.toNat) || decide (p.rsvd ≠ 0)
    || (decide (p.kind = 2) && decide (fld p.dest 19 12 ≠ 0)) || site, site)

/-- Check 2: the packet is in transit (R67). -/
def Chan.transit (c : Chan) (p : Packet) : Bool :=
  decide (p.hops ≠ 0) || (decide (p.kind = 1) && decide (p.dest ≠ c.cfg.coord))
    || (decide (p.kind = 3) && decide (p.dest ≠ c.cfg.coord) && decide (siteOf p.dest = c.ownSite))

/-- The blocks of a CODED packet fill it exactly, and its prefix is sound (R87). -/
def codedSound (p : Packet) : Bool :=
  let raw := beAt p.payload 0 2
  let bs := p.payload.drop 8
  decide (8 ≤ p.payload.length) && decide (1 ≤ raw) && decide (raw ≤ 8192) && decide (beAt p.payload 2 6 = 0)
    && (match walkBlocks bs.length bs with
        | some l => decide (l.length = (raw + 4095) / 4096)
        | none => false)

/-! ### Toward the line (R114, R116, R261, R473) -/

/-- Class of a slot's packet on the line (R58, R261). -/
def Chan.lineClass (c : Chan) (slot : Nat) (p : Packet) : Nat := if (c.slot slot).mode = .col then 3 else p.tc.toNat

/-- The object that a RANK packet is on the line (R87, R322). -/
def Chan.lineObj (c : Chan) (slot : Nat) (p : Packet) : LineObj :=
  let base : LineObj := { kind := .packet, bytes := pktBytes p, step := (c.slot slot).step, mode := c.tuMode slot }
  if p.coded then
    let h : Packet := { p with coded := false, length := BitVec.ofNat 14 (beAt p.payload 0 2) }
    { base with kind := .coded, bytes := pktHdr h ++ p.payload.drop 8 }
  else base

/-- A packet kept in the port's edge FIFO; it is noted among those that wait. -/
def Chan.keep (c : Chan) (w : Waiter) : Bool × Chan := (false, c.await w)

/-- A RANK packet that passed its checks goes to its slot's flow, or to the spill queue, or waits (R114, R116, R473). DESIGN CHOICE (log entry
44): one of class TC2 is discarded as FAB_HDR_BAD, since a TC2 TU carries a collective message and nothing else (R322). -/
def Chan.toLine (c : Chan) (port slot : Nat) (p : Packet) : Bool × Chan :=
  let cls := c.lineClass slot p
  if cls = 2 then (true, c.discard p .fabHdrBad slot) else
  let o := c.lineObj slot p
  let n := o.bytes.length
  let bulk := decide (cls = 1) || decide (cls = 3)
  let share : Share := if bulk then .slot slot else .system
  let spill (c : Chan) : Bool × Chan :=
    match c.spillPut slot cls true (.toLine o) with
    | some c => (true, c)
    | none =>
      if c.line.state ≠ .up then (true, (c.count 0x84).raise { ev := .partStallDrop, slot := slot, scope := slot })
      else c.keep (.ingressSpill slot port p.tc.toNat)
  if c.spilling slot cls true then spill c
  else
    let w : Waiter := .ingress share ((poolFor n).getD 3) port p.tc.toNat
    let r := c.alloc share n (some w)
    match r.1 with
    | some b =>
      let o := { o with buf := some b }
      (true, r.2.toPacker slot cls o)
    | none => if bulk then spill r.2 else r.2.keep w

/-- An MCAST packet of a slot: a collective message (R100, R164, R622). -/
def Chan.toContexts (c : Chan) (port slot : Nat) (p : Packet) : Bool × Chan :=
  let m := c.colMsg (Fin.ofNat 16 slot) false p.src (p.payload.drop 8)
  if p.payload.length < 24 then (true, c.stray { msg := m })
  else
    let share := c.colShare slot m.hdr
    let n := 24 + p.payload.length
    let w : Waiter := .ingress share ((poolFor n).getD 3) port p.tc.toNat
    let r := c.alloc share n (some w)
    match r.1 with
    | some b => (true, r.2.goOn (.chunk { msg := m, buf := some b }))
    | none => r.2.keep w

/-- A COORD packet: check 4, and the way to the sequencer (R49, R83, R265, R314). -/
def Chan.coordIn (c : Chan) (port : Nat) (p : Packet) : Bool × Chan :=
  let upstream := (List.range 4).any fun j => decide (c.legCoord 0x800020 j = some p.src)
  let ais := decide (beAt p.payload 0 2 = 0x0300) && decide (8 ≤ p.payload.length)
  if !c.cfg.cpList.contains p.src && !(ais && upstream) then (true, (c.discard p .fabCtrlDenied).fabViol p)
  else if p.payload.length < 8 then (true, c.discard p .fabHdrBad)
  else
    let n := 24 + p.payload.length
    let w : Waiter := .ingress .system ((poolFor n).getD 3) port p.tc.toNat
    let r := c.alloc .system n (some w)
    match r.1 with
    | none => r.2.keep w
    | some b =>
      if !c.seqFree then c.keep w
      else (true, (r.2.release b).toSequencer p.src p.payload)

/-- A NACK packet: into a buffer of the system share until it is handled (R81, R93, R114). -/
def Chan.nackTaken (c : Chan) (port : Nat) (p : Packet) : Bool × Chan :=
  let n := 24 + p.payload.length
  let w : Waiter := .ingress .system ((poolFor n).getD 3) port p.tc.toNat
  let r := c.alloc .system n (some w)
  match r.1 with
  | none => r.2.keep w
  | some b => (true, { r.2 with fab := { r.2.fab with nackIn := r.2.fab.nackIn ++ [(p, b.pool, b.idx)] } })

/-- Checks 5 to 9 of R81 (R47, R82, R87, R92, R100). -/
def Chan.jobPacket (c : Chan) (port : Nat) (p : Packet) : Bool × Chan :=
  match c.slotByTag (jobTag p.dest) false with
  | none => (true, (c.discard p .fabNoJob).nack port 3 p)
  | some k =>
    if p.kind = 0 ∧ (c.slot k).body.rankCount.toNat ≤ rankOf p.dest then (true, (c.discard p .fabRankRange k).fabViol p)
    else if !c.genSaddle k ∧ p.gen ≠ c.genOf k then (true, ((c.discard p .fabGenStale k).count 0x100074).nack port 2 p)
    else if p.kind = 2 then c.toContexts port k p
    else match c.xlate k (c.readGen k p.gen) (rankOf p.dest) with
    | none => (true, (c.discard p .fabNoXlate k).nack port 3 p)
    | some e =>
      if p.coded && (decide (entAction e ≠ 2) || !codedSound p) then (true, c.discard p .fabHdrBad k)
      else if entAction e = 1 then (true, c.discard p .fabLoop k)
      else c.toLine port k p

/-- The checks of R81 in their order. -/
def Chan.ingress (c : Chan) (port : Nat) (p : Packet) (police : Bool) : Bool × Chan :=
  let bad := headerBad p
  if bad.1 then (true, if bad.2 then (c.discard p .fabHdrBad).fabViol p else c.discard p .fabHdrBad)
  else if c.transit p then (true, (c.discard p .fabTransit).fabViol p)
  else
    let r := if police then c.police port p else (true, c)
    if !r.1 then (true, r.2)
    else match p.kind.toNat with
    | 1 => r.2.coordIn port p
    | 3 => r.2.nackTaken port p
    | _ => r.2.jobPacket port p

/-! ### The edge FIFO (R30, R75, R114) -/

/-- The oldest packet of a class at a port, and the flit buffers it frees. -/
def Chan.edgeHead (c : Chan) (port : Nat) (tc : BitVec 2) : Option (Packet × Nat) := (c.port port).rxq.find? fun x => decide (x.1.tc = tc)

/-- The oldest packet of a class leaves the FIFO, and its flit buffers are free. -/
def Chan.edgePop (c : Chan) (port : Nat) (tc : BitVec 2) : Chan :=
  let x := c.port port
  match c.edgeHead port tc with
  | some (_, n) => c.setPort port { freeFlits x tc.toNat n with rxq := eraseFirst (fun y => decide (y.1.tc = tc)) x.rxq }
  | none => c

/-- The class's head waits at ingress: it has been policed, and stays. -/
def Chan.edgeWaits (c : Chan) (port : Nat) (tc : BitVec 2) : Bool :=
  c.mem.waiters.any fun w => match w with
    | .ingress _ _ q t => q == port && t == tc.toNat
    | .ingressSpill _ q t => q == port && t == tc.toNat
    | _ => false

/-- The waiter of a class at a port is served. -/
def Chan.edgeServed (c : Chan) (port : Nat) (tc : BitVec 2) : Chan :=
  { c with mem := { c.mem with waiters := c.mem.waiters.filter fun w => match w with
    | .ingress _ _ q t => !(q == port && t == tc.toNat)
    | .ingressSpill _ q t => !(q == port && t == tc.toNat)
    | _ => true } }

/-- The oldest packet of a class taken through the checks; the policer meters it once. -/
def Chan.edgeTake (c : Chan) (port : Nat) (tc : BitVec 2) : Chan :=
  match c.edgeHead port tc with
  | none => c
  | some (p, _) =>
    let r := c.ingress port p (!c.edgeWaits port tc)
    if r.1 then (r.2.edgePop port tc).edgeServed port tc else r.2

/-- PACKET_RECEIVE: a packet at a port; behind an older packet of its class that waits, it waits too. -/
def Chan.packetReceive (c : Chan) (port : Nat) (p : Packet) : Chan :=
  match c.edgeHead port p.tc with
  | some (q, _) =>
    if q = p then (if c.edgeWaits port p.tc then c else c.edgeTake port p.tc)
    else if (c.port port).rxq.any fun x => decide (x.1 = p) then c
    else c.setPort port { c.port port with rxq := (c.port port).rxq ++ [(p, 0)] }
  | none =>
    (c.setPort port { c.port port with rxq := (c.port port).rxq ++ [(p, 0)] }).edgeTake port p.tc

/-! ### The commands -/

def execPacketReceive (ch : Fin 8) (port : Fin 4) (p : Packet) (s : State) : Out := done (onPath ch (fun c => c.packetReceive port p) s)

end Sys2Proof.Machine
end

