-- ==== Sys2Proof/Machine/Mem.lean ====
section
/-! DEFINITION. The deep buffer: readback of spilled objects, lost lines, retirement and remapping, self-refresh (Staging Pools and Deep
Buffer, R114, R116, R122–R140, R623; Compression and Error Feedback, R221). -/

namespace Sys2Proof.Machine

open Sys2Proof

/-- The deep buffer changed. -/
def Chan.modMem (c : Chan) (f : Mem → Mem) : Chan := { c with mem := f c.mem }

/-! ### Readback (R116, R623) -/

/-- Physical address of a spilled object. -/
def Chan.spillAddr (c : Chan) (cls : Nat) (o : Spilled × Nat × Nat) : Nat := c.regionBase (spillRegion cls) + o.2.1 * segBytes + o.2.2

/-- An object read back goes on: toward the line to the packer, toward the fabric to the TU that waits for its turn. -/
def Chan.readBack (c : Chan) (slot cls : Nat) (o : Spilled) (b : Buf) : Chan :=
  match o with
  | .toLine x => c.toPacker slot cls { x with buf := some b }
  | .toFabric x => c.modLine fun l => { l with
      waiting := l.waiting.map fun t => if !t.sys ∧ t.slot = slot ∧ t.tc = cls ∧ t.first = x.firstTseq then { t with buf := some b } else t }

/-- A line whose second read has not ended, or whose unit is being copied to region 8: its accesses wait (R129, R131). -/
def Chan.lineWaits (c : Chan) (l : Nat) : Bool := c.mem.rereads.contains l || c.mem.copying.any fun p => p.1 == l / 128

/-- SPILL_READBACK: the oldest object of a queue into a buffer under its slot's cap; a first read that fails its check waits for the
second (R116, R129). -/
def Chan.spillBack (c : Chan) (slot cls : Nat) (toLine : Bool) (fail : Option Nat) : Chan :=
  if !c.memUp then c
  else match (c.spillQ slot cls toLine).objs with
  | [] => c
  | o :: _ =>
    let lines := linesOf (c.spillAddr cls o) (spilledBytes o.1)
    let bad := match fail with | some a => if lines.contains (a / 32) then [a / 32] else [] | none => []
    if lines.any c.lineWaits then c
    else if !bad.isEmpty then c.modMem fun m => { m with rereads := m.rereads ++ bad }
    else
      let n := spilledBytes o.1
      let w : Waiter := .spillHead slot cls toLine ((poolFor n).getD 3)
      let r := c.alloc (.slot slot) n (some w)
      match r.1 with
      | none => r.2.await w
      | some b => ((r.2.served w).spillPop slot cls toLine).readBack slot cls o.1 b

/-- A waiter waits on the share offered: one of the slot share whose slot is at its cap is passed over (R623). -/
def Chan.waitsOn (c : Chan) (sel : ShareSel) (pool : Nat) (w : Waiter) : Bool :=
  match sel, waiterShare w with
  | .system, some (.system, p) => p == pool
  | .ctx k, some (.ctx j, p) => p == pool && j == k.val
  | .slots, some (.slot j, p) => p == pool && c.shareRoom p (.slot j)
  | .spill, none => true
  | _, _ => false

/-- ALLOCATION_RETRY: the first waiter of the share takes what came free (R623). -/
def Chan.allocRetry (c : Chan) (sel : ShareSel) (pool : Nat) : Chan :=
  match c.mem.waiters.find? (c.waitsOn sel pool) with
  | some (.ingress sh p port tc) => if c.shareRoom p sh then c.edgeTake port (BitVec.ofNat 2 tc) else c
  | some (.ingressSpill _ port tc) => c.edgeTake port (BitVec.ofNat 2 tc)
  | some (.spillHead slot cls toLine _) => c.spillBack slot cls toLine none
  | some (.packer _ _) => c.pack []
  | some (.operand _ i _) => c.reconFlush i (match c.ctx? i with | some x => x.chunks | none => 0)
  | none => c

/-! ### Lost lines (R129, R124, R221) -/

/-- A spilled object of a class that a line held is lost; one from the line is no longer delivered. -/
def Chan.spillLost (c : Chan) (cls line : Nat) : Chan :=
  (List.range 32).foldl (fun (c : Chan) i =>
    let slot := i / 2
    let toLine := i % 2 == 0
    let q := c.spillQ slot cls toLine
    let hit (o : Spilled × Nat × Nat) : Bool := (linesOf (c.spillAddr cls o) (spilledBytes o.1)).contains line
    let gone := q.objs.filter hit
    if gone.isEmpty then c
    else
      let objs := q.objs.filter fun o => !hit o
      let q := if objs.isEmpty then {} else { q with objs := objs }
      let firsts := gone.filterMap fun o => match o.1 with | .toFabric x => some x.firstTseq | .toLine _ => none
      let c := c.modMem fun m => { m with spill := cset {} m.spill (spillKey slot cls toLine) q }
      let c := c.modLine fun l => { l with waiting := l.waiting.filter fun t => t.sys || t.slot ≠ slot || t.tc ≠ cls || !firsts.contains t.first }
      c.raise { ev := .memSpillLost, slot := slot, addr := 32 * line }) c

/-- A matrix of codes in chunks with the elements of one 32-byte line as +0: chunk `k`, byte offset `o` in it. -/
def zeroLine (fmt k o : Nat) (l : List Nat) : List Nat :=
  let v := max 1 (valuesPerChunk fmt)
  let w := max 1 (elemBytes fmt)
  l.zipIdx.map fun x => if x.2 / v = k ∧ o ≤ x.2 % v * w ∧ x.2 % v * w < o + 32 then 0 else x.1

/-- The bytes of one 32-byte line of a chunk as 0. -/
def zeroBytes (o : Nat) (b : List Byte) : List Byte := b.zipIdx.map fun x => if o ≤ x.2 ∧ x.2 < o + 32 then 0 else x.1

/-- A low-rank instance whose P area, or working Q area, lost a line: the operand's elements are +0 (R253). -/
def lowLost (fmt k o : Nat) (pArea : Bool) (l : LowRank) : LowRank :=
  if pArea then
    { l with phat := l.phat.map (zeroLine fmt k o), ps := if l.phat.isNone then l.ps.map (zeroLine fmt k o) else l.ps
             psum := l.psum.map fun e => if e.1 = k then (e.1, zeroBytes o e.2) else e }
  else { l with q := l.q.map (zeroLine fmt k o), qs := if l.q.isNone then l.qs.map (zeroLine fmt k o) else l.qs }

/-- A talus line lost. A residual's chunk reads zero in both copies (R129, R221); a line of a low-rank instance's M_s, P area or Q area
loses the elements of the line (R253). -/
def Chan.talusLost (c : Chan) (off addr : Nat) : Chan :=
  match c.codec.extents.find? fun e => decide (e.baseMib * 1048576 ≤ off) && decide (off < (e.baseMib + e.sizeMib) * 1048576) with
  | none => c
  | some e =>
    let k := (off - e.baseMib * 1048576) / 4096
    let o := off % 4096 / 32 * 32
    let m := c.comm? e.slot e.comm.toNat
    let fmt := match m with | some m => m.body.fmt.toNat | none => 0
    let codec := match m with | some m => m.body.codec.toNat | none => 0
    let cp := factorChunks fmt codec e.rows e.cols 1
    let cq := factorChunks fmt codec e.rows e.cols 2
    let n := 2 * e.chunks
    let upper := decide (n + cp + cq ≤ k)
    let e' : Extent :=
      if k < n then
        let j := k % max 1 e.chunks
        if e.lowrank ∧ (e.chunks ≤ k) ≠ e.commit then
          match cget? (extWorking e) j with | some b => extPut e j (zeroBytes o b) | none => e
        else { e with lower := cdel e.lower j, upper := cdel e.upper j }
      else if k < n + cp then e
      else if upper then { e with qUpper := zeroLine fmt (k - (n + cp + cq)) o e.qUpper }
      else { e with qLower := zeroLine fmt (k - (n + cp)) o e.qLower }
    let low (x : Ctx) : Ctx :=
      if x.slot ≠ e.slot ∨ x.comm ≠ e.comm ∨ x.shard ≠ e.shard ∨ k < n then x
      else if k < n + cp then { x with lowrank := lowLost fmt (k - n) o true x.lowrank }
      else if upper ≠ e.commit then { x with lowrank := lowLost fmt (k - (n + cp) - (if upper then cq else 0)) o false x.lowrank }
      else x
    let c := c.modCol fun q => { q with ctxs := q.ctxs.map fun y => (y.1, low y.2) }
    (c.putExtent e').raise { ev := .memTalusReset, slot := e.slot, comm := e.comm.toNat, shard := e.shard.toNat, addr := addr }

/-- A line of a mirrored region: the records in it are lost when the other copy failed too (R124, R129). -/
def Chan.mirrorLost (c : Chan) (r off addr : Nat) (mirrorOk : Bool) : Chan :=
  if mirrorOk then c.raise { ev := .memMirrorFixed, addr := addr }
  else
    let o := mirrorHome (c.regionSize r) off
    let c := c.raise { ev := .memMirrorLost, addr := addr }
    match c.mirrorRec r (if r = 5 then 128 else 256) o with
    | none => c
    | some k =>
      if r = 5 then c.modProv fun p => { p with store := cdel p.store k }
      else { c with evr := { c.evr with hist := cdel c.evr.hist k } }

/-- The unit that a unit of region 8 stands for; any other unit itself (R131). -/
def Chan.homeUnit (c : Chan) (u : Nat) : Nat := match c.mem.retired.find? fun r => decide (r.repl = some u) with | some r => r.unit | none => u

/-- The unit that accesses to a unit go to (R131). -/
def Chan.physUnit (c : Chan) (u : Nat) : Nat := ((c.mem.retired.find? fun r => r.unit == u).bind Retired.repl).getD u

/-- The address whose data a physical address holds (R131). -/
def Chan.homeAddr (c : Chan) (a : Nat) : Nat := c.homeUnit (a / 4096) * 4096 + a % 4096

/-- A line is lost: what its region loses (R129, R131). -/
def Chan.lineLost (c : Chan) (phys : Nat) (mirrorOk : Bool) : Chan :=
  let addr := c.homeAddr phys
  let line := addr / 32
  match c.regionOf addr with
  | some (0, off) =>
    let hit (r : RtxRec) : Bool := decide (r.pos ≤ off / 32 * 32 + 31) && decide (off / 32 * 32 < r.pos + r.size)
    let c := c.raiseIf (c.line.rtx.any hit) { ev := .memRtxLost, addr := addr }
    let asked := c.line.rtx.filter fun r => hit r && r.queued
    let isAsked (f : Nat) : Bool := asked.any fun r => r.first == f
    let c := c.modLine fun l => { l with
      rtx := l.rtx.map fun r => if hit r then { r with lost := true, queued := false } else r
      gone := asked.foldl (fun g r => addGone g r.latest) l.gone }
    c.modSch fun s => { s with
      resends := s.resends.filter fun q => !isAsked q.2
      toCipher := s.toCipher.filter fun x => match x.resend with | some f => !isAsked f | none => true }
  | some (1, _) => c.spillLost 1 line
  | some (2, _) => c.spillLost 3 line
  | some (3, off) => c.talusLost off addr
  | some (4, off) =>
    match c.part.ledgers.find? fun l => decide (l.baseMib * 1048576 ≤ off) && decide (off < (l.baseMib + l.sizeMib) * 1048576) with
    | some l => (c.putLedger { l with lost := true }).raise
        { ev := .memLedgerLost, slot := l.slot, comm := l.comm.toNat, shard := l.shard.toNat, addr := addr }
    | none => c
  | some (5, off) => c.mirrorLost 5 off addr mirrorOk
  | some (6, off) => c.mirrorLost 6 off addr mirrorOk
  | some (7, _) => (c.modMem fun m => { m with lost := if m.lost.contains line then m.lost else m.lost ++ [line] }).raise
      { ev := .memStageLost, addr := addr }
  | _ => c

/-- MEM_REREAD_DONE: the second read of a line passes, or the line is lost and its unit is tested (R129, R130). -/
def Chan.rereadDone (c : Chan) (addr : Nat) (ok mirrorOk : Bool) : Chan :=
  let c := c.modMem fun m => { m with rereads := m.rereads.filter fun l => l ≠ addr / 32 }
  if ok then (c.count 0x300044).raise { ev := .memRereadOk, addr := addr }
  else
    let c := ((c.count 0x300040).modMem fun m => { m with lastErr := addr }).raise { ev := .memCheckFail, addr := addr }
    let u := c.physUnit (addr / 4096)
    (c.lineLost addr mirrorOk).modMem fun m => { m with testing := if m.testing.contains u then m.testing else m.testing ++ [u] }

/-! ### Retired units (R130–R132) -/

/-- First unit of region 8, and units in it. -/
def Chan.reserveUnits (c : Chan) : Nat × Nat := (c.regionBase 8 / 4096, c.regionSize 8 / 4096)

/-- The lowest unit of region 8 that replaces none and has not failed (log entry 155). -/
def Chan.spareUnit (c : Chan) : Option Nat :=
  let r := c.reserveUnits
  let used := (c.mem.retired.filterMap Retired.repl) ++ (c.mem.copying.map Prod.snd) ++ c.mem.worn
  if 16384 ≤ (c.mem.retired.filterMap Retired.repl).length + c.mem.copying.length then none
  else (((List.range (used.length + 1)).map fun i => r.1 + i).find? fun u => !used.contains u).bind fun u => if u < r.1 + r.2 then some u else none

/-- A unit's entry of the remap table: one for each retired unit (R131, R150). -/
def Chan.putRetired (c : Chan) (u : Nat) (r : Option Nat) : Chan :=
  c.modMem fun m => { m with retired := m.retired.filter (fun x => x.unit ≠ u) ++ [⟨u, r⟩] }

/-- A unit is retired: its copy to region 8 begins, or it has no replacement. A unit of region 8 that fails is used no more, and the unit
that it stood for is moved on (R130–R132). -/
def Chan.retire (c : Chan) (unit : Nat) : Chan :=
  let home := c.homeUnit unit
  let c := if home = unit then c else c.modMem fun m => { m with worn := m.worn ++ [unit] }
  match c.spareUnit with
  | some r => c.modMem fun m => { m with copying := m.copying ++ [(home, r)] }
  | none => (c.putRetired home none).raise { ev := .memRemapFull, addr := unit * 4096 }

/-- UNIT_PATTERN_TEST_DONE: a unit that fails is retired (R130). One retired without a replacement stays as it is. -/
def Chan.patternDone (c : Chan) (unit : Nat) (pass : Bool) : Chan :=
  if !c.mem.testing.contains unit then c
  else
    let c := c.modMem fun m => { m with testing := m.testing.filter fun u => u ≠ unit }
    if pass || (c.mem.retired.any fun r => r.unit == unit) || (c.mem.copying.any fun p => p.1 == unit) then c
    else (c.raise { ev := .memUnitRetired, addr := unit * 4096 }).retire unit

/-- UNIT_REMAP_COPY_DONE: the lines that fail their check in the copy are lost, and the remap table sends the unit's accesses to its
replacement (R131). -/
def Chan.remapDone (c : Chan) (unit : Nat) (failed : List (Fin 128)) : Chan :=
  match c.mem.copying.find? fun p => p.1 == unit with
  | some p =>
    let c := failed.foldl (fun (c : Chan) i => c.lineLost (unit * 4096 + 32 * i.val) false) c
    (c.modMem fun m => { m with copying := m.copying.filter fun q => q.1 ≠ unit }).putRetired unit (some p.2)
  | none => c

/-! ### Self-refresh (R135–R140) -/

/-- The region metadata as it would be written now: ring pointers of the store of sent TUs, the provenance store and the event history,
and the retired units (R135). -/
def Chan.metaNow (c : Chan) : RegionMeta :=
  { rtxPos := c.line.ringPos, provWr := c.prov.wr, histWr := c.evr.histWr, retired := c.mem.retired }

/-- The packages go into self-refresh, with the metadata and CLEAN written last, or without them (R135, R136). -/
def Chan.refresh (c : Chan) (clean : Bool) : Chan :=
  c.modMem fun m => { m with phase := .selfRefresh, clean := clean, regMeta := if clean then some c.metaNow else m.regMeta }

/-- SELF_REFRESH_ENTRY: asked for by recovery, or by the deep state once the spill queues are empty; `drained`: steps 3 and 4 are
complete (R135, R137). -/
def Chan.refreshEntry (c : Chan) (deep drained : Bool) : Chan :=
  match c.mem.phase with
  | .up =>
    if deep && !c.mem.spill.isEmpty then c
    else if drained then c.refresh true else c.modMem fun m => { m with phase := .entering c.us }
  | .entering _ => if drained then c.refresh true else c
  | _ => c

/-- SELF_REFRESH_ENTRY_TIMEOUT: 200 µs after step 1, without CLEAN (R136). -/
def Chan.refreshTimeout (c : Chan) : Chan :=
  match c.mem.phase with
  | .entering t => if t + 200 < c.us then c.refresh false else c
  | _ => c

/-- The spill regions are reset; what they held is lost in flight (R138). -/
def Chan.resetSpill (c : Chan) : Chan :=
  (c.modMem fun m => { m with spill := [], waiters := m.waiters.filter fun w => match w with | .spillHead _ _ _ _ => false | _ => true }).modLine
    fun l => { l with waiting := l.waiting.filter fun t => t.sys || t.buf.isSome || t.tc = 0 || t.tc = 2 }

/-- The deep buffer is released to the data path (R138 step 5). -/
def Chan.memRelease (c : Chan) : Chan := c.resetSpill.modMem fun m => { m with phase := .up, clean := false, unclean := false }

/-- Region metadata read and checked: without CLEAN the retained regions are scrubbed first (R138 steps 3 and 4). -/
def Chan.memMeta (c : Chan) : Chan :=
  if c.mem.clean then c.memRelease else c.modMem fun m => { m with phase := .scrubbing, unclean := true }

/-- SELF_REFRESH_EXIT: the LPDDR6 channels in `up` have retrained from saved values; unless all have, full training begins (R138, R139). -/
def Chan.refreshExit (c : Chan) (up : BitVec 16) : Chan :=
  if c.mem.phase ≠ .selfRefresh then c
  else
    let c := c.modMem fun m => { m with chUp := up }
    if up = BitVec.allOnes 16 then c.memMeta else c.modMem fun m => { m with phase := .fullTraining }

/-- SCRUB_DONE (R140). -/
def Chan.scrubDone (c : Chan) : Chan := if c.mem.phase = .scrubbing then c.memRelease else c

/-! ### The commands -/

def execAllocationRetry (ch : Fin 8) (sel : ShareSel) (pool : Fin 4) (s : State) : Out := done (onPath ch (fun c => c.allocRetry sel pool) s)
/-- SPILL_READBACK of a queue of class TC1 or, with `bulk`, TC3; `fail` is the address of a line whose first read fails its check. -/
def execSpillReadback (ch : Fin 8) (slot : Fin 16) (bulk toLine : Bool) (fail : Option (BitVec 37)) (s : State) : Out :=
  done (onPath ch (fun c => c.spillBack slot (if bulk then 3 else 1) toLine (fail.map BitVec.toNat)) s)
/-- MEM_REREAD_DONE; `mirrorOk`: the other copy of a mirrored region passes its check. -/
def execMemRereadDone (ch : Fin 8) (addr : BitVec 37) (ok mirrorOk : Bool) (s : State) : Out :=
  done (onChan ch (fun c => c.rereadDone addr.toNat ok mirrorOk) s)
def execUnitPatternTestDone (ch : Fin 8) (unit : BitVec 25) (pass : Bool) (s : State) : Out :=
  done (onChan ch (fun c => c.patternDone unit.toNat pass) s)
/-- UNIT_REMAP_COPY_DONE; `failed`: the lines of the unit that fail their check in the copy. -/
def execUnitRemapCopyDone (ch : Fin 8) (unit : BitVec 25) (s : State) (failed : List (Fin 128) := []) : Out :=
  done (onChan ch (fun c => c.remapDone unit.toNat failed) s)
def execSelfRefreshEntry (ch : Fin 8) (deep drained : Bool) (s : State) : Out := done (onChan ch (fun c => c.refreshEntry deep drained) s)
def execSelfRefreshEntryTimeout (ch : Fin 8) (s : State) : Out := done (onChan ch Chan.refreshTimeout s)
def execSelfRefreshExit (ch : Fin 8) (up : BitVec 16) (s : State) : Out := done (onChan ch (fun c => c.refreshExit up) s)
def execScrubDone (ch : Fin 8) (s : State) : Out := done (onChan ch Chan.scrubDone s)

end Sys2Proof.Machine
end

