-- ==== Sys2Proof/Machine/Part.lean ====
section
/-! DEFINITION. Ledgers, drift offers and their outcome, placement epochs, mode changes, state packages, the sequencer's mailbox
(Partitions, Drift and Unit Health, R461, R470–R496, R507, R508; Module Architecture, R26). -/

namespace Sys2Proof.Machine

open Sys2Proof

def stReloadPending : Nat := 0xA1
def stNoLedger : Nat := 0xA2
def stModeLate : Nat := 0xA3
def stReconciling : Nat := 0xA4
def stSeqNotLater : Nat := 0xA5

/-! ### Ledgers (R479, R481) -/

/-- MiB of a ledger extent (R479). -/
def ledgerMib (fmt chunks : Nat) : Nat := mibOf (chunks * valuesPerChunk fmt * 4)

/-- The runs of the ledger region that are not free: its extents, and what R132 shuts out. -/
def Chan.ledgerRuns (c : Chan) : List (Nat × Nat) := c.runsOf 4 (c.part.ledgers.map fun l => (l.baseMib, l.sizeMib))

/-- Ledger extents placed one after another; none when one of them finds no place. -/
def Chan.placeLedgers (c : Chan) (slot fmt : Nat) (b : LedgerBody) : List Nat → Option Chan
  | [] => some c
  | s :: rest =>
    let size := ledgerMib fmt b.chunks.toNat
    match lowestFree (c.part.ledgers.map Ledger.idx) 4096,
      firstFit c.ledgerRuns (c.regionMib 4) size with
    | some i, some p =>
      let l : Ledger := { idx := i, slot := slot, comm := b.comm, shard := BitVec.ofNat 16 s, baseMib := p, sizeMib := size, chunks := b.chunks.toNat }
      (c.modPart fun q => { q with ledgers := q.ledgers ++ [l] }).placeLedgers slot fmt b rest
    | _, _ => none

/-- LEDGER_BIND (R479). -/
def Chan.ledgerBind (c : Chan) (e : CtlEnv) (slot : Nat) (b : LedgerBody) : Chan :=
  let op := 0x0605
  match c.comm? slot b.comm.toNat with
  | none => c.answer op e stBadField
  | some m =>
    let shards := (List.range b.cnt.toNat).map fun i => b.lo.toNat + i
    let differs := shards.any fun s => match c.ledger? slot b.comm.toNat s with | some l => decide (l.chunks ≠ b.chunks.toNat) | none => false
    if decide (m.body.algo ≠ 1) || !shardRange b.lo.toNat b.cnt.toNat || decide (b.rsvd ≠ 0) || decide (b.chunks.toNat = 0)
        || decide (16777215 < b.chunks.toNat) || differs then c.answer op e stBadField
    else if c.commBusy slot b.comm.toNat then c.answer op e stBusy
    else
      let new := shards.filter fun s => (c.ledger? slot b.comm.toNat s).isNone
      match if c.regionSize 4 = 0 then none else c.placeLedgers slot m.body.fmt.toNat b new with
      | some c => c.answer op e stOk
      | none => c.answer op e stNoLedger

/-- LEDGER_UNBIND (R479). -/
def Chan.ledgerUnbind (c : Chan) (e : CtlEnv) (slot : Nat) (b : UnbindBody) : Chan :=
  let op := 0x0606
  if (c.comm? slot b.comm.toNat).isNone || !shardRange b.lo.toNat b.cnt.toNat || decide (b.rsvd ≠ 0) then c.answer op e stBadField
  else if c.part.shards.any fun x => x.slot == slot && inShards b x.comm x.shard then c.answer op e stReconciling
  else (c.modPart fun p => { p with ledgers := p.ledgers.filter fun l => !(l.slot == slot && inShards b l.comm l.shard) }).answer op e stOk

/-- PART_DROP_DRIFT (R481). -/
def Chan.dropDrift (c : Chan) (e : CtlEnv) (slot : Nat) : Chan :=
  (c.modPart fun p => { p with
    drifts := cdel p.drifts slot
    shards := p.shards.filter fun x => x.slot ≠ slot
    ledgers := p.ledgers.map fun l => if l.slot = slot then { l with sums := [], n := 0, lost := false } else l }).answer 0x060A e stOk

/-- DRIFT_TIME_LIMIT: DRIFT_S since a far end's entry (R480). -/
def Chan.driftTime (c : Chan) : Chan :=
  c.part.drifts.foldl (fun (c : Chan) d => if d.2.sinceMs + 1000 * c.driftSecs d.1 < c.ms then c.driftLimit d.1 d.2 else c) c

/-! ### Offers (R482–R484, R488) -/

/-- LEDGER, LIMIT and ANCHOR of an offer. -/
def offLedger (o : OfferBody) : Bool := bitOf o.flags 0
def offLimit (o : OfferBody) : Bool := bitOf o.flags 1
def offAnchor (o : OfferBody) : Bool := bitOf o.flags 2

/-- The ACTION of a pair of offers (R483). -/
def chooseAction (a b : OfferBody) : Action :=
  let far := if offAnchor a then b else a
  if offLedger a && offLedger b then (if offLimit far then .anchor else .merge) else .reload

/-- A shard with both offers has its ACTION (R483). -/
def withAction (x : DriftShard) : DriftShard :=
  match x.mine, x.peer, x.action with
  | some a, some b, none => { x with action := some (chooseAction a b) }
  | _, _, _ => x

/-- Shards of a communicator in drift. -/
def Chan.driftOf (c : Chan) (slot : Nat) (comm : BitVec 16) : List DriftShard :=
  c.part.shards.filter fun x => x.slot == slot && decide (x.comm = comm)

/-- Every offer of a communicator has been exchanged: own ones acknowledged, and as many of the peer's received as it counts (R484). -/
def Chan.exchanged (c : Chan) (slot : Nat) (comm : BitVec 16) : Bool :=
  let xs := c.driftOf slot comm
  !xs.isEmpty && xs.all fun x => x.acked && (match x.peer with | some o => decide (o.count.toNat ≤ xs.length) | none => false)

/-- The later of two numbers modulo 2³². -/
def laterOf (a b : BitVec 32) : BitVec 32 := if seqLater b.toNat a.toNat then b else a

/-- What the exchange of a communicator's offers leads to: S, RECON_NEEDED for each shard, and at the anchor end the RELOAD shards leave
drift (R484, R488). -/
def Chan.settle (c : Chan) (slot : Nat) (comm : BitVec 16) : Chan :=
  match c.comm? slot comm.toNat with
  | none => c
  | some m =>
    let xs := c.driftOf slot comm
    let s := xs.foldl (fun (s : BitVec 32) x =>
      let a := match x.mine with | some o => laterOf s o.lastSeq | none => s
      match x.peer with | some o => laterOf a o.lastSeq | none => a) m.lastSeq
    let c := c.putComm { m with lastSeq := s }
    let c := xs.foldl (fun (c : Chan) x =>
      c.partNotice slot { what := 4, action := actionCode x.action, comm := some comm.toNat, shard := x.shard.toNat, seq := s.toNat
                          step := (c.slot slot).step.toNat }) c
    if commAnchor m then (xs.filter fun x => decide (x.action = some .reload)).foldl (fun (c : Chan) x => c.leaveDrift x) c else c

/-- A change of the offers of a communicator; the exchange is settled once it is complete. -/
def Chan.withOffers (c : Chan) (slot : Nat) (comm : BitVec 16) (f : Chan → Chan) : Chan :=
  let before := c.exchanged slot comm
  let c := f c
  if !before && c.exchanged slot comm then c.settle slot comm else c

/-- DRIFT_OFFER: acknowledged, answered with an offer of this end's own where it made none, and the ACTION fixed (R482, R483, R489). -/
def Chan.driftOffer (c : Chan) (o : OfferBody) : Chan :=
  match c.holds o.job with
  | none => c
  | some k =>
    match c.comm? k o.comm.toNat with
    | none => c
    | some m =>
      let c := c.sendHlth 0x11 (beBytes 4 o.job.toNat ++ beBytes 2 o.comm.toNat ++ beBytes 2 o.shard.toNat)
      c.withOffers k o.comm fun c =>
        let d : Drift := match cget? c.part.drifts k with
          | some d => d
          | none => { sinceMs := c.ms, far := decide (m.body.role = 2) }
        let c := c.modPart fun p => { p with drifts := cput p.drifts k { d with step := some (laterOf (laterOf (d.step.getD (c.slot k).step) (c.slot k).step) o.step) } }
        let c := c.noteShard k o.comm o.shard
        match c.driftShard k o.comm.toNat o.shard.toNat with
        | none => c
        | some x =>
          let c := if x.mine.isNone then c.sendOffer x else c
          match c.driftShard k o.comm.toNat o.shard.toNat with
          | some x => if x.peer.isSome then c else c.putShard (withAction { x with peer := some o })
          | none => c

/-- DRIFT_ACK (R482). -/
def Chan.driftAck (c : Chan) (job : BitVec 32) (comm shard : BitVec 16) : Chan :=
  match c.holds job with
  | none => c
  | some k => c.withOffers k comm fun c =>
    match c.driftShard k comm.toNat shard.toNat with
    | some x => c.putShard { x with acked := true }
    | none => c

/-- DRIFT_OFFER_REPEAT: every 5 ms until the acknowledgement (R482). -/
def Chan.offerRepeat (c : Chan) : Chan :=
  if c.line.state ≠ .up then c
  else (c.part.shards.filter fun x => x.mine.isSome && !x.acked && decide (x.sentUs + 5000 < c.us)).foldl (fun (c : Chan) x => c.sendOffer x) c

/-- PART_SEQ (R484). -/
def Chan.partSeq (c : Chan) (e : CtlEnv) (slot : Nat) (comm rsvd : BitVec 16) (seq : BitVec 32) : Chan :=
  let op := 0x0607
  match c.comm? slot comm.toNat with
  | none => c.answer op e stBadField
  | some m =>
    if rsvd ≠ 0 then c.answer op e stBadField
    else if c.commBusy slot comm.toNat then c.answer op e stBusy
    else if !seqLater seq.toNat m.lastSeq.toNat then c.answer op e stSeqNotLater
    else (c.putComm { m with lastSeq := seq }).answer op e stOk

/-- PART_RELOADED: a shard that awaits it leaves drift at the far end (R488). -/
def Chan.partReloaded (c : Chan) (e : CtlEnv) (slot : Nat) (comm shard : BitVec 16) : Chan :=
  let op := 0x0609
  match c.comm? slot comm.toNat, c.driftShard slot comm.toNat shard.toNat with
  | some _, some x => if x.action = some .reload then (c.leaveDrift x).answer op e stOk else c.answer op e stBadField
  | _, _ => c.answer op e stBadField

/-- RECON_START (R485). -/
def Chan.reconStart (c : Chan) (e : CtlEnv) (slot : Nat) (b : StartBody) : Chan :=
  c.startWith slot b true fun c st res i => c.answerCol 0x0608 e st res i

/-! ### Placement epochs (R60, R63, R64, R491, R492) -/

/-- Saddle window of a change, ns. -/
def Chan.windowNs (c : Chan) (us : Nat) : Nat := max (us * 1000) (2 * c.rttNs)

/-- Two intervals share an instant (R64). -/
def Chan.overlap (c : Chan) (a : Instant) (wa : Nat) (b : Instant) (wb : Nat) : Bool :=
  decide (a ≤ b + c.windowNs wb) && decide (b ≤ a + c.windowNs wa)

/-- A mode change that keeps its kind busy: armed, in its window, or with its REV to come (log entry 151). -/
def modeBusy (m : ModeChange) : Bool := !m.reverted || m.saddle.isSome

/-- Instants of the intervals of a mode change that are armed or open: of ACT until its window has closed, and of REV while its window is open, or
once the slot is to return to its old mode there (R64, R496). A change that was missed at ACT has none. -/
def modeIntervals (m : ModeChange) : List Instant :=
  (if !m.acted || (m.applied && !m.reverted && m.saddle.isSome) then [m.at_] else [])
    ++ (if (m.reverted && m.saddle.isSome) || (m.applied && !m.reverted && (m.missed || m.revert)) then [m.rev] else [])

/-- PART_EPOCH (R491). -/
def Chan.partEpoch (c : Chan) (e : CtlEnv) (slot : Nat) (b : EpochBody) : Chan :=
  let op := 0x0601
  if b.pepoch ≠ (c.slot slot).pepoch + 1 then c.answer op e stBadEpoch
  else match instantOf b.actS b.actNs with
  | none => c.answer op e stBadField
  | some t =>
    let meets := match cget? c.part.modes slot with
      | some m => (modeIntervals m).any fun i => c.overlap t b.windowUs.toNat i m.windowUs
      | none => false
    if b.rsvd1 ≠ 0 ∨ b.rsvd14 ≠ 0 ∨ t < c.now + 100000 then c.answer op e stBadField
    else if (cget? c.part.epochs slot).isSome || meets then c.answer op e stBusy
    else ((c.modPart fun p => { p with epochs := cput p.epochs slot { to_ := b.pepoch, at_ := t, windowUs := b.windowUs.toNat } }).rearmJobs).answer op e stOk

/-- An entry of the job-change queue fires: its instant has come, it is the earliest of the queue, and no lower slot waits at that instant
(R458, R460, R461). -/
def Chan.jobDue (c : Chan) (t : Instant) : Bool := decide (t ≤ c.now) && c.jobInstants.all (fun x => decide (t ≤ x)) && c.turn 2 t

/-- The queue's head fires: slot 2 fires, and holds the next instant (R461). -/
def Chan.fireJobs (c : Chan) : Chan := if (vget c.time.slots 2).armed then c.fire 2 else c

/-- EPOCH_INSTANT: the slot's epoch advances and its window opens (R491). -/
def Chan.epochInstant (c : Chan) : Chan :=
  match c.part.epochs.find? fun e => e.2.saddle.isNone && c.jobDue e.2.at_ with
  | none => c
  | some (k, x) =>
    let c := (c.putSlot k { c.slot k with pepoch := x.to_ }).fireJobs
    (c.modPart fun p => { p with epochs := cput p.epochs k { x with saddle := some (c.us + max x.windowUs (2 * c.rttUs)) } }).rearmJobs

/-- Instances of the previous epoch end with ORPHANED, and a STALE notice names each (R492). -/
def Chan.orphanEpoch (c : Chan) (slot : Nat) : Chan :=
  let e := (c.slot slot).pepoch
  (c.col.ctxs.filter fun x => x.2.slot == slot && !x.2.ending && decide (x.2.pepoch ≠ e)).foldl (fun (c : Chan) x =>
    (c.endInstance x.1 0x16).partNotice slot { what := 7, comm := some x.2.comm.toNat, shard := x.2.shard.toNat, seq := x.2.seq.toNat
                                               step := x.2.step.toNat }) c

/-- EPOCH_SADDLE_CLOSE (R492). -/
def Chan.epochClose (c : Chan) : Chan :=
  (c.part.epochs.filter fun e => match e.2.saddle with | some t => decide (t < c.us) | none => false).foldl (fun (c : Chan) e =>
    (c.orphanEpoch e.1).modPart fun p => { p with epochs := cdel p.epochs e.1 }) c

/-! ### Mode changes (R493–R496) -/

/-- PART_MODE (R493); `mtx`: the channel has a matrix engine. -/
def Chan.partMode (c : Chan) (mtx : Bool) (e : CtlEnv) (slot : Nat) (b : ModeBody) : Chan :=
  let s := c.slot slot
  let refuse (st : Nat) : Chan := (c.partNotice slot { what := 6 }).answer 0x0602 e st
  match instantOf b.actS b.actNs, instantOf b.revS b.revNs with
  | some t, some r =>
    let cur := if s.mode = .col then 2 else 1
    let w := b.windowUs.toNat
    let opts := b.opts.toNat
    let meets := match cget? c.part.epochs slot with | some x => c.overlap t w x.at_ x.windowUs | none => false
    let busy := match cget? c.part.modes slot with | some m => modeBusy m | none => false
    if t < c.now + 100000 then refuse stModeLate
    else if b.mode.toNat = cur ∨ (b.mode ≠ 1 ∧ b.mode ≠ 2) ∨ r < t + c.windowNs w + 1000000 ∨ 16 ≤ opts ∨ (b.mode = 2 ∧ 2 ≤ opts)
        ∨ (b.mode = 1 ∧ c.unitCheck mtx b.opts ≠ stOk) then refuse stBadField
    else if busy || meets || c.drifting slot then refuse stBusy
    else
      let m : ModeChange := { toCol := decide (b.mode = 2), opts := b.opts, at_ := t, rev := r, windowUs := w, oldOpts := s.opts }
      ((c.modPart fun p => { p with modes := cput p.modes slot m }).rearmJobs).answer 0x0602 e stOk
  | _, _ => refuse stBadField

/-- A slot takes a mode and options: the chain closes or opens (R409, R494), and flow formats follow exponent coding (R198). -/
def Chan.takeMode (c : Chan) (slot : Nat) (toCol : Bool) (opts : BitVec 8) : Chan :=
  let s := c.slot slot
  let c := if toCol then c.slotCairn slot 6 0 0 0 [] else c
  let c := c.putSlot slot { s with mode := if toCol then .col else .stage, opts := opts }
  let c := if toCol then c else c.slotCairn slot 5 0 0 0 (sm3Bytes (admitBytes s.body))
  if bitOf opts 0 = bitOf s.opts 0 then c
  else
    let f := if bitOf opts 0 then 1 else 0
    c.modCodec fun d => { d with flows := cset 0 (cset 0 d.flows (4 * slot + 1) f) (4 * slot + 3) f }

/-- The slot holds no open communicator, talus extent or ledger extent (R494). -/
def Chan.bareSlot (c : Chan) (slot : Nat) : Bool :=
  !(c.col.comms.any fun m => m.slot == slot) && !(c.codec.extents.any fun e => e.slot == slot) && !(c.part.ledgers.any fun l => l.slot == slot)

/-- A mode change replaced. -/
def Chan.putMode (c : Chan) (slot : Nat) (m : ModeChange) : Chan := c.modPart fun p => { p with modes := cput p.modes slot m }

/-- Tick at which a window that opens now closes. -/
def Chan.windowEndUs (c : Chan) (us : Nat) : Nat := c.us + max us (2 * c.rttUs)

/-- MODE_ACT_INSTANT: the new mode, or a miss (R494, R495). -/
def Chan.modeAct (c : Chan) : Chan :=
  match c.part.modes.find? fun e => !e.2.acted && c.jobDue e.2.at_ with
  | none => c
  | some (k, m) =>
    let c := c.fireJobs
    if m.toCol && !c.bareSlot k then ((c.putMode k { m with acted := true }).rearmJobs).recordMiss k
    else
      let opts := if m.toCol then (c.slot k).opts else m.opts
      ((c.takeMode k m.toCol opts).putMode k { m with acted := true, applied := true, saddle := some (c.windowEndUs m.windowUs) }).rearmJobs

/-- MODE_SADDLE_CLOSE (R494). -/
def Chan.modeClose (c : Chan) : Chan :=
  c.modPart fun p => { p with modes := p.modes.map fun e => match e.2.saddle with
    | some t => if t < c.us then (e.1, { e.2 with saddle := none }) else e
    | none => e }

/-- MODE_REV_INSTANT: after a miss or a PART_REVERT the slot returns to its old mode (R496). -/
def Chan.modeRev (c : Chan) : Chan :=
  match c.part.modes.find? fun e => !e.2.reverted && e.2.acted && c.jobDue e.2.rev with
  | none => c
  | some (k, m) =>
    let c := c.fireJobs
    if m.applied && (m.missed || m.revert) then
      ((c.takeMode k (!m.toCol) m.oldOpts).putMode k { m with reverted := true, saddle := some (c.windowEndUs m.windowUs) }).rearmJobs
    else (c.putMode k { m with reverted := true }).rearmJobs

/-- MODE_MISS from the peer: a miss (R495). A channel that armed no change records it once for each ACT, with the MODE and ACT of the message. -/
def Chan.modeMiss (c : Chan) (job : BitVec 32) (mode : BitVec 8) (act : BitVec 80) : Chan :=
  match c.holds job with
  | none => c
  | some k =>
    if (cget? c.part.modes k).isSome then c.recordMiss k
    else if cget? c.part.unarmed k = some act then c
    else
      let c := (c.modPart fun p => { p with unarmed := cput p.unarmed k act }).partNotice k { what := 6 }
      let c := c.sendHlth 0x12 (beBytes 4 job.toNat ++ [mode] ++ beBytes 3 0 ++ beBytes 10 act.toNat)
      (c.count 0x88).raise { ev := .partModeMiss, slot := k, job := job.toNat, scope := k }

/-- PART_CANCEL (R461, R491). -/
def Chan.partCancel (c : Chan) (e : CtlEnv) (slot : Nat) (kind : BitVec 8) (rsvd : BitVec 24) : Chan :=
  let op := 0x0603
  if rsvd ≠ 0 ∨ (kind ≠ 1 ∧ kind ≠ 2) then c.answer op e stBadField
  else if kind = 1 then
    let armed := match cget? c.part.epochs slot with | some x => x.saddle.isNone | none => false
    (if armed then (c.modPart fun p => { p with epochs := cdel p.epochs slot }).rearmJobs else c).answer op e stOk
  else match cget? c.part.modes slot with
    | some m =>
      if m.acted then c.answer op e (if m.reverted then stOk else stModeLate)
      else ((c.modPart fun p => { p with modes := cdel p.modes slot }).rearmJobs).answer op e stOk
    | none => c.answer op e stOk

/-- PART_REVERT (R496). -/
def Chan.partRevert (c : Chan) (e : CtlEnv) (slot : Nat) : Chan :=
  match cget? c.part.modes slot with
  | some m => if m.reverted then c.answer 0x0604 e stModeLate else (c.putMode slot { m with revert := true }).answer 0x0604 e stOk
  | none => c.answer 0x0604 e stOk

/-! ### State packages (R507, R508) -/

/-- A section of a package. -/
def section_ (type : Nat) (comm shard : BitVec 16) (body : List Byte) : List Byte :=
  beBytes 1 type ++ beBytes 1 0 ++ beBytes 2 comm.toNat ++ beBytes 2 shard.toNat ++ beBytes 2 0 ++ beBytes 8 body.length ++ body

/-- COMM contents of a communicator. -/
def Chan.commContents (c : Chan) (m : Comm) : List Byte :=
  let pairs := match c.prov.spans.find? fun s => s.slot == m.slot && s.comm == m.body.comm.toNat with | some s => s.pairs | none => []
  padTo 580 (beBytes 4 m.lastSeq.toNat ++ pairs.flatMap fun p => beBytes 4 p.1 ++ p.2)

/-- A reseed record (R251). -/
def reseedBytes (mask : BitVec 64) (seed : BitVec 32) : List Byte := beBytes 8 mask.toNat ++ beBytes 4 seed.toNat ++ beBytes 4 0

/-- QPREV contents of an extent: committed reseed record and Q_prev in FMT. -/
def qprevContents (fmt : Nat) (e : Extent) : List Byte :=
  reseedBytes (if e.commit then e.maskHi else e.maskLo) (if e.commit then e.seedHi else e.seedLo)
    ++ codesBytes (elemBytes fmt) (if e.commit then e.qUpper else e.qLower)

/-- Sections of a slot's package. -/
def Chan.packSections (c : Chan) (slot : Nat) : List (List Byte) :=
  let ms := c.col.comms.filter fun m => m.slot == slot
  (ms.map fun m => section_ 1 m.body.comm 0 (c.commContents m))
    ++ ms.flatMap fun m => (c.codec.extents.filter fun e => e.lowrank && e.slot == slot && decide (e.comm = m.body.comm)).map fun e =>
        section_ 2 e.comm e.shard (qprevContents m.body.fmt.toNat e)

/-- MAGIC of a package. -/
def packMagic : Nat := 0x535A3853

/-- The package of a slot, signed. -/
def Chan.package (c : Chan) (slot : Nat) : List Byte :=
  let s := c.slot slot
  let secs := c.packSections slot
  let body := secs.flatMap id
  let n := 64 + body.length + 64
  let head := padTo 64 (beBytes 4 packMagic ++ beBytes 1 1 ++ beBytes 1 c.ownSite ++ beBytes 1 c.peerSite ++ beBytes 1 s.pepoch.toNat
    ++ beBytes 4 s.body.jobId.toNat ++ beBytes 4 s.step.toNat ++ beBytes 8 n ++ beBytes 4 secs.length ++ stampBytes c.now)
  head ++ body ++ beBytes 64 (Config.sm2Sign c.cfg.coord.toNat (ascii "SZ8-STATE" ++ head ++ body)).toNat

/-- Bytes written into region 7 (R118, R507). -/
def Chan.writeStage (c : Chan) (off : Nat) (bs : List Byte) : Chan := c.putStage off (bs.map some)

/-- Bytes of region 7. -/
def Chan.readStage (c : Chan) (off n : Nat) : List Byte := (List.range n).map fun i => Memory.read c.mem.region7 (off + i)

/-- PART_EXPORT (R507); while the domain cannot sign, the request waits. -/
def Chan.partExport (c : Chan) (e : CtlEnv) (slot : Nat) : Chan :=
  let bs := c.package slot
  if c.part.shards.any fun x => x.slot == slot then c.answer 0x060B e stReconciling
  else if c.regionSize 7 < bs.length ∨ !c.memUp then c.answer 0x060B e stNoLedger
  else (c.writeStage 0 bs).answer 0x060B e stOk

/-- A read of a range of region 7 finds a line without data (R119, R129). -/
def Chan.stageLost (c : Chan) (off n : Nat) : Bool := (linesOf (c.regionBase 7 + off) n).any c.lineBad

/-- Sections parsed: TYPE, COMM_ID, SHARD and contents. -/
def parseSections : Nat → List Byte → Option (List (Nat × Nat × Nat × List Byte))
  | 0, bs => if bs.isEmpty then some [] else none
  | n + 1, bs =>
    if bs.isEmpty then some []
    else
      let len := beAt bs 8 8
      if bs.length < 16 + len then none
      else (parseSections n (bs.drop (16 + len))).map fun r => (beAt bs 0 1, beAt bs 2 2, beAt bs 4 2, (bs.drop 16).take len) :: r

/-- A section names what stands open or bound in the slot, with the same shape (R508). -/
def Chan.sectionOk (c : Chan) (slot : Nat) (x : Nat × Nat × Nat × List Byte) : Bool :=
  match c.comm? slot x.2.1 with
  | none => false
  | some m =>
    let fmt := m.body.fmt.toNat
    if x.1 = 1 then decide (x.2.2.2.length = 580)
    else if x.1 = 2 then match c.extent? slot x.2.1 x.2.2.1 with
      | some e => e.lowrank && decide (x.2.2.2.length = 16 + e.cols * codecRank m.body.codec.toNat * elemBytes fmt)
      | none => false
    else false

/-- The pairs of SEQ and span digest that a COMM section holds. -/
def pairsOf (bs : List Byte) : List (Nat × List Byte) :=
  ((pieces 36 (bs.drop 4)).map fun p => (beAt p 0 4, p.drop 4)).filter fun p => p.2.any fun b => b ≠ 0

/-- A section applied (R508). -/
def Chan.applySection (c : Chan) (slot : Nat) (x : Nat × Nat × Nat × List Byte) : Chan :=
  match c.comm? slot x.2.1 with
  | none => c
  | some m =>
    let bs := x.2.2.2
    if x.1 = 1 then
      let ps := pairsOf bs
      let c := c.putComm { m with lastSeq := BitVec.ofNat 32 (beAt bs 0 4) }
      c.modProv fun p => { p with spans := p.spans.map fun s =>
        if s.slot = slot ∧ s.comm = x.2.1 then { s with pairs := ps, digest := match ps.getLast? with | some q => q.2 | none => s.digest } else s }
    else match c.extent? slot x.2.1 x.2.2.1 with
      | some e =>
        let q := chunkCodes (elemBytes m.body.fmt.toNat) (bs.drop 16)
        let mask := BitVec.ofNat 64 (beAt bs 0 8)
        let seed := BitVec.ofNat 32 (beAt bs 8 4)
        c.putExtent { e with qLower := q, qUpper := q, maskLo := mask, maskHi := mask, seedLo := seed, seedHi := seed }
      | none => c

/-- A package applied, or refused whole with PART_LOAD_FAIL (R508). -/
def Chan.loadPackage (c : Chan) (off n : Nat) : Chan :=
  let bs := c.readStage off n
  let signed := bs.take (n - 64)
  let lost := c.stageLost off n
  let job := BitVec.ofNat 32 (beAt bs 8 4)
  let secs := parseSections 8192 ((bs.drop 64).take (n - 128))
  let fail := c.raise { ev := .partLoadFail }
  match c.holds job, secs with
  | some k, some xs =>
    if decide (n < 128) || lost || decide (beAt bs 0 4 ≠ packMagic) || decide (beAt bs 4 1 ≠ 1) || decide (beAt bs 16 8 ≠ n)
        || decide (beAt bs 24 4 ≠ xs.length) || decide (beAt bs 5 1 ≠ c.peerSite) || decide (beAt bs 6 1 ≠ c.ownSite)
        || decide ((c.slot k).mode = .releasing)
        || !Config.sm2Verify c.sec.peerCert (ascii "SZ8-STATE" ++ signed) (BitVec.ofNat 512 (beAt bs (n - 64) 64))
        || !(xs.all fun x => c.sectionOk k x) then fail
    else
      let c := xs.foldl (fun (c : Chan) x => c.applySection k x) c
      let c := c.putSlot k { c.slot k with pepoch := BitVec.ofNat 8 (beAt bs 7 1), step := BitVec.ofNat 32 (beAt bs 12 4) }
      (c.count 0x98).partNotice k { what := 8, step := beAt bs 12 4 }
  | _, _ => fail

/-! ### The sequencer's mailbox (R26, R508, R569) -/

/-- Bytes cut into control requests: TABLE_WRITEs and GEN_SWITCHes one after another; none where they do not fit exactly (log entry 152). -/
def cutReqs : Nat → List Byte → Option (List (List Byte))
  | 0, bs => if bs.isEmpty then some [] else none
  | n + 1, bs =>
    if bs.isEmpty then some []
    else
      let size := if beAt bs 0 2 = 0x0010 then 16 + beAt bs 10 2 * entrySize (beAt bs 8 1) else if beAt bs 0 2 = 0x0011 then 24 else 0
      if size = 0 ∨ bs.length < size then none else (cutReqs n (bs.drop size)).map fun r => bs.take size :: r

/-- The body of a TABLE_WRITE, and of a GEN_SWITCH, after the envelope (R90). -/
def tableBodyOf (r : List Byte) : TableBody :=
  { table := BitVec.ofNat 8 (beAt r 8 1), rsvd := BitVec.ofNat 8 (beAt r 9 1), count := BitVec.ofNat 16 (beAt r 10 2)
    index := BitVec.ofNat 32 (beAt r 12 4), entries := r.drop 16 }
def switchBodyOf (r : List Byte) : SwitchBody :=
  { actS := BitVec.ofNat 48 (beAt r 8 6), actNs := BitVec.ofNat 32 (beAt r 14 4), windowUs := BitVec.ofNat 32 (beAt r 18 4)
    rsvd := BitVec.ofNat 16 (beAt r 22 2) }

/-- A complete generation switch of a slot: its TABLE_WRITEs into the shadow, and then its GEN_SWITCH, each under the checks of an in-band request;
none where one of them is refused (R26, R90, R91). -/
def Chan.wholeSwitch (c : Chan) (slot : Nat) : List (List Byte) → Option Chan
  | [] => none
  | [r] =>
    let x := c.armSwitch slot (switchBodyOf r)
    if beAt r 0 2 = 0x0011 ∧ x.1 = stOk then some x.2 else none
  | r :: rest =>
    let x := c.tryWrite slot (tableBodyOf r)
    if beAt r 0 2 = 0x0010 ∧ x.1 = stOk then x.2.wholeSwitch slot rest else none

/-- A generation switch in a notice's bytes, applied whole; none where it is refused: it is not complete, its requests name several jobs or one that no
slot holds, a line of it was lost, or a check of R90 or R91 fails (R26, R129). -/
def Chan.noticeSwitch (c : Chan) (off n : Nat) : Option Chan :=
  match cutReqs 8192 (c.readStage off n) with
  | some (r :: rest) =>
    let job := BitVec.ofNat 32 (beAt r 4 4)
    match c.holds job with
    | some k =>
      if decide ((c.slot k).mode = .releasing) || c.stageLost off n || rest.any fun x => decide (beAt x 4 4 ≠ job.toNat) then none
      else c.wholeSwitch k (r :: rest)
    | none => none
  | _ => none

/-- A notice taken: a state package, or a complete generation switch (log entry 152); anything else is refused under the violation rule, logged as a
violation of KIND 0x0A by the channel's firmware at the notice's pointer (log entry 153), or of KIND 0x08 when it points outside the channel's own
slice (R568). -/
def Chan.mailboxTake (c : Chan) (ch : Nat) : Chan :=
  match c.ctrl.notices with
  | [] => c
  | (_, w) :: rest =>
    let c := { c with ctrl := { c.ctrl with notices := rest } }
    let ptr := (vget w 0).toNat + (vget w 1).toNat * 4294967296
    let n := (vget w 2).toNat
    let lo := ch * 8589934592 + 3221225472
    let refuse := c.viol { source := .chFirmware, ch := ch, kind := .inbandRule, addr := ptr }
    if ptr < ch * 8589934592 ∨ (ch + 1) * 8589934592 < ptr + n then
      c.viol { source := .chFirmware, ch := ch, kind := .outsideDma, write := false, addr := ptr }
    else if ptr < lo ∨ lo - 3221225472 + 8589934592 < ptr + n ∨ c.regionSize 7 < ptr - lo + n ∨ !c.memUp then refuse
    else
      if beAt (c.readStage (ptr - lo) (min n 4)) 0 4 = packMagic then c.loadPackage (ptr - lo) n
      else match c.noticeSwitch (ptr - lo) n with
      | some d => d
      | none => refuse

/-! ### The commands -/

def execPartEpoch (ch : Fin 8) (e : CtlEnv) (b : EpochBody) (s : State) : Out :=
  done (onPath ch (fun c => c.onJob 0x0601 e fun k c => c.partEpoch e k b) s)
def execPartMode (ch : Fin 8) (e : CtlEnv) (b : ModeBody) (s : State) : Out :=
  done (onPath ch (fun c => c.onJob 0x0602 e fun k c => c.partMode (s.mtxPresent ch) e k b) s)
def execPartCancel (ch : Fin 8) (e : CtlEnv) (kind : BitVec 8) (rsvd : BitVec 24) (s : State) : Out :=
  done (onPath ch (fun c => c.onJob 0x0603 e fun k c => c.partCancel e k kind rsvd) s)
def execPartRevert (ch : Fin 8) (e : CtlEnv) (s : State) : Out :=
  done (onPath ch (fun c => c.onJob 0x0604 e fun k c => c.partRevert e k) s)
def execLedgerBind (ch : Fin 8) (e : CtlEnv) (b : LedgerBody) (s : State) : Out :=
  done (onPath ch (fun c => c.onJob 0x0605 e fun k c => c.ledgerBind e k b) s)
def execLedgerUnbind (ch : Fin 8) (e : CtlEnv) (b : UnbindBody) (s : State) : Out :=
  done (onPath ch (fun c => c.onJob 0x0606 e fun k c => c.ledgerUnbind e k b) s)
def execPartSeq (ch : Fin 8) (e : CtlEnv) (comm rsvd : BitVec 16) (seq : BitVec 32) (s : State) : Out :=
  done (onPath ch (fun c => c.onJob 0x0607 e fun k c => c.partSeq e k comm rsvd seq) s)
def execReconStart (ch : Fin 8) (e : CtlEnv) (b : StartBody) (s : State) : Out :=
  done (onPath ch (fun c => c.onColJob 0x0608 e fun k c => c.reconStart e k b) s)
def execPartReloaded (ch : Fin 8) (e : CtlEnv) (comm shard : BitVec 16) (s : State) : Out :=
  done (onPath ch (fun c => c.onJob 0x0609 e fun k c => c.partReloaded e k comm shard) s)
def execPartDropDrift (ch : Fin 8) (e : CtlEnv) (s : State) : Out :=
  done (onPath ch (fun c => c.onJob 0x060A e fun k c => c.dropDrift e k) s)
def execPartExport (ch : Fin 8) (e : CtlEnv) (s : State) : Out :=
  done (onPath ch (fun c => if c.signOk then c.onJob 0x060B e fun k c => c.partExport e k else c) s)
def execDriftTimeLimit (ch : Fin 8) (s : State) : Out := done (onPath ch Chan.driftTime s)
def execDriftOffer (ch : Fin 8) (h : SealHdr) (o : OfferBody) (s : State) : Out :=
  done (onPath ch (fun c => c.onSealed 4 0x10 h fun c => c.driftOffer o) s)
def execDriftAck (ch : Fin 8) (h : SealHdr) (job : BitVec 32) (comm shard : BitVec 16) (s : State) : Out :=
  done (onPath ch (fun c => c.onSealed 4 0x11 h fun c => c.driftAck job comm shard) s)
def execDriftOfferRepeat (ch : Fin 8) (s : State) : Out := done (onPath ch Chan.offerRepeat s)
def execEpochInstant (ch : Fin 8) (s : State) : Out := done (onLive ch Chan.epochInstant s)
def execEpochSaddleClose (ch : Fin 8) (s : State) : Out := done (onLive ch Chan.epochClose s)
def execModeActInstant (ch : Fin 8) (s : State) : Out := done (onLive ch Chan.modeAct s)
def execModeSaddleClose (ch : Fin 8) (s : State) : Out := done (onLive ch Chan.modeClose s)
def execModeRevInstant (ch : Fin 8) (s : State) : Out := done (onLive ch Chan.modeRev s)
/-- MODE_MISS as the peer sent it: JOB_ID, MODE and the instant ACT. -/
def execModeMiss (ch : Fin 8) (h : SealHdr) (job : BitVec 32) (mode : BitVec 8) (actS : BitVec 48) (actNs : BitVec 32) (s : State) : Out :=
  done (onPath ch (fun c => c.onSealed 4 0x12 h fun c => c.modeMiss job mode (actS ++ actNs)) s)
def execSequencerMailboxTake (ch : Fin 8) (s : State) : Out := done (onPath ch (fun c => c.mailboxTake ch) s)

end Sys2Proof.Machine
end

