-- ==== Sys2Proof/Machine/HostPort.lean ====
section
/-! DEFINITION. The host port: link, HDM window, mailboxes, violations, interrupts (Host Port and Register Map, R549–R571). Register
writes stand in Machine/RegWrite.lean. -/

namespace Sys2Proof.Machine

open Sys2Proof

/-- The hub with its host port changed. -/
def Hub.modHost (h : Hub) (f : HostPort → HostPort) : Hub := { h with host := f h.host }

/-! ### The link (R549–R551, R568) -/

/-- HOST_LINK_TRAIN: CXL at x16 or x8 and 64 GT/s, or else a plain PCI Express endpoint (R550, R551); what the host enables. -/
def Hub.linkTrain (h : Hub) (cxl : Bool) (width rate : Nat) (cacheEn memEn : Bool) : Hub :=
  let isCxl := cxl && (decide (width = 16) || decide (width = 8)) && decide (rate = 6)
  let h := h.modHost fun p => { p with
    mode := if isCxl then .cxl else .pcieOnly, width := width, rate := rate, cacheEn := isCxl && cacheEn, memEn := isCxl && memEn }
  let h := h.hostEv .hostLinkUp
  if !isCxl then h.hostEv .hostPcieOnly else if width = 8 then h.hostEv .hostLinkDegraded else h

/-- Every FULL mailbox is emptied and its TO set: the host's for H2D, the sender's for D2H (R568). -/
def emptyMailboxes (p : HostPort) : HostPort :=
  { p with
    h2d := p.h2d.map fun m => if m.full then { m with full := false, to_ := true } else m
    d2h := p.d2h.map fun m => if m.full then { m with full := false, to_ := true, words := Vector.replicate 4 0 } else m }

/-- A host-port reset (R529, R568): link, decoders and IDE are lost, the MSI-X table, and notices in flight. -/
def Hub.portReset (h : Hub) : Hub :=
  let h := { h with regs := h.regs.filter fun p => decide (p.1 < 0xF00000) || decide (0xF00400 ≤ p.1) }
  let posted := h.host.h2d.toList.any Mailbox.full
  let h := h.modHost fun p => { emptyMailboxes p with
    mode := .down, width := 0, rate := 0, cacheEn := false, memEn := false, ideIo := false, ideCm := false, ideKeyed := false
    masked := BitVec.allOnes 64, msiPend := 0, hdm := .none, cdat := none }
  let h := h.hostEv .hostLinkDown
  if posted then h.msi 48 else h

/-! ### Records as the history holds them (R572, R585, R587) -/

/-- The VALID word of a record. -/
def validWord (sev kind code : Nat) : List Byte := beBytes 4 (0xA5000000 + sev * 4194304 + kind * 1048576 + code % 65536)

/-- An event record's 256 bytes (R572). -/
def evtBytes (e : EvtRec) : List Byte :=
  let b := e.body
  validWord (sevNum e.sev) 0 e.code ++ beBytes 4 e.rseq ++ stampBytes e.stamp ++ beBytes 4 e.unc ++ beBytes 1 e.ch
    ++ beBytes 1 b.boundary.toNat ++ beBytes 4 e.reps ++ beBytes 4 0 ++ beBytes 1 b.slot ++ beBytes 1 b.uclass ++ beBytes 1 b.unit
    ++ beBytes 1 (planeNum b.plane) ++ beBytes 4 b.job ++ beBytes 2 b.comm ++ beBytes 2 b.shard ++ beBytes 4 b.seq ++ beBytes 4 b.step
    ++ beBytes 8 b.addr ++ beBytes 4 b.value ++ (b.raw ++ List.replicate 192 0).take 192

/-- A signed number as a field of `k` bytes. -/
def sgnBytes (k : Nat) (v : Int) : List Byte := beBytes k (BitVec.ofInt (8 * k) v).toNat

/-- A window record's 256 bytes (R585). -/
def winBytes (ch : Nat) (r : WinRec) : List Byte :=
  let w := r.win
  validWord 0 1 r.metric ++ beBytes 4 r.rseq ++ beBytes 6 w.startS ++ beBytes 4 0 ++ beBytes 1 r.wlen
    ++ beBytes 1 (w.late.toNat + 2 * w.stepEnd.toNat) ++ beBytes 3 0 ++ beBytes 1 ch ++ beBytes 8 0
    ++ ((List.range 16).flatMap fun i => beBytes 4 (lget 0 w.bins i)) ++ sgnBytes 4 w.mn ++ sgnBytes 4 w.mx ++ beBytes 8 w.count
    ++ sgnBytes 8 w.sum ++ beBytes 4 w.boundary ++ List.replicate 132 0

/-- A record of the event history. -/
def histBytes (ch : Nat) : HistRec → List Byte
  | .event e => evtBytes e
  | .window w => winBytes ch w
  | .lost rseq code sev => validWord (sevNum sev) 3 code ++ beBytes 4 rseq ++ List.replicate 248 0

/-! ### The HDM window (R555, R556) -/

/-- Region and region offset of a slice offset; the region is 5 + its second component's index. -/
def sliceMap (o : Nat) : Nat × Nat :=
  if o < 2147483648 then (5, o) else if o < 3221225472 then (6, o - 2147483648) else (7, o - 3221225472)

/-- Bytes of region `r` that its window maps: half the sealed size of a mirrored region, at most the window. -/
def Chan.mapped (c : Chan) (r : Nat) : Nat :=
  if r = 7 then min (c.regionSize 7) 5368709120 else min (c.regionSize r / 2) (if r = 5 then 2147483648 else 1073741824)

/-- Byte `o` of a mapped region. The layout of the metadata in the first 64 KiB is not stated: its bytes are free values. -/
def Chan.hdmByte (c : Chan) (ch r : Nat) (v : Nat) (o : Nat) : Byte :=
  if r = 7 then Memory.read c.mem.region7 o
  else if o < 65536 then lget 0 (Config.freeBytes v 65536) o
  else if r = 5 then match c.mirrorRec 5 128 o with
    | some k => lget 0 (cget [] c.prov.store k) (o % 128)
    | none => 0
  else match (c.mirrorRec 6 256 o).bind (cget? c.evr.hist) with
    | some h => lget 0 (histBytes ch h) (o % 256)
    | none => 0

/-- The slice's channel is not there to answer: recovery, cold restart, Deep, or its LPDDR6 is not trained (row 3). -/
def Chan.hdmOff (c : Chan) : Bool :=
  decide (c.boot.phase = 8) || decide (c.boot.phase = 11) || decide (c.boot.pst = 3) || decide (c.mem.phase ≠ .up)

/-- HDM_ACCESS to a 64-byte line: a read, or a write of the bytes given (R556). The window is absent outside CXL mode (R550). -/
def State.hdmAccess (s : State) (line : BitVec 30) (data : Option (Vector (Option Byte) 64)) : State :=
  let a := line.toNat * 64
  let n := a / 8589934592
  let m := sliceMap (a % 8589934592)
  let c := vget s.chans n
  let answer (h : Hub) (r : HdmRsp) : Hub := h.modHost fun p => { p with hdm := r }
  let bad (k : ViolKind) : State :=
    if data.isSome then s.modHub fun h => ((answer h .error).modHost fun p => { p with ras := p.ras + 1 }).violate { source := .hostMem, ch := n, kind := k, addr := a }
    else s.modHub fun h => answer h .ones
  if s.hub.failed || decide (s.hub.host.mode ≠ .cxl) then s
  else if !s.present n then bad .absentUnit
  else if !bitOf (s.hub.reg 0xC) (3 * n + m.1 - 5) || decide (c.mapped m.1 ≤ m.2) then bad .reservedOrAlign
  else if c.hdmOff then
    s.modHub fun h => (answer (h.count 0x28) (if data.isSome then .dropped else .poison)).hostEv .hostHdmUnavail n
  else
    match data with
    | some bs =>
      if m.1 ≠ 7 then bad .readOnly
      else
        { s with chans := vset s.chans n (c.putStage m.2 bs.toList) }.modHub fun h => answer h .written
    | none =>
      if (linesOf (c.regionBase m.1 + m.2) 64).any c.lineBad then s.modHub fun h => answer h .poison
      else
        let bs := (List.range 64).map fun i => c.hdmByte n m.1 s.free (m.2 + i)
        { (s.modHub fun h => answer h (.data bs)) with free := s.free + 1 }

/-! ### Mailboxes (R563–R570) -/

/-- The party that MBX.ROUTE_k names; a route naming an absent channel is no party (R564). -/
def State.route (s : State) (k : Nat) : Party :=
  let w := s.hub.reg (0x500100 + 4 * k)
  let n := fld w 27 24
  match fld w 31 28 with
  | 1 => .hubFw
  | 2 => if n < 8 && s.present n then .chFw n else .none
  | 3 => if n < 8 && s.present n then .sequencer n else .none
  | _ => .none

/-- A party can act: the hub is up, and a channel's cores or sequencer are out of reset (R535 step 3). -/
def State.partyUp (s : State) : Party → Bool
  | .none => false
  | .hubFw => !s.hub.failed
  | .chFw n => let c := vget s.chans n; c.inPath && !s.hub.failed
  | .sequencer n => let c := vget s.chans n; c.inPath && !s.hub.failed

/-- SENDER of a notice (R563): word 3 with bits [11:0] stamped and the reserved bits 0. -/
def stampSender (w : Vector Word 4) (kind id : Nat) : Vector Word 4 :=
  let x : Word := (vget w 3) &&& 0xFFFF8000
  vset w 3 (x ||| BitVec.ofNat 32 (kind * 256 + id))

/-- The sender fields of a party. -/
def senderOf : Party → Nat × Nat
  | .none => (0, 0)
  | .hubFw => (1, 0)
  | .chFw n => (2, n)
  | .sequencer n => (3, n)

/-- An H2D mailbox changed. -/
def modH2d (k : Nat) (f : Mailbox → Mailbox) (p : HostPort) : HostPort := { p with h2d := vset p.h2d k (f (vget p.h2d k)) }
/-- A D2H mailbox changed. -/
def modD2h (k : Nat) (f : Mailbox → Mailbox) (p : HostPort) : HostPort := { p with d2h := vset p.d2h k (f (vget p.d2h k)) }

/-- A write to a mailbox that is FULL is discarded and sets DROP (R567). -/
def Hub.h2dDrop (h : Hub) (k : Nat) : Hub := (h.modHost (modH2d k fun m => { m with drop := true })).hostEv .hostMbxDrop

/-- DOORBELL: a write of word 4 of H2D mailbox `k`: W1C bits, then the post; while it is FULL a post is discarded whole (R565, R567,
R570). -/
def Hub.doorbell (h : Hub) (k : Nat) (w : Word) : Hub :=
  if bitOf w 31 && (vget h.host.h2d k).full then h.h2dDrop k
  else
  let h := h.modHost (modH2d k fun m => { m with
    taken := m.taken && !bitOf w 29, to_ := m.to_ && !bitOf w 28, drop := m.drop && !bitOf w 27 })
  if !bitOf w 31 then h
  else h.modHost (modH2d k fun m => { m with words := stampSender m.words 0 0, full := true, sinceMs := h.ms })

/-- H2D_TAKE by the party that the mailbox is routed to (R564–R566). The control sequencer's notice joins its own mailbox; channel
firmware may pass a notice on there (R569), but outside CXL mode it takes a notice that points into the HDM window as an empty one
(R550). -/
def State.h2dTake (s : State) (k : Nat) (pass : Option (Vector Word 4)) : State :=
  let p := s.route k
  let m := vget s.hub.host.h2d k
  if !m.full || !s.partyUp p then s
  else
    let s := s.modHub fun h => (h.modHost (modH2d k fun m => { m with full := false, taken := true })).msi 48
    let give (n : Nat) (w : Vector Word 4) : State :=
      let c := vget s.chans n
      { s with chans := vset s.chans n { c with ctrl := { c.ctrl with notices := c.ctrl.notices ++ [(k, w)] } } }
    match p, pass with
    | .sequencer n, _ => give n m.words
    | .chFw n, some w => if bitOf (vget m.words 3) 15 && decide (s.hub.host.mode ≠ .cxl) then s else give n (vset (stampSender w 2 n) 3 ((vget (stampSender w 2 n) 3) ||| 0x8000))
    | _, _ => s

/-- D2H_POST by a party (R564, R565, R567). -/
def State.d2hPost (s : State) (k : Nat) (by_ : Party) (w : Vector Word 4) : State :=
  if !s.partyUp by_ then s
  else if s.route k ≠ by_ then
    let n := match by_ with | .chFw n => n | .sequencer n => n | _ => 0xFF
    let src : ViolSource := if by_ = .hubFw then .hubFirmware else .chFirmware
    s.modHub fun h => h.violate { source := src, ch := n, kind := .mailboxRoute, addr := 0x502000 + 32 * k }
  else if (vget s.hub.host.d2h k).full then
    s.modHub fun h => (h.modHost (modD2h k fun m => { m with senderDrop := true })).hostEv .hostMbxDrop
  else
    let id := senderOf by_
    s.modHub fun h => (h.modHost (modD2h k fun m => { m with
      words := stampSender w id.1 id.2, full := true, to_ := false, senderTaken := false, senderDrop := false, sinceMs := h.ms })).msi (16 + k)

/-- TAKE: the host takes the notice of D2H mailbox `k` (R565, R566). -/
def Hub.take (h : Hub) (k : Nat) : Hub :=
  h.modHost (modD2h k fun m => if m.full then { m with full := false, senderTaken := true, words := Vector.replicate 4 0 } else m)

/-- MAILBOX_TIMEOUT: a notice that has not been taken within TIMEOUT_MS is withdrawn (R565). -/
def Hub.mboxTimeout (h : Hub) (d2h : Bool) (k : Nat) : Hub :=
  let m := if d2h then vget h.host.d2h k else vget h.host.h2d k
  if !m.full || decide (h.ms ≤ m.sinceMs + fld (h.reg 0x500000) 31 16) then h
  else if d2h then
    (h.modHost (modD2h k fun m => { m with full := false, to_ := true, words := Vector.replicate 4 0 })).hostEv .hostMbxTimeout (32 + k)
  else ((h.modHost (modH2d k fun m => { m with full := false, to_ := true })).hostEv .hostMbxTimeout k).msi 48

/-! ### The commands -/

def execHostLinkTrain (cxl : Bool) (width : Fin 17) (rate : Fin 7) (cacheEn memEn : Bool) (s : State) : Out :=
  done (onHub (fun h => if h.pwr.pwrgd then h.linkTrain cxl width rate cacheEn memEn else h) s)
def execHostPortReset (s : State) : Out := done (onHub Hub.portReset s)
def execHdmAccess (line : BitVec 30) (data : Option (Vector (Option Byte) 64)) (s : State) : Out := done (s.hdmAccess line data)
def execDoorbell (k : Fin 32) (data : Word) (s : State) : Out := done (onHub (fun h => h.doorbell k data) s)
def execH2dTake (k : Fin 32) (pass : Option (Vector Word 4)) (s : State) : Out := done (s.h2dTake k pass)
def execD2hPost (k : Fin 32) (by_ : Party) (w : Vector Word 4) (s : State) : Out := done (s.d2hPost k by_ w)
def execTake (k : Fin 32) (s : State) : Out := done (onHub (fun h => h.take k) s)
def execMailboxTimeout (d2h : Bool) (k : Fin 32) (s : State) : Out := done (onHub (fun h => h.mboxTimeout d2h k) s)

/-- VIOLATION_DELIVERY: the oldest violation of a channel enters the log with its original stamp; those dropped are counted (R560). -/
def execViolationDelivery (ch : Fin 8) (s : State) : Out :=
  if s.hub.failed || !s.present ch then done s
  else
    let c := s.chan ch
    let s := if c.violLost = 0 then s
      else (s.setChan ch { c with violLost := 0 }).modHub fun h => (h.count 0x24 c.violLost).hostEv .hostViolLost
    match c.viols with
    | [] => done s
    | v :: rest =>
      done ((s.setChan ch { s.chan ch with viols := rest }).modHub fun h =>
        { h with host := logViol h.host { v with ch := ch } }.hostEv .hostViol)

/-- The mask bit of a vector written: a pending vector is signalled once it is unmasked (R571). -/
def Hub.maskVector (h : Hub) (v : Nat) (m : Bool) : Hub :=
  if m then h.modHost fun p => { p with masked := putBit p.masked v true }
  else
    let pend := bitOf h.host.msiPend v
    let h := h.modHost fun p => { p with masked := putBit p.masked v false, msiPend := putBit p.msiPend v false }
    if pend then h.msi v else h

/-- MSIX_UNMASK (R571). -/
def execMsixUnmask (v : Fin 64) (s : State) : Out := done (onHub (fun h => h.maskVector v false) s)

/-- IDE_KM_REQUEST over a secured SPDM session: keys are installed and streams go active, or it fails (R549, R562). -/
def execIdeKmRequest (session : Nat) (ok io cm : Bool) (s : State) : Out :=
  done (onHub (fun h =>
    if !h.spdm.openS.contains session || decide (h.host.mode = .down) then h
    else if ok then h.modHost fun p => { p with ideKeyed := true, ideIo := io, ideCm := cm && decide (p.mode = .cxl) }
    else h.hostEv .hostIdeFail) s)

/-- IDE_CHECK_FAIL: an IDE integrity check fails. -/
def execIdeCheckFail (s : State) : Out := done (onHub (fun h => h.hostEv .hostIdeFail) s)

/-- CDAT_READ: HDM read latency of 700 ns, 40 GB/s per channel slice (R549). -/
def execCdatRead (s : State) : Out :=
  done (onHub (fun h => if h.host.mode = .down then h else h.modHost fun p => { p with cdat := some (700, 40) }) s)

end Sys2Proof.Machine
end

