-- ==== Sys2Proof/Machine/Arch.lean ====
section
/-! DEFINITION. Loss of the hub and of the reference (Module Architecture, R21, R22). The cutout of R20 stands in Machine/Module.lean. -/

namespace Sys2Proof.Machine

open Sys2Proof

/-- HUB_FAIL: the hub's functions stop; the senders of notices that wait for the host get their timeout flags; channels keep running and
keep their violations (R21, R560). -/
def execHubFail (s : State) : Out :=
  done (if s.hub.failed then s else
    { s with
      chans := Vector.ofFn fun n : Fin 8 => if s.present n then { s.chan n with hubLost := true } else s.chan n
      hub := { s.hub with failed := true, host := { emptyMailboxes s.hub.host with mode := .down } } })

/-- Within 10 µs of the fan-out's loss the edge clocks follow the crystal; a unit whose active source is MODULE enters holdover, any other
keeps its state (R22). -/
def Chan.refLoss (c : Chan) : Chan :=
  let c := { c with crystal := true }
  if c.time.unit.src = .module ∧ (c.time.unit.state = .locked ∨ c.time.unit.state = .acquire) then
    (c.modUnit fun u => enterHold c.ms u).unitEv .holdover
  else c

def execReferenceLoss (ch : Fin 8) (s : State) : Out := done (onChan ch (fun c => if c.crystal then c else c.refLoss) s)

/-- REFERENCE_RETURN: the edge clocks follow TREF_IN again (R22). -/
def execReferenceReturn (ch : Fin 8) (s : State) : Out := done (onChan ch (fun c => { c with crystal := false }) s)

end Sys2Proof.Machine
end

