-- ==== Sys2Proof/Machine/Image.lean ====
section
/-! DEFINITION. The image format and the checks of an image: header, section table, sections and signature blocks, read from the bytes of
an image slot (Bring-Up, Reset and Recovery, R517–R522). -/

namespace Sys2Proof.Machine

open Sys2Proof

/-- `k` bytes from offset `off` on. -/
def bytesAt (bs : List Byte) (off k : Nat) : List Byte := (bs.drop off).take k

/-- An entry of the section table (R518). -/
structure Entry where
  typ    : Nat
  ch     : Nat
  sflags : Nat
  rsvd   : Nat
  off    : Nat
  len    : Nat
  digest : Nat
  deriving DecidableEq, Repr, Inhabited

/-- Entry `i` of the table at image offset 0x100 (R518). -/
def entryAt (bs : List Byte) (i : Nat) : Entry :=
  let o := 0x100 + 48 * i
  { typ := beAt bs o 1, ch := beAt bs (o + 1) 1, sflags := beAt bs (o + 2) 1, rsvd := beAt bs (o + 3) 1 + beAt bs (o + 12) 4
    off := beAt bs (o + 4) 4, len := beAt bs (o + 8) 4, digest := beAt bs (o + 16) 32 }

/-- NSEC, SVN, FLAGS and IMG_LEN of the header (R517). -/
def imgNsec (bs : List Byte) : Nat := beAt bs 7 1
def imgSvn (bs : List Byte) : Nat := beAt bs 6 1
def imgFlags (bs : List Byte) : BitVec 8 := BitVec.ofNat 8 (beAt bs 5 1)
def imgLen (bs : List Byte) : Nat := beAt bs 8 4

/-- The section table (R517, R518). -/
def imgTable (bs : List Byte) : List Byte := bytesAt bs 0x100 (48 * imgNsec bs)
def imgEntries (bs : List Byte) : List Entry := (List.range (imgNsec bs)).map (entryAt bs)

/-- The bytes of a section. -/
def Entry.data (bs : List Byte) (e : Entry) : List Byte := bytesAt bs e.off e.len

/-- The section of a type that serves channel `n`: its own, or one for every channel (R518). -/
def sectionFor (bs : List Byte) (typ n : Nat) : Option (List Byte) :=
  let es := (imgEntries bs).filter fun e => e.typ = typ
  ((es.find? fun e => e.ch = n) <|> es.find? fun e => e.ch = 0xFF).map (Entry.data bs)

/-! ### The checks (R520, R521) -/

/-- Reason 0x01: magic, version, length, section count, or a reserved field; OSIG_OFF is 0 in an image that is not owner-signed (R517). -/
def imgHeaderBad (bs : List Byte) : Bool :=
  decide (beAt bs 0 4 ≠ 0x535A3849) || decide (beAt bs 4 1 ≠ 1) || decide (0xC00000 < imgLen bs) || decide (imgNsec bs < 1)
    || decide (64 < imgNsec bs) || decide (64 < imgSvn bs) || decide (3 < (imgFlags bs).toNat) || decide (beAt bs 28 4 ≠ 0)
    || decide (beAt bs 80 176 ≠ 0) || (!bitOf (imgFlags bs) 1 && decide (beAt bs 72 4 ≠ 0)) || (imgEntries bs).any fun e => decide (e.rsvd ≠ 0)

/-- A signature block: a count, that many certificates in the form of R383, and an SM2 signature over a digest under the first
certificate, with the identifier of both blocks; the chain leads to `root` (R520; log entries 21, 174). -/
def sigBlockOk (bs : List Byte) (off len : Nat) (root : BitVec 256) (chain : List Cert) (digest : BitVec 256) : Bool :=
  let b := bytesAt bs off len
  let field := beBytes 2 chain.length ++ certField chain
  match chain with
  | [] => false
  | leaf :: _ => decide (off + len ≤ 0xC00000) && decide (b.length = field.length + 64) && decide (b.take field.length = field)
      && chain.all (fun x => x.sigOk && decide (x.root = root))
      && Config.sm2Verify (Config.sm3 leaf.der) (ascii "SZ8-IMAGE" ++ beBytes 32 digest.toNat) (BitVec.ofNat 512 (beAt b field.length 64))

/-- What the Yupoust signature covers: the SVN byte and the digest of every YUP section in table order (R520). -/
def yupDigest (bs : List Byte) : BitVec 256 :=
  Config.sm3 (beBytes 1 (imgSvn bs) ++ ((imgEntries bs).filter fun e => e.sflags % 2 = 1).flatMap fun e => beBytes 32 e.digest)

/-- What the owner signature covers: header bytes 0–63 and the section table (R520). -/
def ownerDigest (bs : List Byte) : BitVec 256 := Config.sm3 (bytesAt bs 0 64 ++ imgTable bs)

/-- Reason 0x06, but for the digests: a section leaves the slot or overlaps another, or SFLAGS breaks R518. -/
def imgLayoutBad (bs : List Byte) : Bool :=
  let es := imgEntries bs
  (es.any fun e => decide (0xC00000 < e.off + e.len) || decide (e.sflags ≠ if e.typ = 1 ∨ e.typ = 2 then 1 else 0))
    || (List.range es.length).any fun i => (List.range i).any fun j =>
      let x := lget default es i
      let y := lget default es j
      decide (x.off < y.off + y.len) && decide (y.off < x.off + x.len) && decide (0 < x.len) && decide (0 < y.len)

/-- Reason 0x06: TBL_DIGEST or a section's digest differs. -/
def imgDigestBad (bs : List Byte) : Bool :=
  decide ((Config.sm3 (imgTable bs)).toNat ≠ beAt bs 32 32) || (imgEntries bs).any fun e => decide ((Config.sm3 (e.data bs)).toNat ≠ e.digest)

/-- Reason 0x07: HUB_FW is missing, or one of the channels lacks CH_FW, CH_REGS, TUNING, TRUST or SITE. -/
def imgIncomplete (bs : List Byte) (chs : List Nat) : Bool :=
  ((imgEntries bs).all fun e => decide (e.typ ≠ 1))
    || chs.any fun n => [2, 0x10, 0x12, 0x13, 0x14].any fun t => (sectionFor bs t n).isNone

/-- Reason 0x08: a TRUST section names a root that differs from a fused root. -/
def imgTrustBad (b : HubBoot) (bs : List Byte) : Bool :=
  (imgEntries bs).any fun e => decide (e.typ = 0x13) &&
    (decide (beAt (e.data bs) 0 32 ≠ b.yupRoot.toNat) || match b.ownerRoot with
      | some r => decide (beAt (e.data bs) 32 32 ≠ r.toNat)
      | none => false)

/-- R521: the reason of the first check that an image fails; 0 when it passes all. `chs` are the present channels. -/
def Hub.imageReason (h : Hub) (chs : List Nat) (i : ImageIn) : Nat :=
  match i.slot with
  | none => 1
  | some bs =>
    if imgHeaderBad bs then 1
    else if h.caps &&& BitVec.ofNat 32 (beAt bs 16 4) ≠ BitVec.ofNat 32 (beAt bs 12 4) then 2
    else if imgSvn bs < h.boot.fuseSvn then 3
    else if !sigBlockOk bs (beAt bs 64 4) (beAt bs 68 4) h.boot.yupRoot i.yupChain (yupDigest bs) then 4
    else if (match h.boot.ownerRoot with
      | some r => !(bitOf (imgFlags bs) 1 && sigBlockOk bs (beAt bs 72 4) (beAt bs 76 4) r i.ownerChain (ownerDigest bs))
      | none => false) then 5
    else if imgLayoutBad bs || imgDigestBad bs then 6
    else if imgIncomplete bs chs then 7
    else if imgTrustBad h.boot bs then 8
    else 0

/-! ### Sections (R518, R519) -/

/-- Register records: OFFSET and VALUE, 8 bytes each; bytes after the last whole record say nothing (R519; log entry 174). -/
def regRecords (bs : List Byte) : List (BitVec 32 × Word) :=
  (List.range (bs.length / 8)).map fun i => (BitVec.ofNat 32 (beAt bs (8 * i) 4), BitVec.ofNat 32 (beAt bs (8 * i + 4) 4))

/-- The tables of TUNING, 16 entries of 12 bits in 2 bytes each: the 76 rings', then those of the comb and the DAC pairs (R351, R518). -/
def tuningTables (bs : List Byte) : List (List (BitVec 12)) :=
  (List.range (bs.length / 32)).map fun t => (List.range 16).map fun i => BitVec.ofNat 12 (beAt bs (32 * t + 2 * i) 2)

/-- What SITE, TRUST and CAL give a channel, and the certificates of its security domain (R383, R518). -/
def imgSealed (x : ChanImg) : Sealed :=
  { site := BitVec.ofNat 8 (beAt x.site 0 1), peerSite := BitVec.ofNat 8 (beAt x.site 1 1), coord := BitVec.ofNat 40 (beAt x.site 4 5)
    cpList := (List.range (beAt x.site 11 1)).map fun i => BitVec.ofNat 40 (beAt x.site (12 + 8 * i) 5)
    certs := x.certs, certDigest := x.certDigest
    yupRoot := BitVec.ofNat 256 (beAt x.trust 0 32), ownerRoot := BitVec.ofNat 256 (beAt x.trust 32 32)
    deny := (List.range (beAt x.trust 64 1)).map fun i => BitVec.ofNat 160 (beAt x.trust (68 + 20 * i) 20)
    cal := (List.range (x.cal.length / 4)).map fun i => BitVec.ofNat 32 (beAt x.cal (4 * i) 4) }

/-- SM3 of a channel's CH_FW, and of its sections (R426, R528; log entry 174). -/
def imgFw (x : ChanImg) : BitVec 256 := Config.sm3 x.fw
def imgSec (x : ChanImg) : BitVec 256 := Config.sm3 (x.regs ++ x.tuning ++ x.trust ++ x.site ++ x.cal)

/-- What an accepted image gives channel `n` (R518). -/
def imgChan (i : ImageIn) (n : Nat) : ChanImg :=
  let bs := i.slot.getD []
  let get (t : Nat) : List Byte := (sectionFor bs t n).getD []
  let dev := vget i.devs n
  { fw := get 2, regs := get 0x10, tuning := get 0x12, trust := get 0x13, site := get 0x14, cal := get 0x15, certs := dev.1, certDigest := dev.2 }

/-- MOD_REGS and HUB_FW of an accepted image. -/
def imgOfType (i : ImageIn) (t : Nat) : List Byte :=
  let bs := i.slot.getD []
  (((imgEntries bs).find? fun e => e.typ = t).map (Entry.data bs)).getD []

end Sys2Proof.Machine
end

