-- ==== Sys2Proof/Machine/Resume.lean ====
section
/-! DEFINITION. The resume of keys after a recovery (Line Encryption and Keys, R404). -/

namespace Sys2Proof.Machine

open Sys2Proof

/-- The body of KA_RESUME and KA_RESUME_ACK: an epoch and the sender's next TSEQ (R383). -/
def Chan.resumeBody (c : Chan) (e : Epoch) : List Byte := e.num :: beBytes 6 c.line.tseq

/-- The first KA_RESUME of a channel that holds an active epoch. -/
def Chan.startResume (c : Chan) : Chan :=
  match c.sec.cur with
  | some e =>
    let body := c.resumeBody e
    let c := c.modSec fun s => { s with phase := .resuming, resumeUs := some c.us, repeating := some (0x20, body), repeatUs := c.us }
    c.sendKey 0x20 body (some false)
  | none => c

/-- A received TXSEQ, less 1, is taken as a TXHI (R329, R404). -/
def Chan.takeTxseq (c : Chan) (t : BitVec 48) : Chan := c.advance ((t.toNat + tsMod - 1) % tsMod)

/-- The resume fails: KA_ABORT with reason 0x0A, and a full agreement follows. -/
def Chan.resumeFail (c : Chan) : Chan :=
  let c := (c.sendKey 0x3F [0x0A] none).count 0xA00094
  (c.dropKa.holdKa 0x0A).raise { ev := .secResumeFail, plane := .control }

/-- KA_RESUME: answered when it unseals and names the current epoch; unanswered when it names the previous one within its window. -/
def Chan.kaResume (c : Chan) (h : SealHdr) (num : BitVec 8) (txseq : BitVec 48) : Chan :=
  let r := (c.takeTrib 2 0x20).accept 2 h
  if r.1 then
    match r.2.sec.cur with
    | some e =>
      if num = e.num then (r.2.takeTxseq txseq).sendKey 0x21 (r.2.resumeBody e) (some false)
      else if r.2.sec.prev.any fun p => decide (p.num = num) then r.2
      else r.2.resumeFail
    | none => r.2.resumeFail
  else if secHolds c.sec h && h.tagOk then r.2
  else r.2.resumeFail

/-- KA_RESUME_ACK at the end that resumes: the exchange is complete when it names the current epoch. -/
def Chan.kaResumeAck (c : Chan) (num : BitVec 8) (txseq : BitVec 48) : Chan :=
  match c.sec.resumeUs, c.sec.cur with
  | some _, some e =>
    if num ≠ e.num then c
    else
      ((c.modSec fun s => { s with
        resumeUs := none, phase := if s.rekey.isSome then .rekeying else .service,
        repeating := match s.repeating with | some (0x20, _) => none | x => x }).takeTxseq txseq).raise { ev := .secResume, plane := .control }
  | _, _ => c

/-- RESUME_TIMEOUT: no answer 2 × RTT + 100 ms after the first KA_RESUME. -/
def Chan.resumeTimeout (c : Chan) : Chan :=
  match c.sec.resumeUs with
  | some t => if t + 2 * c.rttUs + 100000 < c.us then c.resumeFail else c
  | none => c

def execKaResume (ch : Fin 8) (h : SealHdr) (num : BitVec 8) (txseq : BitVec 48) (s : State) : Out :=
  done (onLive ch (fun c => c.kaResume h num txseq) s)
def execResumeTimeout (ch : Fin 8) (s : State) : Out := done (onLive ch Chan.resumeTimeout s)

end Sys2Proof.Machine
end

