-- ==== Sys2Proof/Machine/Boot.lean ====
section
/-! DEFINITION. Start-up, recovery and cold restart of a channel, as operations of the channel (Bring-Up, Reset and Recovery,
R514–R540). The commands stand in Machine/BootCmd.lean. -/

namespace Sys2Proof.Machine

open Sys2Proof

/-- The channel with its boot state changed. -/
def Chan.modBoot (c : Chan) (f : Boot → Boot) : Chan := { c with boot := f c.boot }

/-- A start-up step begins. -/
def Chan.atPhase (c : Chan) (p : Nat) : Chan := c.modBoot fun b => { b with phase := p, late := false, stepUs := c.us }

/-- The channel stops at the step that found a fault: PHASE held, optics dark (R526). -/
def Chan.holdAt (c : Chan) (e : Ev) : Chan := (c.optDark.atPhase 9).raise { ev := e, plane := .management }

/-- PHASE out of service, optics dark; a line that was UP goes down with its events and notices (R310, R472, R536, R537). -/
def Chan.leaveService (c : Chan) : Chan :=
  let c := if c.line.state = .up then c.lineDown .rxUp else c
  let c := c.optDark.atPhase 10
  c.modBoot fun b => { b with recov := none }

/-! ### Start-up (R519, R525–R528) -/

/-- Register records of CH_REGS applied in order; none when one names no register with an RWS field, or a register of an absent matrix
engine (R519, R526). -/
def Chan.applyRecords (c : Chan) (mtx : Bool) : List (BitVec 32 × Word) → Option Chan
  | [] => some c
  | (off, w) :: rest =>
    let absent := !mtx && decide (0x600000 ≤ off.toNat) && decide (off.toNat < 0x700000)
    match chanRow off.toNat with
    | some r =>
      if r.rws = 0 || absent then none
      else (c.setReg off.toNat (r.store false (c.reg off.toNat) w)).applyRecords mtx rest
    | none => none

/-- R437: SRC reserved, ALT equal to SRC, or MOD_SRC naming this channel while it follows MODULE, or an absent one. -/
def Chan.timeBad (c : Chan) (ch modSrc : Nat) (modPresent : Bool) : Bool :=
  let src := fld (c.reg 0xC00004) 31 30
  let alt := fld (c.reg 0xC00004) 29 28
  decide (src = 0) || decide (src = 3) || decide (alt = src) || (decide (modSrc = 8 + ch) && (decide (src = 1) || decide (alt = 1)))
    || (decide (8 ≤ modSrc) && !modPresent)

/-- R112: reserves beyond a pool's buffers, or a slot share below 64. -/
def Chan.poolBad (c : Chan) : Bool :=
  (List.range 4).any fun p => decide (poolBufs p < c.sysRes p + 64 * c.ctxRes p + 64)

/-- Size ranges of regions 0–7 in units of 256 MiB, and whether the region is mirrored (R122). -/
def regionRanges : List (Nat × Nat × Bool) := [(4, 128, false), (4, 128, false), (4, 192, false), (0, 192, false), (0, 192, false),
  (2, 16, true), (2, 8, true), (0, 32, false)]

/-- Bytes that the retransmission store must hold (R125). -/
def Chan.rtxLeast (c : Chan) : Nat :=
  let rttMax := 9800 * lget 1000 [40, 120, 400, 1000] (fld (c.reg 0x90000C) 15 12) + 100000
  (2 * rttMax + 1000 * fld (c.reg 0x80000C) 31 16) * 4375 / 16

/-- R123, R125, R128: a region out of its size range, a mirrored size that is no multiple of 512 MiB, an overlap, a reach into region 8,
a retransmission store below its minimum, or bandwidth shares out of their bounds. Bases and sizes are held in units of 256 MiB. -/
def Chan.layoutBad (c : Chan) : Bool :=
  let rows := (List.range 9).map fun r => (c.regionBase r / 268435456, c.regionSize r / 268435456)
  let bad (i : Nat) : Bool :=
    let x := lget (0, 0) rows i
    let l := lget (0, 0, false) regionRanges i
    decide (x.2 < l.1) || decide (l.2.1 < x.2) || (l.2.2 && decide (x.2 % 2 ≠ 0)) || decide ((lget (0, 0) rows 8).1 < x.1 + x.2)
      || (decide (0 < x.2) && (List.range i).any fun j =>
        let y := lget (0, 0) rows j
        decide (0 < y.2) && decide (x.1 < y.1 + y.2) && decide (y.1 < x.1 + x.2))
  let bw := c.reg 0x300020
  (List.range 8).any bad || decide (c.regionSize 0 < c.rtxLeast) || decide (fld bw 31 24 < 69)
    || decide (144 < fld bw 31 24 + fld bw 23 16 + fld bw 15 8 + fld bw 7 0)

/-- The sections of an image given to the channel (step 2): records, SITE, tuning tables. `hold`: it then waits for BOOT_REL (R514). -/
def Chan.loadImage (c : Chan) (mtx : Bool) (ch modSrc : Nat) (modPresent hold : Bool) (img : ChanImg) : Chan :=
  match c.applyRecords mtx (regRecords img.regs) with
  | none => c.holdAt .bootCfgBad
  | some c =>
    let tables := tuningTables img.tuning
    let rings := ((tables.take 76).zipIdx).foldl (fun (v : Vector Ring 76) (p : List (BitVec 12) × Nat) =>
      vset v p.2 { (vget v p.2) with codes := p.1 }) c.opt.rings
    let c := { (c.modOpt fun o => { o with rings := rings, combTables := tables.drop 76 }) with cfg := imgSealed img }
    let c := c.modBoot fun b => { b with loadFw := imgFw img, loadSec := imgSec img }
    if c.timeBad ch modSrc modPresent then c.holdAt .timeCfgBad
    else if hold then c.modBoot fun b => { b with hold := true }
    else c.atPhase 2

/-- The first instant after now that is a multiple of a period in ns. -/
def nextMultiple (now p : Nat) : Nat := (now / max 1 p + 1) * p

/-- The periodic trigger slots are armed (R457). -/
def Chan.armPeriodic (c : Chan) : Chan :=
  let arm (c : Chan) (j p : Nat) : Chan :=
    c.setSlot j { vget c.time.slots j with at_ := nextMultiple c.now p, period := p, armed := true, fired := false }
  arm (arm (arm c 3 1000000000) 4 10000000) 14 (fld (c.reg 0xC00030) 31 24 * 1000000)

/-- Units that fail a self-test are fenced under *Unit health*; a cipher pipeline that fails its known answers raises SEC_KAT_FAIL too
(R403, R536). -/
def Chan.fenceFailed (c : Chan) (us : List (Fin 8 × Fin 64)) : Chan :=
  us.foldl (fun (c : Chan) u =>
    let c := c.raiseIf (u.1.val == 1 || u.1.val == 2) { ev := .secKatFail, plane := .control, uclass := u.1.val, unit := u.2.val, scope := u.2.val }
    c.requestFence u.1.val u.2.val) c

/-- The management cores after their self-tests; a permanently fenced core is not started (R539, R540). None: no core passes. -/
def Chan.startCores (c : Chan) (core0 core1 : Bool) : Option Chan :=
  let ok0 := core0 && decide ((c.unit 5 0).st ≠ .permanent)
  let ok1 := core1 && decide ((c.unit 5 1).st ≠ .permanent)
  if ok0 || ok1 then some (c.modBoot fun b => { b with core := !ok0, spareOk := ok0 && ok1, ckptMs := none }) else none

/-- The noise source after its tests (R402). -/
def Chan.noise (c : Chan) (ok : Bool) : Chan :=
  c.modSec fun x => { x with rngOk := ok, rngFailUs := if ok then none else some c.us, rngStop := false }

/-- Every fabric port begins to train (R70). -/
def Chan.trainPorts (c : Chan) : Chan :=
  { c with fab := { c.fab with ports := c.fab.ports.map fun x => { x with state := .training, attempt := 1, trainDue := true } } }

/-- Every fabric port retrains (R70, R535). -/
def Chan.retrainPorts (c : Chan) : Chan := (List.range 4).foldl (fun (c : Chan) p => c.retrain p none) c

/-- PPR_CFG.HARD at start-up: hard repair of each listed row that can take it; it survives power-off (R134). -/
def Chan.hardRepair (c : Chan) (units : List Nat) (hardRows : List (BitVec 25)) : Chan :=
  if bitOf (c.reg 0x300054) 0 then
    c.modMem fun m => { m with hard := (m.hard ++ units.filter fun u => (hardRows.map BitVec.toNat).contains u).eraseDups }
  else c

/-- The retired units of the sealed history: those that neither soft nor hard repair took have their remap entry made again, and units of
region 8 among them are used no more (R133, R134). -/
def Chan.restoreRetired (c : Chan) (units : List Nat) (repaired : List (BitVec 25)) : Chan :=
  let todo := units.filter fun u => !(repaired.map BitVec.toNat).contains u && !c.mem.hard.contains u
  let inReserve (u : Nat) : Bool := decide (c.reserveUnits.1 ≤ u)
  let c := c.modMem fun m => { m with worn := m.worn ++ todo.filter inReserve }
  (todo.filter fun u => !inReserve u).foldl (fun (c : Chan) u => c.putRetired u c.spareUnit) c

/-- MIN_FREE of every pool begins at the end of self-test (R142). -/
def Chan.poolsTested (c : Chan) : Chan :=
  c.modMem fun m => { m with pools := Vector.ofFn fun p : Fin 4 => { m.pools[p] with minFree := poolBufs p - m.pools[p].bufs.length } }

/-- Step 3, self-test. -/
def Chan.startStep3 (c : Chan) (f : StepFacts) : Chan :=
  if c.poolBad then c.holdAt .poolShareBad
  else if !f.stagesOk then c.leaveService
  else match c.startCores f.core0 f.core1 with
    | none => c.leaveService.raise { ev := .bootOutOfService, plane := .management }
    | some c => ((((c.fenceFailed f.badUnits).noise f.rngOk).armPeriodic).trainPorts.poolsTested.atPhase 3).modBoot fun b => { b with tested := true }

/-- Step 4, LPDDR6. -/
def Chan.startStep4 (c : Chan) (f : StepFacts) (units : List Nat) : Chan :=
  if c.layoutBad then c.holdAt .memLayoutBad
  else
    let c := c.modMem fun m => { m with chUp := f.trained }
    if f.trained ≠ BitVec.allOnes 16 then (c.modMem fun m => { m with phase := .failed }).leaveService.raise { ev := .memTrainFail }
    else (((c.hardRepair units f.hardRows).restoreRetired units f.repaired).modMem fun m => { m with phase := .up, clean := false }).atPhase 4

/-- Step 5: a channel whose LASER_EN_N is high waits with its combs off (R612). -/
def Chan.startStep5 (c : Chan) (laserEnN : Bool) : Chan :=
  if c.planBad then c.holdAt .optPlanBad else if laserEnN then c else c.lightUp

/-- FULL_TRAINING_DONE: `up` are the LPDDR6 channels that have trained; the exit goes on, or the channel stays out of service (R139). -/
def Chan.fullDone (c : Chan) (up : BitVec 16) : Chan :=
  if c.mem.phase ≠ .fullTraining then c
  else
    let c := c.modMem fun m => { m with chUp := up }
    if up = BitVec.allOnes 16 then c.memMeta
    else (c.modMem fun m => { m with phase := .failed }).leaveService.raise { ev := .memTrainFail }
def execFullTrainingDone (ch : Fin 8) (up : BitVec 16) (s : State) : Out := done (onChan ch (fun c => c.fullDone up) s)

/-- Steps 3 to 5 run one after another as far as they end within their bounds. -/
def Chan.runSteps (c : Chan) (f : StepFacts) (units : List Nat) (laserEnN : Bool) : Chan :=
  let c := if c.boot.phase = 2 ∧ 3 ≤ f.ends then c.startStep3 f else c
  let c := if c.boot.phase = 3 ∧ 4 ≤ f.ends then c.startStep4 f units else c
  if c.boot.phase = 4 ∧ 5 ≤ f.ends then c.startStep5 laserEnN else c

/-- The check that the values about to be sealed fail, and its event: driver software may have written them since the step that first
tested them (R112, R123, R340, R437, R526, R528). -/
def Chan.sealBad (c : Chan) (ch : Nat) (m : Nat × Bool) : Option Ev :=
  if c.timeBad ch m.1 m.2 then some .timeCfgBad
  else if c.poolBad then some .poolShareBad
  else if c.layoutBad then some .memLayoutBad
  else if c.planBad then some .optPlanBad
  else none

/-- Step 8: every RWS field is sealed, the SM3 of CH_FW and of the sections is recorded, and admission opens (R525, R528). -/
def Chan.seal (c : Chan) : Chan :=
  let edited := c.boot.edited
  let c := (c.atPhase 7).modBoot fun b => { b with
    sealed := true, hostEdit := edited, served := true, fwDigest := b.loadFw, secDigest := b.loadSec }
  (c.raise { ev := .bootSealed, plane := .management }).raiseIf edited { ev := .bootHostEdit, plane := .management }

/-- Steps 6 and 7 end: once the lane map is in force, and once epoch 0x00 is active. `ch` is the channel's number, `m` what MOD_SRC names. -/
def Chan.goOnStart (c : Chan) (ch : Nat) (m : Nat × Bool) : Chan :=
  let c := c.step6Ends
  if c.boot.phase = 6 ∧ c.sec.cur.isSome ∧ c.sec.phase = .service then
    match c.sealBad ch m with
    | some e => c.holdAt e
    | none => c.seal
  else c

/-- Bounds of the start-up steps by PHASE, µs; with PPR_CFG.HARD step 4 has one more second for each row it may repair (R134, R525). -/
def Chan.startBound (c : Chan) (rows : Nat) : Nat :=
  if c.boot.phase = 3 ∧ bitOf (c.reg 0x300054) 0 then 400000 + 1000000 * rows
  else if c.boot.phase = 5 then 1400000 + 3 * c.rttUs else lget 10000 [150000, 150000, 300000, 400000, 2000000, 0, 50000] c.boot.phase

/-! ### Recovery (R529–R537) -/

/-- Recoveries of the trailing 10 minutes. -/
def Chan.recentRecovs (c : Chan) : List Nat := c.boot.recovs.filter fun t => c.ms < t + 600000

/-- The line is not UP at the recovering end; when it is not held its receivers start again (R533, R534, R365). -/
def Chan.leaveLine (c : Chan) (held : Bool) : Chan :=
  let was := decide (c.line.state = .up)
  let c := if was then (c.raise { ev := .lineDown }).optLineDown else c
  let c := c.setStall true
  if held then c.modLine fun l => { l with state := if was then .rxUp else l.state, bdiRun := 0 }
  else c.modLine fun l => { l with
    state := .downLof, oof := true, oofUs := c.us, bdiRun := 0, lastRx := none, bipRx := none,
    lanes := l.lanes.map fun x => { x with align := .hunt, good := 0, bad := 0 } }

/-- Step 1: a recovery starts (R533, R535). -/
def Chan.startRecovery (c : Chan) (cause det : Nat) (held : Bool) : Chan :=
  let c := c.modBoot fun b => { b with
    phase := 8, cause := cause, held := held, recov := some { stepUs := c.us, startUs := c.us }, recovs := c.recentRecovs ++ [c.ms] }
  (c.leaveLine held).raise { ev := .bootRecov, plane := .management, value := cause, unit := det }

/-- The framer, the FEC and the line are the cause: the line is not held (R533). -/
def lineDet (det : Nat) : Bool := decide (10 ≤ det) && decide (det ≤ 12)

/-- A cause of recovery (R532): in service it starts one, unless RECOV_MAX of them have come within 10 minutes (R537); during a recovery,
in start-up and out of service it starts none (R538). -/
def Chan.recover (c : Chan) (cause det : Nat) : Chan :=
  if c.boot.phase ≠ 7 then c
  else if fld (c.reg 0xC) 7 0 ≤ c.recentRecovs.length then
    let c := c.modBoot fun b => { b with cause := cause, recovs := c.recentRecovs ++ [c.ms] }
    c.leaveService.raise { ev := .bootOutOfService, plane := .management }
  else c.startRecovery cause det (!lineDet det)

/-- A detector trips: counted and recorded, and the cause of a recovery (R531, R538). -/
def Chan.trip (c : Chan) (det cause : Nat) : Chan :=
  let c := ((c.modBoot fun b => { b with det := det }).count 0xA8).raise { ev := .bootHang, plane := .management, value := det, unit := det }
  c.recover cause det

/-- Detectors run from the end of self-test (R531). -/
def Chan.watched (c : Chan) : Bool := decide (3 ≤ c.boot.phase) && decide (c.boot.phase ≤ 8)

/-- Working copies of the talus are discarded (R221). -/
def dropWorking (x : Extent) : Extent :=
  if x.commit then { x with lower := [], qLower := [], maskLo := 0, seedLo := 0 } else { x with upper := [], qUpper := [], maskHi := 0, seedHi := 0 }

/-- Step 3: what a recovery clears (R529): the data path, contexts and pending tables, staging, held packets and queued objects, talus
working copies, matrix descriptors, the control sequencer and the cores. Elements that the line receiver held are found holes. -/
def Chan.resetPath (c : Chan) : Chan :=
  let gone := c.inProgress
  let c := c.modLine fun l => { l with rxq := [], parser := {} }
  let c := gone.foldl (fun (c : Chan) t => c.dropped t) c
  let c := c.modLine fun l => { l with
    stream := [], elem3 := none, inSusp := false, waiting := [], awaited := []
    rtx := l.rtx.map fun r => { r with queued := false } }
  let pend := (List.range 16).filter fun k => (c.slot k).pend.isSome && decide ((c.slot k).mode = .free)
  let c := pend.foldl (fun (c : Chan) k => c.unreserve k) c
  { c with
    ctrl := { c.ctrl with seqIn := [], peerIn := [], notices := [] }
    fab := { c.fab with ports := Vector.replicate 4 {}, tails := [], held := [], fences := [], emitted := [], nackIn := [], nackRuns := [] }
    mem := { c.mem with pools := c.mem.pools.map fun p => { p with bufs := [] }, waiters := [], rereads := [] }
    col := { c.col with ctxs := [], pending := [], inq := [] }
    codec := { c.codec with packQ := [], expQ := [], extents := c.codec.extents.map dropWorking }
    mtx := {}
    sch := { rline := c.sch.rline, peerNet := c.sch.peerNet, pol := c.sch.pol, sysPol := c.sch.sysPol }
    prov := { c.prov with backlog := [] }
    boot := { c.boot with dmaQ := [], ckptMs := none } }

/-- A step of the recovery begins. -/
def Chan.atStep (c : Chan) (k : Nat) : Chan :=
  c.modBoot fun b => { b with recov := b.recov.map fun r => { r with step := k, stepUs := c.us } }

/-- Step 10: BDI clears, scheduler, control sequencer and admission open, and PATH_UP goes out for each occupied slot (R534, R535). A
line that has been in frame with the peer's BDI clear for eight frames is UP at once. -/
def Chan.serve (c : Chan) : Chan :=
  let c := (c.atPhase 7).modBoot fun b => { b with recov := none }
  let c := (c.count 0xA0).raise { ev := .bootRecovDone, plane := .management }
  if c.line.state = .rxUp ∧ 8 ≤ c.line.bdiRun ∧ !c.line.bdiRx then (c.modLine fun l => { l with bdiRun := 0 }).lineUp
  else (c.modLine fun l => { l with bdiRun := 0 }).pathNotices 2 c.peerSite .partPathUp

/-- Step 9 has ended: keys agree again (R404, R535). -/
def Chan.serveIf (c : Chan) : Chan :=
  match c.boot.recov with
  | some r => if c.boot.phase = 8 ∧ r.step = 9 ∧ c.sec.cur.isSome ∧ c.sec.resumeUs.isNone ∧ c.sec.phase = .service then c.serve else c
  | none => c

/-- Step 9: KA_RESUME, or a full agreement when no epoch was active (R404). -/
def Chan.beginResume (c : Chan) : Chan := if c.sec.cur.isSome then (c.atStep 9).startResume else c.atStep 9

/-- Step 8 has ended: the receive direction is RX_UP (R535). -/
def Chan.relockEnd (c : Chan) : Chan :=
  match c.boot.recov with
  | some r =>
    if r.relockUs.isSome ∧ c.line.state = .rxUp then c.modBoot fun b => { b with recov := some { r with relocked := true } } else c
  | none => c

/-- CHANNEL_RECOVERY: the running step ends when it is complete, and the next one begins (R535, R536). -/
def Chan.recoveryStep (c : Chan) (f : RecovFacts) (laserEnN : Bool) : Chan :=
  let c := c.relockEnd
  match c.boot.recov with
  | none => c
  | some r =>
    match r.step with
    | 1 => c.atStep 2
    | 2 => match c.mem.phase with
      | .up => c
      | .entering _ => c
      | _ => c.atStep 3
    | 3 =>
      let c := c.resetPath.atStep 4
      let dark := c.opt.safeTrip || !c.boot.held
      let c := c.modOpt fun o => { o with safeTrip := false }
      let c := if dark && !laserEnN then c.optRelight else c
      if c.boot.held then c else c.modBoot fun b => { b with recov := b.recov.map fun r => { r with relockUs := some c.us } }
    | 4 =>
      if c.hubLost then c
      else if imgFw f.img = c.boot.fwDigest ∧ imgSec f.img = c.boot.secDigest then c.atStep 5
      else c.leaveService.raise { ev := .bootImageChanged, plane := .management }
    | 5 =>
      if !f.stagesOk then c.leaveService
      else match c.startCores f.core0 f.core1 with
        | none => c.leaveService.raise { ev := .bootOutOfService, plane := .management }
        | some c => (((c.fenceFailed f.badUnits).noise f.rngOk).poolsTested).atStep 6
    | 6 => match c.mem.phase with
      | .up => c.retrainPorts.atStep 7
      | .off => c.modMem fun m => { m with phase := .fullTraining }
      | .failed => c.modMem fun m => { m with phase := .fullTraining }
      | _ => c
    | 7 =>
      let trained := c.fab.ports.toList.all fun x => decide (x.state = .up) || decide (x.state = .down)
      if trained ∧ (c.boot.held ∨ r.relocked) then c.beginResume else c
    | _ => c.serveIf

/-- Bounds of the steps of a recovery, µs; step 9 is bounded by R404 and by the total (R535). -/
def recovBound (k : Nat) : Nat := lget 0 [0, 10, 200, 1000, 150000, 300000, 522010, 1200] k

/-- A step has run past twice its bound (R531). -/
def Chan.recovLate (c : Chan) : Bool :=
  match c.boot.recov with
  | some r =>
    (decide (r.step ≤ 7) && decide (r.stepUs + 2 * recovBound r.step < c.us))
      || (!r.relocked && (match r.relockUs with | some t => decide (t + 5000000 < c.us) | none => false))
  | none => false

/-! ### Cold restart (R529, R530, R537) -/

/-- Nothing of the channel is kept but what its security domain last held for attestation (R426), and that sealing of its area has stopped
(R592); ticks go on. -/
def Chan.wiped (c : Chan) : Chan :=
  let sig := if c.prov.lastSig.isEmpty then c.boot.sigDigest else Config.sm3 c.prov.lastSig
  { us := c.us, ms := c.ms, crystal := c.crystal, hubLost := c.hubLost, mem := { hard := c.mem.hard },
    evr := { sealStop := c.evr.sealStop },
    boot := { fwDigest := c.boot.fwDigest, secDigest := c.boot.secDigest, sigDigest := sig } }

/-- The recorder that is to be sealed before its ring is cleared: a seal of it runs or waits, and the hub is there to run it (R593). -/
def Chan.toSeal (c : Chan) : Option OldEvr :=
  if !c.hubLost && (c.evr.sealReq || c.evr.sealing.isSome) then
    some { r := { c.evr with hist := [] }, cfg := c.reg 0xE00004, since := c.ms } else none

/-- A cold restart starts: the channel is cleared, COLD_CNT counts it after the clearing (R529, R530, R548). -/
def Chan.coldStart (c : Chan) (cause : Nat) : Chan :=
  let c := ({ c.wiped with oldEvr := c.toSeal }.atPhase 11).modBoot fun b => { b with cause := cause, det := if cause = 6 then 0x13 else 0x1F }
  (c.count 0xA4).raise { ev := .bootCold, plane := .management, value := cause }

/-- A recovery has failed: BOOT_RECOV_FAIL, and a cold restart (R531, R537). -/
def Chan.recovFail (c : Chan) : Chan := (c.coldStart 6).raise { ev := .bootRecovFail, plane := .management }

end Sys2Proof.Machine
end

