-- ==== Sys2Proof/Machine/BootCmd.lean ====
section
/-! DEFINITION. The commands of start-up, recovery, power states and the DMA guard (Bring-Up, Reset and Recovery, R514–R548). -/

namespace Sys2Proof.Machine

open Sys2Proof

/-! ### Images (R517–R523) -/

/-- R521: the reason of the first check that an image fails; 0 when it passes all. -/
def State.imageReason (s : State) (i : ImageIn) : Nat := s.hub.imageReason ((List.range 8).filter s.present) i

/-- The hub's boot state changed. -/
def Hub.modBoot (h : Hub) (f : HubBoot → HubBoot) : Hub := { h with boot := f h.boot }

/-- MOD_REGS applied as writes, in order (R519); one that names no register with an RWS field is a violation (R554). -/
def Hub.applyRecords (h : Hub) (rs : List (BitVec 32 × Word)) : Hub :=
  rs.foldl (fun (h : Hub) p =>
    match hubRow p.1.toNat with
    | some r =>
      if r.rws = 0 then h.violate { source := .hubFirmware, ch := 0xFF, kind := .reservedOrAlign, addr := p.1.toNat }
      else h.setReg p.1.toNat (r.store false (h.reg p.1.toNat) p.2)
    | none => h.violate { source := .hubFirmware, ch := 0xFF, kind := .reservedOrAlign, addr := p.1.toNat }) h

/-- A record written directly into the module's sealed area (R523). -/
def Hub.sealDirect (h : Hub) (e : EvtRec) : Hub :=
  let z := openSector 8 (vget h.areas 8) { todo := [e], upto := 0 }
  let a := z.1
  let sec := cget {} a.sectors a.head
  { h with areas := vset h.areas 8 { a with sectors := cput a.sectors a.head { sec with pages := sec.pages ++ [some e] } } }

/-- No image is accepted (R523): BOOT_IMAGE_FAIL is raised and stands in the sealed history at once; every channel stays in reset. -/
def Hub.imageFail (h : Hub) : Hub :=
  let r : Raised := { ev := .bootImageFail, plane := .management }
  let e : EvtRec := { rseq := h.evr.rseq + h.evr.input.length, sev := .fatal, code := evCode .bootImageFail, stamp := h.now,
                      unc := h.gtime.unit.unc.getD 0xFFFFFFFF, ch := 0xFF, reps := 0, body := r }
  (((h.raise r).sealDirect e).modBoot fun b => { b with phase := 3 }).msi 0

/-- LPDDR6 units of the MEM_UNIT_RETIRED records in a channel's sealed area (R133). -/
def Hub.retiredOf (h : Hub) (n : Nat) : List Nat :=
  ((vget h.areas n).sectors.flatMap fun p => p.2.pages.filterMap fun q =>
    match q with | some e => if e.code = retiredCode then some (e.body.addr / 4096) else none | none => none).eraseDups

/-- The channel number that MOD_SRC names, and whether it is present (R437). -/
def State.modSrc (s : State) : Nat × Bool :=
  let m := fld (s.hub.reg 0x200004) 31 28
  (m, decide (8 ≤ m) && s.present (m - 8))

/-- Steps 2 to 5 of one channel (R525). -/
def State.startChan (s : State) (n : Fin 8) (hold : Bool) (img : ChanImg) (f : StepFacts) : State :=
  if !s.present n then s
  else
    let m := s.modSrc
    let c := (s.chan n).atPhase 1
    let c := if 2 ≤ f.ends then c.loadImage (s.mtxPresent n) n m.1 m.2 hold img else c
    s.setChan n (c.runSteps f (s.hub.retiredOf n) s.hub.pwr.laserEnN)

/-- The RWS fields of BAR0 are sealed at the end of start-up: once no populated channel is in a start-up step and one has reached
service (R14; log entry 51). -/
def State.latchSeal (s : State) : State :=
  let chs := (List.range 8).filter s.present
  let ph (n : Nat) : Nat := (vget s.chans n).boot.phase
  if chs.any (fun n => ph n = 7) && chs.all (fun n => decide (7 ≤ ph n)) && !s.hub.boot.sealed then
    s.modHub fun h => h.modBoot fun b => { b with sealed := true }
  else s

/-- An image is accepted: the hub runs its firmware with MOD_REGS applied, and every present channel starts (R514, R519, R522, R525). -/
def State.acceptImage (s : State) (f : StartFacts) (primary : Bool) : State :=
  let i := if primary then f.primary else f.golden
  let bs := i.slot.getD []
  let hold := bitOf f.straps 3
  let s := s.modHub fun h =>
    let h := h.modBoot fun b => { b with
      phase := 2, img := if primary then 0 else 1, imgSvn := imgSvn bs, advance := bitOf (imgFlags bs) 0
      chRel := if hold then 0 else BitVec.ofNat 8 (fld h.caps 15 8), fwDigest := Config.sm3 (imgOfType i 1)
      cfgDigest := Config.sm3 (bs.take (imgLen bs)) }
    (h.applyRecords (regRecords (imgOfType i 0x11))).msi 0
  ((List.finRange 8).foldl (fun (s : State) n => s.startChan n hold (imgChan i n) (vget f.steps n)) s).latchSeal

/-- Straps sampled, images checked, and UNOWNED, BOOT_STRAP_BAD and BOOT_FALLBACK as they apply (R514, R521–R523). -/
def State.powerGoodStart (s : State) (f : StartFacts) : State :=
  let sel := fld f.straps 1 0
  let rp := s.imageReason f.primary
  let rg := s.imageReason f.golden
  let useP := decide (sel ≠ 1) && decide (rp = 0)
  let tryG := decide (sel ≠ 2) && !useP
  let s := s.modHub fun h =>
    let h := h.modBoot fun b => { b with
      straps := f.straps, failP := if sel = 1 then 0 else rp, failG := if tryG then rg else 0, unowned := b.ownerRoot.isNone }
    let h := if sel = 3 then h.raise { ev := .bootStrapBad, plane := .management } else h
    let h := if h.boot.unowned then h.raise { ev := .bootUnowned, plane := .management } else h
    if tryG && decide (sel ≠ 1) then h.raise { ev := .bootFallback, plane := .management } else h
  if useP then s.acceptImage f true
  else if tryG && decide (rg = 0) then s.acceptImage f false
  else s.modHub Hub.imageFail

/-- POWER_GOOD_START: straps, image, and each channel's start-up as far as it goes before the margin test (R514, R521–R525). -/
def execPowerGoodStart (f : StartFacts) (s : State) : Out :=
  done (if s.hub.failed || !s.hub.pwr.pwrgd || decide (s.hub.boot.phase ≠ 0) then s else s.powerGoodStart f)

/-- STARTUP_STEP_LATE: past twice its bound a step of start-up is repeated once, and then stops the channel (R526, R527). The wait for a
peer that has not reached step 6 never does (R525). -/
def execStartupStepLate (ch : Fin 8) (img : ChanImg) (f : StepFacts) (s : State) : Out :=
  let c := s.chan ch
  let p := c.boot.phase
  if !s.present ch || p < 1 || 6 < p || c.boot.hold || (decide (p = 4) && s.hub.pwr.laserEnN) || (decide (p = 5) && !c.peerLit)
    || decide (c.us ≤ c.boot.stepUs + 2 * c.startBound (s.hub.retiredOf ch).length) then done s
  else if c.boot.late then done (s.setChan ch (c.holdAt .bootStepLate))
  else
    let c := (c.raise { ev := .bootStepLate, plane := .management, value := p }).modBoot fun b => { b with late := true, stepUs := c.us }
    let m := s.modSrc
    let c := if p = 1 && decide (2 ≤ f.ends) then c.loadImage (s.mtxPresent ch) ch m.1 m.2 (bitOf s.hub.boot.straps 3) img
      else if p = 5 then c.startMt else if p = 6 then c.dropKa else c
    done ((s.setChan ch (c.runSteps f (s.hub.retiredOf ch) s.hub.pwr.laserEnN)).latchSeal)

/-- BOOT_REL: a write releases held channels, which go on with step 3 (R514, R547). -/
def execBootRel (data : Word) (fs : Vector StepFacts 8) (s : State) : Out :=
  if s.hub.failed then done s
  else
    let free (s : State) (n : Fin 8) : State :=
      let c := s.chan n
      if bitOf data n && s.present n && c.boot.hold then
        let c := (c.modBoot fun b => { b with hold := false }).atPhase 2
        (s.setChan n (c.runSteps (vget fs n) (s.hub.retiredOf n) s.hub.pwr.laserEnN)).modHub fun h =>
          h.modBoot fun b => { b with chRel := putBit b.chRel n true }
      else s
    done ((List.finRange 8).foldl free s)

/-- SVN_FUSE_ADVANCE (R524). -/
def execSvnFuseAdvance (s : State) : Out :=
  let all := ((List.range 8).filter s.present).all fun n => (vget s.chans n).boot.served
  done (onHub (fun h =>
    if all && h.boot.advance && decide (h.boot.phase = 2) && decide (h.boot.fuseSvn < h.boot.imgSvn) then
      h.modBoot fun b => { b with fuseSvn := b.imgSvn }
    else h) s)

/-! ### Detectors (R531, R540) -/

/-- STAGE_HANG: DET 0x01–0x0D, `k` counting from 0. -/
def execStageHang (ch : Fin 8) (k : Fin 13) (s : State) : Out :=
  done (onChan ch (fun c => if c.watched then c.trip (k.val + 1) 1 else c) s)
def execSequencerHang (ch : Fin 8) (s : State) : Out := done (onChan ch (fun c => if c.watched then c.trip 0x10 1 else c) s)
def execLpddr6Hang (ch : Fin 8) (s : State) : Out := done (onChan ch (fun c => if c.watched then c.trip 0x11 1 else c) s)
def execTickMissHang (ch : Fin 8) (s : State) : Out := done (onChan ch (fun c => if c.watched then c.trip 0x12 1 else c) s)

/-- RECOVERY_STEP_LATE: DET 0x13. -/
def execRecoveryStepLate (ch : Fin 8) (s : State) : Out :=
  done (onChan ch (fun c => if c.boot.phase = 8 ∧ c.recovLate then c.recovFail else c) s)

/-- CORE_WATCHDOG: DET 0x18, whose event is charged to the hung core (R498), and a core swap (R539). `ok`: the hung core passes its self-test. With no
spare neither core can be active, and DET 0x14 trips (R540). -/
def execCoreWatchdog (ch : Fin 8) (ok : Bool) (s : State) : Out :=
  done (onChan ch (fun c =>
    if !c.watched then c
    else
      let hung := c.boot.core.toNat
      let c := ((c.modBoot fun b => { b with det := 0x18 }).count 0xA8).raise
        { ev := .bootCoreHang, plane := .management, value := 0x18, uclass := 5, unit := hung }
      let c := if ok then c else (c.count 0xD00050).charge 5 hung 700
      if c.boot.spareOk then
        ((c.modBoot fun b => { b with core := !b.core, spareOk := ok }).count 0xAC).raise
          { ev := .bootCoreSwap, plane := .management, uclass := 5, unit := 1 - hung }
      else c.trip 0x14 4) s)

/-- CORES_LOST: DET 0x14 (R540). -/
def execCoresLost (ch : Fin 8) (s : State) : Out := done (onChan ch (fun c => if c.watched then c.trip 0x14 4 else c) s)

/-- CORE_CHECKPOINT, every CKPT_MS (R539). -/
def execCoreCheckpoint (ch : Fin 8) (s : State) : Out :=
  done (onLive ch (fun c =>
    let due := match c.boot.ckptMs with | some t => decide (t + fld (c.reg 0xC) 15 8 ≤ c.ms) | none => true
    if due then c.modBoot fun b => { b with ckptMs := some c.ms } else c) s)

/-- HUB_WATCHDOG: hub firmware, the host port and the root-of-trust sessions are reset (R529, R531). -/
def execHubWatchdog (s : State) : Out :=
  done (onHub (fun h =>
    let h := { h.portReset with spdm := { slot0 := h.spdm.slot0, slot1 := h.spdm.slot1 } }
    h.raise { ev := .bootHubReset, plane := .management }) s)

/-! ### Recovery and cold restart (R532–R538) -/

/-- COLD: a keyed write of COLD; it ends a recovery that runs (R538). -/
def Chan.cold (c : Chan) : Chan := if c.boot.phase = 0 ∨ c.boot.phase = 11 then c else c.coldStart 2

/-- RETURN: a keyed write of RETURN; a channel out of service recovers (R537). Its optics are dark, so no line is held. -/
def Chan.comeBack (c : Chan) : Chan := if c.boot.phase = 10 then c.startRecovery 2 c.boot.det false else c

/-- FIRMWARE_RECOVER_REQUEST of a channel's own firmware (R532). -/
def execFirmwareRecoverRequest (ch : Fin 8) (s : State) : Out := done (onChan ch (fun c => c.recover 3 0x1F) s)

/-- CHANNEL_RECOVERY: the recovery takes its next step when the one that runs is complete (R535, R536). -/
def execChannelRecovery (ch : Fin 8) (f : RecovFacts) (s : State) : Out :=
  done (onChan ch (fun c => if c.boot.phase = 8 then c.recoveryStep f s.hub.pwr.laserEnN else c) s)

/-- KA_RESUME_ACK: the resume is complete, and the recovery reaches service (R404, R535). -/
def execKaResumeAck (ch : Fin 8) (h : SealHdr) (num : BitVec 8) (txseq : BitVec 48) (s : State) : Out :=
  done (onLive ch (fun c => c.onSealed 2 0x21 h fun c => (c.kaResumeAck num txseq).serveIf) s)

/-- RECOVERY_TIMEOUT: 4 s after its cause a recovery that has not reached service becomes a cold restart (R537). -/
def execRecoveryTimeout (ch : Fin 8) (s : State) : Out :=
  done (onChan ch (fun c =>
    match c.boot.recov with
    | some r => if c.boot.phase = 8 ∧ r.startUs + 4000000 < c.us then c.recovFail else c
    | none => c) s)

/-- The pending seal of a channel before its cold restart still runs, within its 10 s (R593). -/
def Chan.oldRuns (c : Chan) : Bool := match c.oldEvr with | some r => decide (c.ms ≤ r.since + 10000) | none => false

/-- What a cold restart left unsealed after its 10 s is dropped, and the seal that ran is over (R593). -/
def State.dropOld (s : State) (ch : Fin 8) : State :=
  if (s.chan ch).oldEvr.isNone then s
  else (s.setChan ch { s.chan ch with oldEvr := none }).stopSeal ch

/-- COLD_RESTART: a cleared channel, or one held in reset by a cutout whose cause is gone, runs start-up from step 2; the hub's boot
reader is needed, and a pending seal of the channel runs first (R20, R21, R529, R593, R616). -/
def execColdRestart (ch : Fin 8) (img : ChanImg) (f : StepFacts) (s : State) : Out :=
  let c := s.chan ch
  let cut := decide (c.boot.phase = 0) && decide (c.boot.cause = 5) && !bitOf s.hub.pwr.hot ch
  if s.hub.failed || decide (s.hub.boot.phase ≠ 2) || !s.present ch || !(cut || decide (c.boot.phase = 11)) || c.oldRuns then done s
  else
    let s := s.dropOld ch
    let s := if cut then s.setChan ch (c.coldStart 5) else s
    let keep := (s.chan ch).boot
    let s := s.startChan ch false img f
    done ((s.setChan ch ((s.chan ch).modBoot fun b => { b with cause := keep.cause, det := keep.det })).latchSeal)

/-- MAP_CHANGE_INSTANT: map changes take effect; a channel whose margin test is complete goes on with start-up (R357, R362, R525). -/
def execMapChangeInstant (ch : Fin 8) (s : State) : Out :=
  done (onLive ch (fun c => (c.mapInstant ch).goOnStart ch s.modSrc) s).latchSeal

/-- KEY_ROLLOVER_INSTANT: the new epoch becomes active (R390); with it a channel in start-up is sealed, one in recovery serves, and
STALL clears (R473, R525, R535). -/
def execKeyRolloverInstant (ch : Fin 8) (s : State) : Out :=
  done (onLiveFree ch 1 (fun v c => ((c.rollover v).clearStall.goOnStart ch s.modSrc).serveIf) s).latchSeal

/-! ### Power states (R542–R544) -/

/-- The deepest state that WAKE_TOL allows, when nothing keeps the channel Active (R542). -/
def Chan.wantState (c : Chan) : Nat :=
  let tol := fld (c.reg 0x8) 31 16
  let st := if 25000 ≤ tol then 3 else if 400 ≤ tol then 2 else if 2 ≤ tol then 1 else 0
  let idle := c.occupied.isEmpty && c.mem.spill.isEmpty && c.line.rtx.isEmpty && c.line.rxq.isEmpty && c.line.waiting.isEmpty
    && (c.sch.flows.all fun f => f.2.objs.isEmpty) && c.sch.sysFifo.isEmpty && c.sch.toCipher.isEmpty
    && c.codec.packQ.isEmpty && c.codec.expQ.isEmpty && c.fab.held.isEmpty && (c.fab.ports.toList.all fun x => x.rxq.isEmpty && x.txq.isEmpty)
    && c.opt.rxOps.isEmpty && c.opt.txOps.isEmpty && c.opt.calQ.isEmpty
  if idle && decide (c.boot.phase = 7) then st else 0

/-- PWR_OFFER: the peer's state and instant (R543). An offer of 0 cancels an entry. -/
def Chan.pwrOffer (c : Chan) (st : BitVec 8) (sec : BitVec 48) (ns : BitVec 32) : Chan :=
  let c := c.takeTrib 0 0x40
  if 3 < st.toNat then c
  else
    let c := c.modBoot fun b => { b with peerOffer := st.toNat, peerMs := some c.ms }
    if st = 0 then c.modBoot fun b => { b with entryAt := none }
    else if c.isA then c
    else match instantOf sec ns with
      | some t => if t = 0 then c else
        let r := c.peerInstant t
        r.2.modBoot fun b => { b with entryAt := some r.1 }
      | none => c
def execPwrOffer (ch : Fin 8) (st : BitVec 8) (sec : BitVec 48) (ns : BitVec 32) (s : State) : Out :=
  done (onPath ch (fun c => c.pwrOffer st sec ns) s)

/-- PWR_OFFER_SEND: every 100 ms the state that the channel would choose; A names the instant 2 × RTT ahead once both offer more than 0
(R543). -/
def Chan.sendOfferPwr (c : Chan) : Chan :=
  if c.boot.pst ≠ 0 ∨ c.ms < c.boot.offerMs + 100 then c
  else
    let want := c.wantState
    let entry := if want = 0 then none
      else match c.boot.entryAt with
        | some t => some t
        | none => if c.isA && decide (c.boot.peerOffer ≠ 0) then some (c.now + 2 * c.rttNs) else none
    let c := c.modBoot fun b => { b with offer := want, offerMs := c.ms, entryAt := entry }
    let named := match entry with | some t => if c.isA then t else 0 | none => 0
    c.sendClear 0 0x40 (beBytes 1 want ++ stampBytes named)
def execPwrOfferSend (ch : Fin 8) (s : State) : Out := done (onPath ch Chan.sendOfferPwr s)

/-- PWR_OFFER_LAPSE: 300 ms without an offer cancels an entry that has not reached its instant (R543). -/
def execPwrOfferLapse (ch : Fin 8) (s : State) : Out :=
  done (onPath ch (fun c =>
    match c.boot.peerMs with
    | some t => if t + 300 < c.ms then c.modBoot fun b => { b with entryAt := none, peerOffer := 0, peerMs := none } else c
    | none => c) s)

/-- POWER_STATE_ENTRY: at the agreed instant the shallower of the two offers; the line is not UP below Active (R543, R544). The entry to
Deep waits until every spill queue is empty (R137). -/
def Chan.enterState (c : Chan) : Chan :=
  match c.boot.entryAt with
  | some t =>
    let st := min c.boot.offer c.boot.peerOffer
    if c.now < t ∨ c.boot.pst ≠ 0 ∨ (st = 3 ∧ !c.mem.spill.isEmpty) then c
    else if st = 0 then c.modBoot fun b => { b with entryAt := none }
    else
      let c := (c.modBoot fun b => { b with pst := st, entryAt := none }).raise { ev := .bootPwrEnter, plane := .management, value := st }
      let c := if c.line.state = .up then c.lineDown .rxUp else c
      let c := if 2 ≤ st then c.modOpt fun o => { o with tlTx := false } else c
      if st = 3 then
        (c.modOpt fun o => { o with laserOn := false, combs := o.combs.map fun k => if k.st = .serving then { k with st := .off } else k }).refreshEntry true false
      else c
  | none => c
def execPowerStateEntry (ch : Fin 8) (s : State) : Out := done (onPath ch Chan.enterState s)

/-- A wake ends, out of Deep once the deep buffer is up again: the kept tuning and map serve (R138, R542). -/
def Chan.wakeEnd (c : Chan) : Chan :=
  if c.boot.pst = 4 ∧ c.boot.wakeUs < c.us ∧ c.memUp then
    let c := c.modBoot fun b => { b with pst := 0 }
    if c.opt.laserOn then c.modOpt fun o => { o with tlTx := c.timeEn } else c.optRelight
  else c

/-- WAKE by a control request (true), or by frames or light (false): light wakes from Laser standby and Deep on at least 16 lanes. -/
def execWake (ch : Fin 8) (request : Bool) (s : State) : Out := done (onPath ch (fun c => c.wake (if request then 2 else 3)) s)

/-- WAKE_TOL_WRITE: a WAKE_TOL smaller than the state's latency wakes the channel (R544). -/
def Chan.setWakeTol (c : Chan) (data : Word) : Chan :=
  let c := c.setReg 0x8 (data &&& 0xFFFF0000)
  if fld data 31 16 < wakeLatency c.boot.pst then c.wake 1 else c

/-! ### The DMA guard (R541, R546) -/

/-- An access lies whole within an open window that grants its direction. -/
def Chan.dmaOk (c : Chan) (q : DmaReq) : Bool :=
  (List.range 4).any fun k =>
    let lo := (c.reg (0x300 + 16 * k)).toNat + (c.reg (0x304 + 16 * k)).toNat * 4294967296
    let n := (c.reg (0x308 + 16 * k)).toNat * 4096
    let dir := c.reg (0x30C + 16 * k)
    bitOf dir (if q.write then 1 else 0) && decide (lo ≤ q.addr.toNat) && decide (q.addr.toNat + q.len.toNat ≤ lo + n) && decide (0 < n)

/-- Accesses that wait are issued in order while the bucket is not empty. -/
def Chan.dmaIssue (c : Chan) : Nat → Chan
  | 0 => c
  | n + 1 =>
    match c.boot.dmaQ with
    | q :: rest =>
      if 0 < c.boot.dmaBucket then
        Chan.dmaIssue (c.modBoot fun b => { b with dmaQ := rest, dmaBucket := b.dmaBucket - q.len.toNat, dmaOut := some q }) n
      else c
    | [] => c

/-- The bucket of RATE and BURST after one microsecond (R541). -/
def Chan.dmaTick (c : Chan) : Chan :=
  let w := c.reg 0x10
  let c := c.modBoot fun b => { b with dmaBucket := min (b.dmaBucket + fld w 31 16) (1024 * fld w 15 0) }
  c.dmaIssue c.boot.dmaQ.length

/-- DMA_ACCESS by a channel: issued, waiting on its bucket, or refused; once the hub is lost nothing is issued (R21, R541). -/
def execDmaAccess (ch : Fin 8) (q : DmaReq) (s : State) : Out :=
  if !s.present ch || s.hub.failed || !(s.chan ch).live then done s
  else
    let c := s.chan ch
    if c.dmaOk q then done (s.setChan ch ((c.modBoot fun b => { b with dmaQ := b.dmaQ ++ [q] }).dmaIssue (c.boot.dmaQ.length + 1)))
    else
      let c := (c.count 0xB0).raise { ev := .bootDmaBlock, plane := .management, addr := q.addr.toNat }
      done (s.setChan ch (c.viol { source := .dmaGuard, ch := ch, kind := .outsideDma, write := q.write, addr := q.addr.toNat }))

end Sys2Proof.Machine
end

