-- ==== Sys2Proof/Machine/Fence.lean ====
section
/-! DEFINITION. Fences that take effect and readmissions (Partitions, Drift and Unit Health, R500, R502; R40, R41, R69, R235, R401,
R539), the measured rates and the capacity now (Module Architecture, R29, R33–R37). -/

namespace Sys2Proof.Machine

open Sys2Proof

/-! ### Rates and capacity (R29, R35–R37) -/

/-- The channel is past a self-test: in a later step of start-up, in service, in recovery, or held or out of service since (R36, R37). -/
def Chan.measuring (c : Chan) : Bool :=
  (decide (3 ≤ c.boot.phase) && decide (c.boot.phase ≤ 8))
    || ((decide (c.boot.phase = 9) || decide (c.boot.phase = 10)) && c.boot.tested)

/-- RATE_MON_UPDATE: every 1 ms from the end of self-test, the rates of the replica rings with SEQ one higher (R29, R36). -/
def Chan.rateMon (c : Chan) (wide ciph : BitVec 12) : Chan :=
  if !c.measuring ∨ c.ms < c.hlth.rateMs + 1 then c
  else
    let seq := BitVec.ofNat 8 (fld (c.reg 0x40) 7 0 + 1)
    let c := c.setReg 0x40 (putFld (putFld (putFld (0 : Word) 31 20 wide.toNat) 19 8 ciph.toNat) 7 0 seq.toNat)
    { c with hlth := { c.hlth with rateMs := c.ms } }.sample 301 wide.toNat

/-- Cipher pipelines of a direction in service: those of 0–15 not fenced, and the spare where it stands in (R37, R401). -/
def Chan.pipesUp (c : Chan) (cls : Nat) : Nat :=
  ((List.range 16).filter fun u => !unitOut (c.unit cls u)).length + (if (cget? c.hlth.spare cls).isSome then 1 else 0)

/-- Fabric lanes that carry traffic (R69). -/
def Chan.fabLanes (c : Chan) : Nat := ((List.range 4).map fun p => if (c.port p).state = .up then (c.port p).width else 0).sum

/-- LINE_NET: the lowest of 1,750, the framer's net rate, and what the cipher and the 512-byte stages can carry at the measured rates
(R23, R37, R325). -/
def Chan.lineNet (c : Chan) : Nat :=
  let w := c.reg 0x40
  let framer := if c.line.state = .up then 1750 else 0
  let ciph (cls : Nat) : Nat := c.pipesUp cls * 128 * fld w 19 8 / 1000
  min (min 1750 framer) (min (min (ciph 1) (ciph 2)) (4096 * fld w 31 20 / 1000))

/-- CAP_NOW recomputed; a change of LINE_NET is to be signalled to the peer (R35, R37, R320). -/
def Chan.capNow (c : Chan) (mtx : Bool) : Chan :=
  if !c.measuring then c
  else
    let old := fld (c.reg 0x44) 31 20
    let net := c.lineNet
    let w := putFld (putFld (putFld (putFld (putFld (0 : Word) 31 20 net) 19 15 (c.pipesUp 1)) 14 10 (c.pipesUp 2)) 9 5
      (if mtx then c.tilesUp.length else 0)) 4 0 c.fabLanes
    let c := c.setReg 0x44 w
    let c := if net ≠ old then { c with line := { c.line with capDue := true } } else c
    c.setRline

/-! ### Fences that take effect (R500, R40, R69, R235, R401, R539) -/

/-- The spare of a class of 16 + 1 units: it goes on standing in for its unit while that is fenced, or else takes the place of the
lowest fenced one; while it is fenced itself it stands in for none (R40; log entry 60). -/
def Chan.respare (c : Chan) (cls : Nat) : Chan :=
  let out (u : Nat) : Bool := unitOut (c.unit cls u)
  let old := cget? c.hlth.spare cls
  let new : Option Nat :=
    if out 16 then none
    else match old with
      | some u => if out u then some u else (List.range 16).find? out
      | none => (List.range 16).find? out
  let put (x : Option Nat) : Chan :=
    { c with hlth := { c.hlth with spare := match x with | some u => cput c.hlth.spare cls u | none => cdel c.hlth.spare cls } }
  (put new).raiseIf (new.isSome && decide (new ≠ old) && (cls == 1 || cls == 2))
    { ev := .secPipeSpared, plane := .control, uclass := cls, unit := new.getD 0xFF, scope := cls }

/-- Every task in a tile's kernel slots moves to the spare, if that takes the tile's place, or else to other tiles; the one in progress
starts again from its stored accumulators (R235). -/
def Chan.moveTasks (c : Chan) (t : Nat) : Chan :=
  let ks := vget c.mtx.tiles t
  let toSpare := decide (cget? c.hlth.spare 0 = some t)
  let c := c.modMtx fun m => { m with tiles := vset (if toSpare then vset m.tiles 16 ks else m.tiles) t [], moved := if toSpare then m.moved else m.moved ++ ks }
  (List.replicate ks.length ()).foldl (fun (c : Chan) _ =>
    (c.count 0x600050).raise { ev := .mtxTaskMoved, uclass := 0, unit := t, scope := t }) c

/-- Port of a fabric lane: the spare's is that of the lane it stands in for. -/
def fabPortOf (spareFor : Option Nat) (u : Nat) : Option Nat := if u < 16 then some (u / 4) else spareFor.map fun l => l / 4

/-- A fabric lane goes out of use, or comes back; its port retrains (R69, R70). -/
def Chan.laneUse (c : Chan) (cls u : Nat) (bad : Bool) : Chan :=
  let f := c.fab
  let sp := if cls = 3 then f.txSpareFor else f.rxSpareFor
  let port := fabPortOf sp u
  let sp' := if u = 16 ∧ bad then none else if sp = some u ∧ !bad then none else sp
  let f := if cls = 3 then { f with txBad := putBit f.txBad u bad, txSpareFor := sp' }
    else { f with rxBad := putBit f.rxBad u bad, rxSpareFor := sp' }
  let c := { c with fab := f }
  match port with
  | some p => if (c.port p).state = .up then c.retrain p (if bad then some (cls, u) else none) else c
  | none => c

/-- A management core is fenced: the other one becomes active from the last checkpoint, or there is no spare (R40, R539). -/
def Chan.fenceCore (c : Chan) (u : Nat) : Chan :=
  if c.boot.core.toNat = u ∧ c.boot.spareOk then
    ((c.modBoot fun b => { b with core := !b.core, spareOk := false }).count 0xAC).raise
      { ev := .bootCoreSwap, plane := .management, uclass := 5, unit := 1 - u }
  else if c.boot.core.toNat = u then c
  else c.modBoot fun b => { b with spareOk := false }

/-- What carries a fence or a readmission out, by class. -/
def Chan.carryOut (c : Chan) (cls u : Nat) (out : Bool) : Chan :=
  match cls with
  | 0 => if out then (c.respare 0).moveTasks u else c.respare 0
  | 1 => c.respare 1
  | 2 => c.respare 2
  | 3 => c.laneUse 3 u out
  | 4 => c.laneUse 4 u out
  | 5 => if out then c.fenceCore u else if c.boot.core.toNat = u then c else c.modBoot fun b => { b with spareOk := true }
  | _ => c

/-- A fence takes effect; within 24 hours of a readmission it is permanent (R500, R502). -/
def Chan.fence (c : Chan) (mtx : Bool) (g : FenceReq) : Chan :=
  let x := c.unit g.cls g.unit
  let perm := match x.readmitMs with | some t => decide (c.ms < t + 86400000) | none => false
  let c := c.setUnit g.cls g.unit { x with st := if perm then .permanent else .fenced, fencedMs := c.ms, passes := 0, refused := false }
  let c := { c with hlth := { c.hlth with fences := c.hlth.fences ++ [(g.cls, c.ms)] } }
  let c := (c.count 0xD00040).raise (Sys2Proof.Machine.unitEv .hlthFence g.cls g.unit)
  let c := if perm then (c.count 0xD0005C).raise (Sys2Proof.Machine.unitEv .hlthPermFence g.cls g.unit) else c
  (c.carryOut g.cls g.unit true).capNow mtx

/-- UNIT_FENCE: the fences granted before this tick take effect, in order (R500). -/
def Chan.fences (c : Chan) (mtx : Bool) : Chan :=
  let now := c.hlth.granted.filter fun g => decide (g.us < c.us)
  let later := c.hlth.granted.filter fun g => !decide (g.us < c.us)
  now.foldl (fun (c : Chan) g => c.fence mtx g) { c with hlth := { c.hlth with granted := later } }

/-- FENCE_RETEST: 15 and 30 minutes after its fence a unit is tested; both passes readmit it with D = 400, and a failure starts the two
tests again (R502). -/
def Chan.retest (c : Chan) (mtx : Bool) (cls u : Nat) (ok : Bool) : Chan :=
  let x := c.unit cls u
  if x.st ≠ .fenced ∨ c.ms ≤ x.fencedMs + 900000 * (x.passes + 1) then c
  else if !ok then (c.setUnit cls u { x with fencedMs := c.ms, passes := 0, demerit := x.demerit + demeritOf 700 }).count 0xD00050
  else if x.passes = 0 then c.setUnit cls u { x with passes := 1 }
  else
    let c := c.setUnit cls u { x with st := .healthy, demerit := demeritOf 400, passes := 0, readmitMs := some c.ms }
    let c := (c.count 0xD00044).raise (Sys2Proof.Machine.unitEv .hlthReadmit cls u)
    (c.carryOut cls u false).capNow mtx

/-! ### The commands -/

def execRateMonUpdate (ch : Fin 8) (wide ciph : BitVec 12) (s : State) : Out := done (onChan ch (fun c => c.rateMon wide ciph) s)

/-- CAP_NOW_UPDATE (R37). -/
def execCapNowUpdate (ch : Fin 8) (s : State) : Out := done (onChan ch (fun c => c.capNow (s.mtxPresent ch)) s)
def execUnitFence (ch : Fin 8) (s : State) : Out := done (onLive ch (fun c => c.fences (s.mtxPresent ch)) s)
def execFenceRetest (ch : Fin 8) (cls : Fin 6) (u : Fin 17) (ok : Bool) (s : State) : Out :=
  done (onLive ch (fun c => c.retest (s.mtxPresent ch) cls u ok) s)

end Sys2Proof.Machine
end

