-- ==== Sys2Proof/Machine/Module.lean ====
section
/-! DEFINITION. The module: supply, pins, temperature and SMBus (Module, Pins and Electrical Limits, R605–R621), and the converter
cutout of a channel (R20). -/

namespace Sys2Proof.Machine

open Sys2Proof

/-- The hub with its pins and supply changed. -/
def Hub.modPwr (h : Hub) (f : Power → Power) : Hub := { h with pwr := f h.pwr }

/-! ### Supply (R605–R608) -/

/-- A power-down: PWRGD falls and every domain is reset; the fused values, the variant, the configuration memory and what hangs on the
board's pins are kept (R529, R608), and so are hard repairs (R134). A seal that ran leaves its page empty (R573). -/
def State.powerDown (s : State) : State :=
  let h := s.hub
  { s with
    chans := s.chans.map fun c => { mem := { hard := c.mem.hard } }
    hub := { caps := h.caps, areas := h.areas, pwr := { h.pwr with pwrgd := false, hot := 0, thermLow := false, smbOut := none },
             boot := { fuseSvn := h.boot.fuseSvn, yupRoot := h.boot.yupRoot, ownerRoot := h.boot.ownerRoot },
             spdm := { slot0 := h.spdm.slot0, slot1 := h.spdm.slot1 } } }

/-- VIN_RISE: VIN rises through 35.0 V (R605, R607). -/
def execVinRise (s : State) : Out := done (s.modHub fun h => h.modPwr fun p => { p with vinOk := true })

/-- POWER_GOOD: every rail in tolerance and MOD_RST_N high for 10 ms, with the input switch closed (R607). The strapped SMBus address is
read (R621). -/
def execPowerGood (addr : Fin 8) (s : State) : Out :=
  done (s.modHub fun h => h.modPwr fun p =>
    if p.pwrgd || !p.vinOk || p.ovOpen || p.latched then p
    else { p with pwrgd := true, modRstN := true, smbAddr := 0x58 + addr.val })

/-- UNDERVOLTAGE_LOCKOUT: VIN below 33.0 V for 1 ms; off is a power-down (R605). -/
def execUndervoltageLockout (s : State) : Out :=
  done ((s.modHub fun h => h.modPwr fun p => { p with vinOk := false }).powerDown)

/-- UNDERVOLTAGE_WARN: VIN falls below 36.0 V: UV_WARN and UVW_CNT (R605, R619, R620). -/
def execUndervoltageWarn (s : State) : Out :=
  done (s.modHub fun h =>
    if h.pwr.pwrgd then (h.setReg 0x100000 (putBit (h.reg 0x100000) 12 true)).count 0x100048 else h)

/-- OVERVOLTAGE: 52.0 V for 10 µs opens the input switch (R605). -/
def execOvervoltage (s : State) : Out :=
  done ((s.modHub fun h => h.modPwr fun p => { p with ovOpen := true }).powerDown)

/-- OVERVOLTAGE_CLEAR: VIN below 50.0 V for 100 ms closes the switch; the module starts as from power-good (R605). -/
def execOvervoltageClear (s : State) : Out := done (s.modHub fun h => h.modPwr fun p => { p with ovOpen := false })

/-- INPUT_CURRENT_LATCH: the input current is past its limit and the switch latches off (R605). -/
def execInputCurrentLatch (s : State) : Out :=
  done ((s.modHub fun h => h.modPwr fun p => { p with latched := true }).powerDown)

/-- INPUT_SWITCH_RESET: VIN removed for 1 s, or MOD_RST_N low for 10 ms, releases a latched switch (R606). Either is a power-down
too (R605, R608). -/
def execInputSwitchReset (byVin : Bool) (s : State) : Out :=
  done ((s.modHub fun h => h.modPwr fun p =>
    if byVin then { p with latched := false, vinOk := false } else { p with latched := false, modRstN := false }).powerDown)

/-- POWER_DOWN: MOD_RST_N goes low (R608). -/
def execPowerDown (s : State) : Out := done ((s.modHub fun h => h.modPwr fun p => { p with modRstN := false }).powerDown)

/-! ### Temperature and the cutout of a channel (R20, R616, R617) -/

/-- Channel `ch`'s second-stage converters cut out: it is cleared and held in reset, CAUSE 5, until a cold restart (R20, R529). -/
def State.cutout (s : State) (ch : Fin 8) : State :=
  let s := (s.setChan ch (((s.chan ch).wiped).modBoot fun b => { b with cause := 5 })).stopSeal ch
  s.modHub fun h => (h.setReg 0x100000 (putBit (h.reg 0x100000) (21 + ch) true)).count 0x100040

/-- CONVERTER_CUTOUT: a channel rail exceeds its current limit; only that channel stops (R20). -/
def execConverterCutout (ch : Fin 8) (s : State) : Out :=
  done (if s.present ch && s.hub.pwr.pwrgd then s.cutout ch else s)

/-- DIE_OVER_TEMP: a channel die above 105 °C for 10 ms cuts its converters out and sets OT (R616). -/
def execDieOverTemp (ch : Fin 8) (s : State) : Out :=
  done (if s.present ch && s.hub.pwr.pwrgd then
    (s.cutout ch).modHub fun h =>
      ((h.setReg 0x100000 (putBit (h.reg 0x100000) (13 + ch) true)).count 0x100044).modPwr fun p => { p with hot := putBit p.hot ch true }
  else s)

/-- DIE_COOLED: the die has fallen below 90 °C, and COLD_RESTART may follow (R616). -/
def execDieCooled (ch : Fin 8) (s : State) : Out :=
  done (s.modHub fun h => h.modPwr fun p => { p with hot := putBit p.hot ch false })

/-- THERM_THRESHOLD: a die exceeds THERM_T, or every die is 5 °C below it again (R617). -/
def execThermThreshold (low : Bool) (s : State) : Out :=
  done (s.modHub fun h => if h.pwr.pwrgd then h.modPwr fun p => { p with thermLow := low } else h)

/-! ### Output pins (R607, R609, R610, R617) -/

/-- A level that the module drives from power-good on; none while the pin is high-impedance (R609). -/
def State.driven (s : State) (high : Bool) : Option Bool := if s.hub.pwr.pwrgd then some high else none

/-- PWRGD: high from power-good to power-down. -/
def State.pinPwrgd (s : State) : Option Bool := s.driven true

/-- FAULT_N: low while a present channel is held, out of service or in cold restart, or no image was accepted. -/
def State.pinFaultN (s : State) : Option Bool :=
  s.driven (!(decide (s.hub.boot.phase = 3) || ((List.range 8).filter s.present).any fun n =>
    decide (9 ≤ (vget s.chans n).boot.phase) && decide ((vget s.chans n).boot.phase ≤ 11)))

/-- THERM_N: low while a die exceeds THERM_T (R617). -/
def State.pinThermN (s : State) : Option Bool := s.driven (!s.hub.pwr.thermLow)

/-- SMB_ALERT_N: low while THERM_N is low, or a CUTOUT or OT bit is set. -/
def State.pinSmbAlertN (s : State) : Option Bool := s.driven (!s.hub.pwr.thermLow && decide (fld (s.hub.reg 0x100000) 28 13 = 0))

/-! ### SMBus (R619, R621) -/

/-- PWR.STAT as read: PG, THERM and LASER_EN beside the latched bits (R619). -/
def Hub.pwrStat (h : Hub) : Word :=
  putBit (putBit (putBit (h.reg 0x100000) 31 true) 30 h.pwr.thermLow) 29 (!h.pwr.laserEnN)

/-- The PWR register at offset 4 × `c`; `meas` is what the sensors read where the register is a measurement (R619, R620). -/
def State.pwrReg (s : State) (c : Nat) (meas : Word) : Word :=
  if c = 0 then s.hub.pwrStat
  else if c ≤ 2 then meas
  else if c ≤ 11 ∧ 4 ≤ c then (if s.present (c - 4) then meas else 0)
  else s.hub.reg (0x100000 + 4 * c)

/-- The module acknowledges its SMBus address (R621). -/
def Hub.smbUp (h : Hub) : Bool := h.pwr.pwrgd && !h.failed

/-- SMB_READ_PWR: a block read of command code `code`; a code without a register is not acknowledged (R621). -/
def execSmbReadPwr (code : BitVec 8) (meas : Word) (s : State) : Out :=
  let c := code.toNat
  done (s.modHub fun h => if !h.smbUp then h else h.modPwr fun p => { p with
    smbOut := if c ≤ 0x0B ∨ (0x10 ≤ c ∧ c ≤ 0x12) then some (s.pwrReg c meas) else none })

/-- SMB_READ_CAPS: command code 0x20 reads GLB.CAPS (R621). -/
def execSmbReadCaps (s : State) : Out :=
  done (s.modHub fun h => if !h.smbUp then h else h.modPwr fun p => { p with smbOut := some h.caps })

/-- SMB_CLEAR_STAT: a block write to code 0 is a W1C write of PWR.STAT (R621). -/
def execSmbClearStat (data : Word) (s : State) : Out :=
  done (s.modHub fun h => if !h.smbUp then h else h.setReg 0x100000 (h.reg 0x100000 &&& ~~~(data &&& 0x1FFFF000)))

end Sys2Proof.Machine
end

