-- ==== Sys2Proof/Machine/RegWrite.lean ====
section
/-! DEFINITION. Register writes (Host Port and Register Map, R552–R554, R557; 00_scope R6–R8, R13–R15; R101, R428, R545). -/

namespace Sys2Proof.Machine

open Sys2Proof

/-- The violation of a register access: the host's and hub firmware's enter the log at once, a channel firmware's by its channel
(R557, R560). `ch` is the window's channel, or 0xFF for BAR0; `addr` is the BAR offset (R558). -/
def State.regViol (s : State) (m : Master) (kind : ViolKind) (ch addr : Nat) : State :=
  match m with
  | .host => s.modHub fun h => h.violate { source := .hostIo, ch := ch, kind := kind, addr := addr }
  | .hubFw => s.modHub fun h => h.violate { source := .hubFirmware, ch := ch, kind := kind, addr := addr }
  | .chFw n => { s with chans := vset s.chans n ((vget s.chans n).viol { source := .chFirmware, ch := n, kind := kind, addr := addr }) }

/-- The master can reach the register port: the link is up, the hub runs, or the channel is out of reset. -/
def State.masterUp (s : State) : Master → Bool
  | .host => !s.hub.failed && decide (s.hub.host.mode ≠ .down)
  | .hubFw => !s.hub.failed && s.hub.pwr.pwrgd
  | .chFw n => s.present n && (vget s.chans n).live

/-! ### Channel windows -/

/-- Windows of a channel that are read-only: the ledger extent, communicator, extent, descriptor, tuning and certificate tables, the
table window and the ring window (R510, R192, R232, R259, R376, R430, R101, R596). -/
def chanReadOnly (o : Nat) : Bool :=
  let within (lo n : Nat) : Bool := decide (lo ≤ o) && decide (o < lo + n)
  within 0x10000 0x10000 || within 0x410000 0x10000 || within 0x510000 0x10000 || within 0x610000 0x800
    || within 0x910000 0x1300 || within 0xB10000 0x2000 || within 0x1000000 0x800000 || within 0x1C00000 0x400000

/-- A keyed write of CTRL.RESET (R545): COLD, RECOVER or RETURN, in that order when several bits are set. -/
def Chan.resetWrite (c : Chan) (fw : Bool) (data : Word) : Chan :=
  if bitOf data 1 then c.cold
  else if bitOf data 0 then c.recover (if fw then 3 else 2) 0x1F
  else if bitOf data 2 then c.comeBack
  else c

/-- A register of a present channel that software writes; none: a violation of that kind. -/
def Chan.store (c : Chan) (m : Master) (o : Nat) (data : Word) : ViolKind ⊕ Chan :=
  if o = 0x4 then
    if fld data 31 24 = 0xA5 then .inr (c.resetWrite (decide (m ≠ .host) && decide (m ≠ .hubFw)) data) else .inl .badValue
  else if o = 0x8 then .inr (c.setWakeTol data)
  else if o = 0xB00014 then
    match c.relWrite (data.toNat * 4294967296 + (c.reg 0xB00010).toNat) with
    | some c => .inr (c.setReg 0xB00014 data)
    | none => .inl .badValue
  else if o = 0xC00008 then .inr (if bitOf data 31 then c.acceptJump else c)
  else if o = 0xE00000 then .inr (if bitOf data 27 then { c with evr := { c.evr with irq := false } } else c)
  else match chanRow o with
  | some r =>
    if decide (r.rws ≠ 0) && c.boot.sealed then .inl .sealedField
    else
      let c := c.setReg o (r.store c.boot.sealed (c.reg o) data)
      .inr (if m = .host ∧ r.rws ≠ 0 then c.modBoot fun b => { b with edited := true } else c)
  | none => .inr c

/-- A 4-byte write in BAR2. RO registers discard it without error. -/
def State.writeChan (s : State) (m : Master) (off : Nat) (data : Word) : State :=
  let n := off / 0x2000000 % 8
  let o := off % 0x2000000
  let c := vget s.chans n
  if !s.hasWindow n || (decide (o / 0x100000 = 6) && !s.mtxPresent n) then s.regViol m .absentUnit n off
  else if chanReadOnly o then s.regViol m .readOnly n off
  else if c.boot.phase = 0 then s
  else match c.store m o data with
  | .inr c => { s with chans := vset s.chans n c }
  | .inl k => s.regViol m k n off

/-! ### BAR0 -/

/-- Windows of BAR0 that are read-only: the sealed sector and the ring of the module's recorder (R601). -/
def hubReadOnly (o : Nat) : Bool :=
  (decide (0x460000 ≤ o) && decide (o < 0x470000)) || (decide (0x480000 ≤ o) && decide (o < 0x500000))

/-- Addresses of BAR0 that are not reserved and that no write changes: RO registers, the CXL component registers, which the rows of the
table for the link act on, and the pending bits of MSI-X (R552, R561, R562, R468, R469, R570, R601, R619, R620). -/
def hubKnown (o : Nat) : Bool :=
  let within (lo n : Nat) : Bool := decide (lo ≤ o) && decide (o < lo + n)
  within 0x0 0x2C || within 0x1000 0x800 || within 0x100000 0x30 || within 0x100040 0xC || within 0x200000 0x20
    || within 0x200040 0x40 || within 0x200080 0x8 || within 0x200100 0x80 || within 0x300000 0x4 || within 0x400000 0x2C
    || within 0x400040 0x2C || within 0x410000 0x1000 || within 0x420000 0x30000 || within 0xE00000 0x100000
    || within 0xF10000 0x8

/-- Words of the H2D mailboxes: a write while FULL is discarded and sets DROP; word 4 is DOORBELL's (R567, R570). -/
def Hub.writeH2d (h : Hub) (k w : Nat) (data : Word) : Hub :=
  if w = 4 then h.doorbell k data
  else if (vget h.host.h2d k).full then h.h2dDrop k
  else h.modHost (modH2d k fun m => { m with words := vset m.words w data })

/-- Word 1 of a global slot: FIRED is cleared where a 1 is written; ARMED = 1 arms the slot, 0 disarms it (R467). -/
def Hub.writeSlot (h : Hub) (j : Fin 8) (data : Word) : Hub :=
  let h := if bitOf data 30 then h.modG fun g => { g with slots := g.slots.set j { g.slots[j] with fired := false } } else h
  if bitOf data 31 then h.gArm j data
  else (h.setReg (0x200104 + 16 * j.val) (data &&& 0x3FFFFFFF)).modG fun g =>
    { g with slots := g.slots.set j { g.slots[j] with armed := false } }

/-- A register of BAR0 that software writes; none: a violation of that kind. -/
def Hub.store (h : Hub) (m : Master) (o : Nat) (data : Word) : ViolKind ⊕ Hub :=
  if 0x501000 ≤ o ∧ o < 0x501400 then
    if 5 ≤ o % 32 / 4 then .inl .reservedOrAlign
    else if m = .host then .inr (h.writeH2d ((o - 0x501000) / 32) (o % 32 / 4) data) else .inr h
  else if 0x502000 ≤ o ∧ o < 0x502400 then
    if 5 ≤ o % 32 / 4 then .inl .reservedOrAlign
    else if m = .host ∧ o % 32 = 16 ∧ bitOf data 31 then .inr (h.take ((o - 0x502000) / 32)) else .inr h
  else if 0xF00000 ≤ o ∧ o < 0xF00400 then
    .inr (if o % 16 = 12 then h.maskVector ((o - 0xF00000) / 16) (bitOf data 0) else h.setReg o data)
  else if 0x200100 ≤ o ∧ o < 0x200180 ∧ o % 16 = 4 then .inr (h.writeSlot (Fin.ofNat 8 ((o - 0x200100) / 16)) data)
  else if o = 0x20000C then .inr ((h.setReg o (data &&& 0xFFFF)).modG fun g => { g with todArmed := true })
  else if o = 0x400000 then .inr (if bitOf data 27 then { h with evr := { h.evr with irq := false } } else h)
  else match hubRow o with
  | some r =>
    if decide (r.rws ≠ 0) && h.boot.sealed then .inl .sealedField
    else .inr (h.setReg o (r.store h.boot.sealed (h.reg o) data))
  | none => if hubKnown o then .inr h else .inl .reservedOrAlign

/-- A 4-byte write in BAR0. -/
def State.writeHub (s : State) (m : Master) (off : Nat) (data : Word) : State :=
  if hubReadOnly off then s.regViol m .readOnly 0xFF off
  else match s.hub.store m off data with
  | .inr h => { s with hub := h }
  | .inl k => s.regViol m k 0xFF off

/-! ### The commands -/

/-- A 4-byte write. -/
def State.write32 (s : State) (m : Master) (b : Bar) (off : Nat) (data : Word) : State :=
  match b with
  | .bar0 => s.writeHub m off data
  | .bar2 => s.writeChan m off data

/-- REGISTER_WRITE of `size` bytes: 4 or 8 and aligned, an 8-byte access as two of 4 in ascending order with the low half first; any
other size or alignment is a violation (R553). -/
def execRegisterWrite (m : Master) (b : Bar) (off : BitVec 28) (size : Fin 65) (data : BitVec 64) (s : State) : Out :=
  let o := off.toNat
  done (if !s.masterUp m then s
  else if size.val = 4 ∧ o % 4 = 0 then s.write32 m b o (data.setWidth 32)
  else if size.val = 8 ∧ o % 8 = 0 then
    (s.write32 m b o (data.setWidth 32)).write32 m b (o + 4) ((data >>> 32).setWidth 32)
  else s.regViol m .reservedOrAlign (match b with | .bar0 => 0xFF | .bar2 => o / 0x2000000 % 8) o)

/-- REL_CNT_WRITE: a host write of REL_CNT_HI releases records up to the count, or is a violation (R428). -/
def execRelCntWrite (ch : Fin 8) (hi : Word) (s : State) : Out :=
  done (if !s.masterUp .host then s
  else if !s.hasWindow ch then s.regViol .host .absentUnit ch (0x2000000 * ch.val + 0xB00014)
  else
    match (s.chan ch).relWrite (hi.toNat * 4294967296 + ((s.chan ch).reg 0xB00010).toNat) with
    | some c => s.setChan ch (c.setReg 0xB00014 hi)
    | none => s.regViol .host .badValue ch (0x2000000 * ch.val + 0xB00014))

/-- A write of the host to one register of a channel window: its effect on a present channel, and a violation where the channel is absent
(R7). A channel in reset takes no write. -/
def onWindow (ch : Fin 8) (o : Nat) (f : Chan → Chan) (s : State) : State :=
  if s.hasWindow ch then (if (s.chan ch).boot.phase = 0 then s else s.setChan ch (f (s.chan ch)))
  else if s.masterUp .host then s.regViol .host .absentUnit ch (0x2000000 * ch.val + o)
  else s

/-- RECOVER: a keyed write of RECOVER (R532, R538). -/
def execRecover (ch : Fin 8) (s : State) : Out := done (onWindow ch 0x4 (fun c => c.recover 2 0x1F) s)

/-- COLD: a keyed write of COLD (R538). -/
def execCold (ch : Fin 8) (s : State) : Out := done (onWindow ch 0x4 Chan.cold s)

/-- RETURN: a keyed write of RETURN (R537). -/
def execReturn (ch : Fin 8) (s : State) : Out := done (onWindow ch 0x4 Chan.comeBack s)

/-- WAKE_TOL_WRITE (R544). -/
def execWakeTolWrite (ch : Fin 8) (data : Word) (s : State) : Out := done (onWindow ch 0x8 (fun c => c.setWakeTol data) s)

/-- ACCEPT_JUMP: a write of ACCEPT_JUMP (R440, R441). -/
def execAcceptJump (ch : Fin 8) (s : State) : Out := done (onWindow ch 0xC00008 Chan.acceptJump s)

end Sys2Proof.Machine
end

