-- ==== Sys2Proof/Machine/Spdm.lean ====
section
/-! DEFINITION. The SPDM responder of the hub (Provenance Chain and Attestation, R425, R426). Error codes and the order of requests are
those of the DMTF standard that the rule names (PRESUMED, log entry 50). -/

namespace Sys2Proof.Machine

open Sys2Proof

/-- SPDM error codes. -/
def spdmInvalid : Nat := 0x01
def spdmUnexpected : Nat := 0x04
def spdmDecrypt : Nat := 0x06
def spdmUnsupported : Nat := 0x07
def spdmSessions : Nat := 0x0A
def spdmVersion : Nat := 0x41

/-- An answer of the responder, changing its state by `f`. -/
def Hub.spdmSay (h : Hub) (f : Spdm → Spdm) (r : SpdmRsp) : Hub := { h with spdm := { f h.spdm with rsp := r } }

/-- The responder's answer with nothing else changed. -/
def Hub.spdmErr (h : Hub) (code : Nat) : Hub := h.spdmSay id (.error code)

/-- A request after the algorithms have been negotiated. -/
def Hub.spdmReady (h : Hub) (f : Hub → Hub) : Hub := if h.spdm.stage = 3 then f h else h.spdmErr spdmUnexpected

/-- A request reaches the responder over the DOE mailbox: the hub is up and the link trained. -/
def onSpdm (f : Hub → Hub) (s : State) : State :=
  if s.hub.failed || decide (s.hub.host.mode = .down) || decide (s.hub.boot.phase = 0) then s else s.modHub f

/-- The certificate chain of a slot; none when it is absent. -/
def Hub.slotChain (h : Hub) (slot : Nat) : Option (List Byte) :=
  let x := if slot = 0 then h.spdm.slot0 else if slot = 1 then h.spdm.slot1 else []
  if x.isEmpty then none else some x

/-- Measurement blocks: index, DMTF value type, digest (R426). DMTF types: 0 immutable ROM, 1 mutable firmware, 2 hardware configuration,
3 firmware configuration. -/
def State.measurements (s : State) : List (Nat × Nat × BitVec 256) :=
  let chs := (List.range 8).filter s.present
  let c (n : Nat) : Chan := vget s.chans n
  let sig (n : Nat) : BitVec 256 := if (c n).prov.lastSig.isEmpty then (c n).boot.sigDigest else Config.sm3 (c n).prov.lastSig
  [(1, 0, Config.romDigest), (2, 1, s.hub.boot.fwDigest), (3, 3, s.hub.boot.cfgDigest)]
    ++ chs.map (fun n => (0x10 + n, 1, (c n).boot.fwDigest)) ++ chs.map (fun n => (0x20 + n, 2, (c n).boot.secDigest))
    ++ chs.map (fun n => (0x30 + n, 3, (c n).cfg.certDigest)) ++ chs.map (fun n => (0x40 + n, 3, sig n))

/-- Bytes of measurement blocks under a signature. -/
def blockBytes (bs : List (Nat × Nat × BitVec 256)) : List Byte :=
  bs.flatMap fun b => beBytes 1 b.1 ++ beBytes 1 b.2.1 ++ beBytes 32 b.2.2.toNat

/-- The hub identity key's signature; its number lies above every coordinate. -/
def hubSign (bs : List Byte) : BitVec 512 := Config.sm2Sign 1099511627776 bs

/-! ### The requests -/

def execGetVersion (s : State) : Out := done (onSpdm (fun h => h.spdmSay (fun p => { p with stage := 1 }) (.version [0x12, 0x13])) s)

def execGetCapabilities (ver : BitVec 8) (s : State) : Out :=
  done (onSpdm (fun h =>
    if h.spdm.stage = 0 then h.spdmErr spdmUnexpected
    else if ver = 0x12 ∨ ver = 0x13 then h.spdmSay (fun p => { p with stage := 2, ver := ver }) .capabilities
    else h.spdmErr spdmVersion) s)

/-- NEGOTIATE_ALGORITHMS; `common`: the requester offers SM2_P256, SM3_256 and SM4_GCM. -/
def execNegotiateAlgorithms (common : Bool) (s : State) : Out :=
  done (onSpdm (fun h =>
    if h.spdm.stage < 2 then h.spdmErr spdmUnexpected
    else if common then h.spdmSay (fun p => { p with stage := 3 }) .algorithms
    else h.spdmErr spdmInvalid) s)

def execGetDigests (s : State) : Out :=
  done (onSpdm (fun h => h.spdmReady fun h =>
    h.spdmSay id (.digests ([0, 1].filterMap fun k => (h.slotChain k).map fun x => (k, Config.sm3 x)))) s)

def execGetCertificate (slot : Fin 8) (off len : BitVec 16) (s : State) : Out :=
  done (onSpdm (fun h => h.spdmReady fun h =>
    match h.slotChain slot with
    | some x => h.spdmSay id (.certificate slot ((x.drop off.toNat).take len.toNat))
    | none => h.spdmErr spdmInvalid) s)

/-- CHALLENGE: the nonce and every measurement under the hub identity key (R426). -/
def execChallenge (slot : Fin 8) (nonce : BitVec 256) (s : State) : Out :=
  let ms := s.measurements
  done (onSpdm (fun h => h.spdmReady fun h =>
    match h.slotChain slot with
    | some _ => h.spdmSay id (.challengeAuth slot nonce (hubSign (beBytes 32 nonce.toNat ++ blockBytes ms)))
    | none => h.spdmErr spdmInvalid) s)

/-- GET_MEASUREMENTS of one index, or of all (0xFF); signed when a nonce is given. -/
def execGetMeasurements (idx : BitVec 8) (nonce : Option (BitVec 256)) (s : State) : Out :=
  let ms := s.measurements.filter fun b => idx = 0xFF || b.1 == idx.toNat
  done (onSpdm (fun h => h.spdmReady fun h =>
    if ms.isEmpty then h.spdmErr spdmInvalid
    else h.spdmSay id (.measurements ms (nonce.map fun n => hubSign (beBytes 32 n.toNat ++ blockBytes ms)))) s)

/-- KEY_EXCHANGE: a session that awaits FINISH; four at most are open (R562). -/
def execKeyExchange (slot : Fin 8) (s : State) : Out :=
  done (onSpdm (fun h => h.spdmReady fun h =>
    if (h.slotChain slot).isNone then h.spdmErr spdmInvalid
    else if 4 ≤ h.spdm.openS.length + h.spdm.pendingS.length then h.spdmErr spdmSessions
    else h.spdmSay (fun p => { p with pendingS := p.pendingS ++ [p.nextS], nextS := p.nextS + 1 }) (.keyExchange h.spdm.nextS)) s)

/-- FINISH; `ok`: its verify data is right. -/
def execFinish (session : Nat) (ok : Bool) (s : State) : Out :=
  done (onSpdm (fun h =>
    if !h.spdm.pendingS.contains session then h.spdmErr spdmUnexpected
    else
      let drop (p : Spdm) : Spdm := { p with pendingS := p.pendingS.filter fun x => x ≠ session }
      if ok then h.spdmSay (fun p => { drop p with openS := p.openS ++ [session] }) .finish
      else h.spdmSay drop (.error spdmDecrypt)) s)

def execHeartbeat (session : Nat) (s : State) : Out :=
  done (onSpdm (fun h => if h.spdm.openS.contains session then h.spdmSay id .heartbeat else h.spdmErr spdmUnexpected) s)

def execEndSession (session : Nat) (s : State) : Out :=
  done (onSpdm (fun h =>
    if h.spdm.openS.contains session then
      h.spdmSay (fun p => { p with openS := p.openS.filter fun x => x ≠ session }) .endSession
    else h.spdmErr spdmUnexpected) s)

/-- SPDM_UNSUPPORTED: any other request (R425). -/
def execSpdmUnsupported (s : State) : Out := done (onSpdm (fun h => h.spdmErr spdmUnsupported) s)

end Sys2Proof.Machine
end

