-- ==== Sys2Proof/Machine/Take.lean ====
section
/-! DEFINITION. The recorder takes events (Event Recorder, R574–R579, R588, R594), and what they weigh as evidence about units
(Partitions, Drift and Unit Health, R498). -/

namespace Sys2Proof.Machine

open Sys2Proof

/-- The package that holds a 4 KiB unit given by its address: units lie in turn over the 16 LPDDR6 channels, four to a package. -/
def packageOf (addr : Nat) : Nat := addr / 4096 % 16 / 4

/-- The unit an event is evidence about, and its weight (R498). Mismatches, failed tests and retired lanes are weighed where they
occur. -/
def evidence (b : Raised) : Option (Nat × Nat × Nat) :=
  match b.ev with
  | .fabRetrain => if b.uclass = 3 ∨ b.uclass = 4 then some (b.uclass, b.unit, 50) else none
  | .codecRecode => some (6, 0, 100)
  | .codecRecodeFail => some (6, 0, 400)
  | .memUnitRetired => some (6, 3 + packageOf b.addr, 20)
  | .memRemapFull => some (6, 3 + packageOf b.addr, 300)
  | .bootCoreHang => if b.uclass = 5 then some (5, b.unit, 400) else none
  | _ => none

/-- Evidence charged to a channel's units. -/
def Chan.weigh (c : Chan) (bs : List Raised) : Chan :=
  bs.foldl (fun (c : Chan) b => match evidence b with | some (k, u, w) => c.charge k u w | none => c) c

/-- EVENT_RECORD_TAKE: the first `n` events that wait are taken in one handshake; a channel's are then weighed (R574, R498). -/
def execEventRecordTake (o : Option (Fin 8)) (n : Nat) (s : State) : Out :=
  done (if !s.recUp o then s
  else
    let x := s.recOf (ownerNum o)
    let t := s.putRec (ownerNum o) (takeEvents x.1 n { r := x.2 })
    match o with
    | some ch => t.setChan ch ((t.chan ch).weigh (x.2.input.take n))
    | none => t)

end Sys2Proof.Machine
end

