-- ==== Sys2Proof/Machine/Tick.lean ====
section
/-! DEFINITION. Tick tokens (Module Architecture, R32): what every stage counts, what is refilled by the microsecond, and the pins that
fall at their instants. -/

namespace Sys2Proof.Machine

open Sys2Proof

/-- What HOLDOVER adds to each microsecond: less the mean offset of the last 64 small updates, which came 64 ms apart (R442; log entry
70). -/
def holdRate (u : TimeUnit) : Int :=
  if u.state = .holdover && u.everLocked && !u.rates.isEmpty then -(u.rates.foldl (fun (a : Int) r => a + r) 0 / (64000 * (u.rates.length : Int))) else 0

/-- A time unit one microsecond later: an offset is slewed out at no more than 10 ppm (R440). -/
def tickUnit (u : TimeUnit) : TimeUnit :=
  let d : Int := max (-655) (min 655 u.slew)
  { u with now := ((u.now : Int) + fineUs - d + holdRate u).toNat, slew := u.slew - d }

/-- A 1 µs token in a channel: the tick count, its time, the shapers' and policers' refill (R268, R282), the time the line has been up,
the DMA bucket (R541) and the end of a wake (R543). -/
def Chan.tickUs (c : Chan) : Chan :=
  let c := { c with us := c.us + 1 }.modUnit tickUnit
  let c := if c.line.state = .up then { c with line := { c.line with upUs := c.line.upUs + 1 } } else c
  let c := if c.inPath then c.refillShapers.refillPolicers else c
  c.dmaTick.wakeEnd

/-- A 1 ms token in a channel: the tick count, the die temperature, in 0.1 °C, as a sample of DIE_TEMP (R580), and DET 0x10 where the
sequencer's stall has left a request unanswered for 100 ms (R265, R531). -/
def Chan.tickMs (c : Chan) (dieTemp : Int) : Chan :=
  let c := { c with ms := c.ms + 1 }.sample 302 dieTemp
  if c.watched && c.stallLate then c.trip 0x10 1 else c

/-- A 1 µs token in the hub: module time, and PPS_OUT and TIME_TRIG pulses that end (R454, R462). -/
def Hub.tickUs (h : Hub) : Hub :=
  let g := h.gtime
  let u := tickUnit g.unit
  let now := u.now / 65536
  let low (j : Nat) : Bool := decide (vget g.trigFall j ≤ now)
  { h with us := h.us + 1, gtime := { g with
    unit := u, ppsOut := g.ppsOut && decide (now < g.ppsFall) && bitOf (h.reg 0x20001C) 0 && decide (u.state ≠ .freerun)
    trigOut := (List.range 4).foldl (fun (w : BitVec 4) j => if low j then putBit w j false else w) g.trigOut } }

/-- A channel out of reset receives its tokens (R32); module time goes on while the hub does (R22). -/
def execTick1us (o : Option (Fin 8)) (s : State) : Out :=
  done (match o with
    | some n => onChan n (fun c => if c.boot.phase = 0 then c else c.tickUs) s
    | none => onHub Hub.tickUs s)

def execTick1ms (o : Option (Fin 8)) (dieTemp : BitVec 16) (s : State) : Out :=
  done (match o with
    | some n => onChan n (fun c => if c.boot.phase = 0 then c else c.tickMs dieTemp.toInt) s
    | none => onHub (fun h => { h with ms := h.ms + 1 }) s)

end Sys2Proof.Machine
end

