-- ==== Sys2Proof/Machine/TimeFab.lean ====
section
/-! DEFINITION. Time on the fabric: TIME_SYNC, TIME_DREQ and TIME_DRESP (Time, Stamps and Triggers, R456, R457). -/

namespace Sys2Proof.Machine

open Sys2Proof

/-- A sum of correction fields, saturating (R435). -/
def corrSum (a b : BitVec 64) : BitVec 64 :=
  BitVec.ofInt 64 (max (-9223372036854775808) (min 9223372036854775807 (a.toInt + b.toInt)))

/-- The fabric time body. -/
def timeBody (u : TimeUnit) (unc : Nat) (origin : Fine) (corr : BitVec 64) : List Byte :=
  stampBytes (origin / 65536) ++ beBytes 8 corr.toNat ++ beBytes 4 unc ++ [stateByte u, 0]

/-- Valid subscribers, by number (R467). -/
def Chan.subscriber (c : Chan) (k : Nat) : Option Coord := c.legCoord 0xC00040 k

/-- U now, as the time messages carry it (R443, R445). -/
def Chan.uncNow (c : Chan) : Nat := match c.unc with | some n => min n 0xFFFFFFFE | none => 0xFFFFFFFF

/-- TIME_SYNC: at the instant of slot 14 a message goes to each valid subscriber; `resid` is the residence time that its departure
at the SerDes adds to CORR, by subscriber (R456). -/
def Chan.timeSync (c : Chan) (resid : Vector (BitVec 64) 8) : Chan :=
  if !c.due 14 then c
  else (List.range 8).foldl (fun (c : Chan) k => match c.subscriber k with
    | some x => c.sendCoord x (beBytes 2 0x0500 ++ beBytes 6 0 ++
        timeBody c.time.unit c.uncNow c.time.unit.now (corrSum 0 (vget resid k)))
    | none => c) (c.fire 14)

/-- TIME_DREQ: answered with TIME_DRESP; from a coordinate that is no valid subscriber, or not listed, it is discarded under the
violation rule (R457, R49). -/
def Chan.timeDreq (c : Chan) (e : CtlEnv) (corr : BitVec 64) (arrival : Fine) (resid : BitVec 64) : Chan :=
  let ok := c.cfg.cpList.contains e.src && (List.range 8).any fun k => decide (c.subscriber k = some e.src)
  let c := c.takeReq 0x0501 e
  if ok then c.sendCoord e.src (envBytes 0x0502 e ++ timeBody c.time.unit c.uncNow arrival (corrSum corr resid))
  else c.viol { source := .fabric, ch := 0, kind := .inbandRule, addr := c.cfg.coord.toNat, coord := e.src }

def execTimeSync (ch : Fin 8) (resid : Vector (BitVec 64) 8) (s : State) : Out := done (onPath ch (fun c => c.timeSync resid) s)
def execTimeDreq (ch : Fin 8) (e : CtlEnv) (corr : BitVec 64) (arrival : Nat) (resid : BitVec 64) (s : State) : Out :=
  done (onPath ch (fun c => c.timeDreq e corr arrival resid) s)

end Sys2Proof.Machine
end

