-- ==== Sys2Proof/Machine/Dispatch.lean ====
section
/-! DEFINITION. What each command does: one arm per constructor. -/

namespace Sys2Proof.Machine

open Sys2Proof

def exec (i : Instr) (s : State) : Host.Outcome State Fault Refusal :=
  match i with
  | .registerWrite m b off size data => Sys2Proof.Machine.execRegisterWrite m b off size data s
  | .converterCutout ch => Sys2Proof.Machine.execConverterCutout ch s
  | .hubFail => Sys2Proof.Machine.execHubFail s
  | .referenceLoss ch => Sys2Proof.Machine.execReferenceLoss ch s
  | .tick1us o => Sys2Proof.Machine.execTick1us o s
  | .tick1ms o dieTemp => Sys2Proof.Machine.execTick1ms o dieTemp s
  | .rateMonUpdate ch wide ciph => Sys2Proof.Machine.execRateMonUpdate ch wide ciph s
  | .capNowUpdate ch => Sys2Proof.Machine.execCapNowUpdate ch s
  | .jobAdmit ch e b => Sys2Proof.Machine.execJobAdmit ch e b s
  | .jobAdmitForwarded ch e b peer => Sys2Proof.Machine.execJobAdmitForwarded ch e b peer s
  | .jobAdmitPeerAnswer ch e status peer => Sys2Proof.Machine.execJobAdmitPeerAnswer ch e status peer s
  | .peerTimeout ch slot => Sys2Proof.Machine.execPeerTimeout ch slot s
  | .latePeerAccept ch e => Sys2Proof.Machine.execLatePeerAccept ch e s
  | .jobRelease ch e => Sys2Proof.Machine.execJobRelease ch e s
  | .jobReleaseRelayed ch e => Sys2Proof.Machine.execJobReleaseRelayed ch e s
  | .slotFree ch slot => Sys2Proof.Machine.execSlotFree ch slot s
  | .stepMark ch e step => Sys2Proof.Machine.execStepMark ch e step s
  | .stepMarkRelayed ch e step => Sys2Proof.Machine.execStepMarkRelayed ch e step s
  | .flitReceive ch port f => Sys2Proof.Machine.execFlitReceive ch port f s
  | .replayTimeout ch port => Sys2Proof.Machine.execReplayTimeout ch port s
  | .ackIdleDue ch port => Sys2Proof.Machine.execAckIdleDue ch port s
  | .flitSend ch port => Sys2Proof.Machine.execFlitSend ch port s
  | .portRetrain ch port lane => Sys2Proof.Machine.execPortRetrain ch port lane s
  | .retrainAttemptEnd ch port locked txFail rxFail grant => Sys2Proof.Machine.execRetrainAttemptEnd ch port locked txFail rxFail grant s
  | .portTrainRetry ch port => Sys2Proof.Machine.execPortTrainRetry ch port s
  | .packetReceive ch port p => Sys2Proof.Machine.execPacketReceive ch port p s
  | .nackReceive ch n => Sys2Proof.Machine.execNackReceive ch n s
  | .heldPacketTimeout ch => Sys2Proof.Machine.execHeldPacketTimeout ch s
  | .tailRecordExpire ch => Sys2Proof.Machine.execTailRecordExpire ch s
  | .fenceHoldExpire ch => Sys2Proof.Machine.execFenceHoldExpire ch s
  | .tableWrite ch env b => Sys2Proof.Machine.execTableWrite ch env b s
  | .genSwitch ch env b => Sys2Proof.Machine.execGenSwitch ch env b s
  | .tableAbort ch env => Sys2Proof.Machine.execTableAbort ch env s
  | .genSwitchInstant ch => Sys2Proof.Machine.execGenSwitchInstant ch s
  | .genSaddleClose ch => Sys2Proof.Machine.execGenSaddleClose ch s
  | .copyForwardDone ch => Sys2Proof.Machine.execCopyForwardDone ch s
  | .allocationRetry ch sel pool => Sys2Proof.Machine.execAllocationRetry ch sel pool s
  | .spillReadback ch slot bulk toLine fail => Sys2Proof.Machine.execSpillReadback ch slot bulk toLine fail s
  | .memRereadDone ch addr ok mirrorOk => Sys2Proof.Machine.execMemRereadDone ch addr ok mirrorOk s
  | .unitPatternTestDone ch unit pass => Sys2Proof.Machine.execUnitPatternTestDone ch unit pass s
  | .unitRemapCopyDone ch unit failed => Sys2Proof.Machine.execUnitRemapCopyDone ch unit s failed
  | .selfRefreshEntry ch deep drained => Sys2Proof.Machine.execSelfRefreshEntry ch deep drained s
  | .selfRefreshEntryTimeout ch => Sys2Proof.Machine.execSelfRefreshEntryTimeout ch s
  | .selfRefreshExit ch up => Sys2Proof.Machine.execSelfRefreshExit ch up s
  | .fullTrainingDone ch up => Sys2Proof.Machine.execFullTrainingDone ch up s
  | .scrubDone ch => Sys2Proof.Machine.execScrubDone ch s
  | .rtxRecordWindowEnd ch => Sys2Proof.Machine.execRtxRecordWindowEnd ch s
  | .colCommOpen ch env b => Sys2Proof.Machine.execColCommOpen ch env b s
  | .colCommClose ch env comm rsvd => Sys2Proof.Machine.execColCommClose ch env comm rsvd s
  | .colStart ch env b => Sys2Proof.Machine.execColStart ch env b s
  | .colExclude ch env comm e => Sys2Proof.Machine.execColExclude ch env comm e s
  | .contribReceive ch m => Sys2Proof.Machine.execContribReceive ch m s
  | .partialReceive ch m => Sys2Proof.Machine.execPartialReceive ch m s
  | .resultReceive ch m => Sys2Proof.Machine.execResultReceive ch m s
  | .demandReceive ch m => Sys2Proof.Machine.execDemandReceive ch m s
  | .abortReceive ch m => Sys2Proof.Machine.execAbortReceive ch m s
  | .lateReceive ch m => Sys2Proof.Machine.execLateReceive ch m s
  | .endReceive ch m => Sys2Proof.Machine.execEndReceive ch m s
  | .demandRateSend ch ctx => Sys2Proof.Machine.execDemandRateSend ch ctx s
  | .pullDelayExpire ch ctx => Sys2Proof.Machine.execPullDelayExpire ch ctx s
  | .alignDelayExpire ch ctx => Sys2Proof.Machine.execAlignDelayExpire ch ctx s
  | .lowrankPullSend ch ctx => Sys2Proof.Machine.execLowrankPullSend ch ctx s
  | .colDeadline ch ctx => Sys2Proof.Machine.execColDeadline ch ctx s
  | .colDeadlinePeerLate ch ctx => Sys2Proof.Machine.execColDeadlinePeerLate ch ctx s
  | .coordinatorDecision ch ctx => Sys2Proof.Machine.execCoordinatorDecision ch ctx s
  | .orphanTimeout ch ctx => Sys2Proof.Machine.execOrphanTimeout ch ctx s
  | .pendingDemandExpire ch => Sys2Proof.Machine.execPendingDemandExpire ch s
  | .codecBind ch env b => Sys2Proof.Machine.execCodecBind ch env b s
  | .codecUnbind ch env b => Sys2Proof.Machine.execCodecUnbind ch env b s
  | .codecFlow ch env tc fmt rsvd => Sys2Proof.Machine.execCodecFlow ch env tc fmt rsvd s
  | .packerCodeBlock ch fails parity => Sys2Proof.Machine.execPackerCodeBlock ch fails s parity
  | .expanderBlock ch parity => Sys2Proof.Machine.execExpanderBlock ch s parity
  | .tileTaskDispatch ch => Sys2Proof.Machine.execTileTaskDispatch ch s
  | .tileTaskComplete ch tile => Sys2Proof.Machine.execTileTaskComplete ch tile s
  | .noTileWaitExpire ch ctx => Sys2Proof.Machine.execNoTileWaitExpire ch ctx s
  | .schedulerSelect ch parity => Sys2Proof.Machine.execSchedulerSelect ch parity s
  | .systemFifoRoom ch => Sys2Proof.Machine.execSystemFifoRoom ch s
  | .tuEncrypt ch busy => Sys2Proof.Machine.execTuEncrypt ch s busy
  | .frameSend ch => Sys2Proof.Machine.execFrameSend ch s
  | .laneUnitReceive ch phys fasRaw lid mfas skewNs => Sys2Proof.Machine.execLaneUnitReceive ch phys fasRaw lid mfas skewNs s
  | .lossOfLight ch lane => Sys2Proof.Machine.execLossOfLight ch lane s
  | .losDetect ch => Sys2Proof.Machine.execLosDetect ch s
  | .frameDecode ch b => Sys2Proof.Machine.execFrameDecode ch b s
  | .lofClrExpire ch => Sys2Proof.Machine.execLofClrExpire ch s
  | .lofSetExpire ch => Sys2Proof.Machine.execLofSetExpire ch s
  | .lineAisSend ch => Sys2Proof.Machine.execLineAisSend ch s
  | .lineAis ch src site state => Sys2Proof.Machine.execLineAis ch src site state s
  | .aisLegTimeout ch leg => Sys2Proof.Machine.execAisLegTimeout ch leg s
  | .aisTuSend ch leg => Sys2Proof.Machine.execAisTuSend ch leg s
  | .cap ch h net => Sys2Proof.Machine.execCap ch h net s
  | .capSendPeriodic ch => Sys2Proof.Machine.execCapSendPeriodic ch s
  | .tuReceive ch => Sys2Proof.Machine.execTuReceive ch s
  | .tuDeliver ch parity => Sys2Proof.Machine.execTuDeliver ch s parity
  | .nakReportTimer ch => Sys2Proof.Machine.execNakReportTimer ch s
  | .holeWindowExpire ch => Sys2Proof.Machine.execHoleWindowExpire ch s
  | .marginEstimate ch ms => Sys2Proof.Machine.execMarginEstimate ch ms s
  | .wrongLockCheck ch obs => Sys2Proof.Machine.execWrongLockCheck ch obs s
  | .engineTempSample ch t => Sys2Proof.Machine.execEngineTempSample ch t s
  | .recalTimer ch => Sys2Proof.Machine.execRecalTimer ch s
  | .calibrationAction ch light => Sys2Proof.Machine.execCalibrationAction ch light s
  | .burstReq ch h n phys => Sys2Proof.Machine.execBurstReq ch h n phys s
  | .burstTrialStep ch n meas => Sys2Proof.Machine.execBurstTrialStep ch n meas s
  | .precomp ch h d0 slope => Sys2Proof.Machine.execPrecomp ch h d0 slope s
  | .marginTestTrialStep ch ms => Sys2Proof.Machine.execMarginTestTrialStep ch ms s
  | .mtResult ch h es => Sys2Proof.Machine.execMtResult ch h es s
  | .map ch h sec ns es => Sys2Proof.Machine.execMap ch h sec ns es s
  | .mapChangeInstant ch => Sys2Proof.Machine.execMapChangeInstant ch s
  | .marginTestRetry ch => Sys2Proof.Machine.execMarginTestRetry ch s
  | .spareReq ch h r => Sys2Proof.Machine.execSpareReq ch h r s
  | .spareAck ch h n st => Sys2Proof.Machine.execSpareAck ch h n st s
  | .spareSwitch ch h n sec ns => Sys2Proof.Machine.execSpareSwitch ch h n sec ns s
  | .spareDone ch h n => Sys2Proof.Machine.execSpareDone ch h n s
  | .spareAbort ch h n => Sys2Proof.Machine.execSpareAbort ch h n s
  | .margin ch h ms => Sys2Proof.Machine.execMargin ch h ms s
  | .marginReportSend ch => Sys2Proof.Machine.execMarginReportSend ch s
  | .combReq ch h => Sys2Proof.Machine.execCombReq ch h s
  | .hlthRequestRepeat ch => Sys2Proof.Machine.execHlthRequestRepeat ch s
  | .spareAckTimeout ch n => Sys2Proof.Machine.execSpareAckTimeout ch n s
  | .spareCopyEnd ch => Sys2Proof.Machine.execSpareCopyEnd ch s
  | .coldSpareIn ch l => Sys2Proof.Machine.execColdSpareIn ch l s
  | .combTakeoverStart ch mean atLimit => Sys2Proof.Machine.execCombTakeoverStart ch mean atLimit s
  | .combWarmLocked ch ok => Sys2Proof.Machine.execCombWarmLocked ch ok s
  | .coldCombSwitch ch died => Sys2Proof.Machine.execColdCombSwitch ch died s
  | .safetyTrip ch => Sys2Proof.Machine.execSafetyTrip ch s
  | .laserEnNChange high => Sys2Proof.Machine.execLaserEnNChange high s
  | .kaHelloA ch b => Sys2Proof.Machine.execKaHelloA ch b s
  | .kaHelloB ch b => Sys2Proof.Machine.execKaHelloB ch b s
  | .kaFinish ch h sA sec ns => Sys2Proof.Machine.execKaFinish ch h sA sec ns s
  | .kaStart ch h sec ns => Sys2Proof.Machine.execKaStart ch h sec ns s
  | .kaRekey ch h num rA sec ns => Sys2Proof.Machine.execKaRekey ch h num rA sec ns s
  | .kaRekeyB ch h num rB sB => Sys2Proof.Machine.execKaRekeyB ch h num rB sB s
  | .kaRekeyFin ch h num sA => Sys2Proof.Machine.execKaRekeyFin ch h num sA s
  | .kaResume ch h num txseq => Sys2Proof.Machine.execKaResume ch h num txseq s
  | .kaResumeAck ch h num txseq => Sys2Proof.Machine.execKaResumeAck ch h num txseq s
  | .kaAbort ch reason => Sys2Proof.Machine.execKaAbort ch reason s
  | .kaRepeat ch => Sys2Proof.Machine.execKaRepeat ch s
  | .kaTimeout ch => Sys2Proof.Machine.execKaTimeout ch s
  | .kaRestart ch => Sys2Proof.Machine.execKaRestart ch s
  | .rekeyStart ch => Sys2Proof.Machine.execRekeyStart ch s
  | .keyRolloverInstant ch => Sys2Proof.Machine.execKeyRolloverInstant ch s
  | .keySaddleClose ch => Sys2Proof.Machine.execKeySaddleClose ch s
  | .rollLimitStop ch => Sys2Proof.Machine.execRollLimitStop ch s
  | .rngTestFail ch => Sys2Proof.Machine.execRngTestFail ch s
  | .rngMaskExpire ch => Sys2Proof.Machine.execRngMaskExpire ch s
  | .resumeTimeout ch => Sys2Proof.Machine.execResumeTimeout ch s
  | .cairnWrite ch => Sys2Proof.Machine.execCairnWrite ch s
  | .signAgeExpire ch => Sys2Proof.Machine.execSignAgeExpire ch s
  | .signatureRecordWrite ch slot => Sys2Proof.Machine.execSignatureRecordWrite ch slot s
  | .spanHead ch h b => Sys2Proof.Machine.execSpanHead ch h b s
  | .sigHead ch h bs => Sys2Proof.Machine.execSigHead ch h bs s
  | .provPendingExpire ch => Sys2Proof.Machine.execProvPendingExpire ch s
  | .relCntWrite ch hi => Sys2Proof.Machine.execRelCntWrite ch hi s
  | .getVersion => Sys2Proof.Machine.execGetVersion s
  | .getCapabilities ver => Sys2Proof.Machine.execGetCapabilities ver s
  | .negotiateAlgorithms common => Sys2Proof.Machine.execNegotiateAlgorithms common s
  | .getDigests => Sys2Proof.Machine.execGetDigests s
  | .getCertificate slot off len => Sys2Proof.Machine.execGetCertificate slot off len s
  | .challenge slot nonce => Sys2Proof.Machine.execChallenge slot nonce s
  | .getMeasurements idx nonce => Sys2Proof.Machine.execGetMeasurements idx nonce s
  | .keyExchange slot => Sys2Proof.Machine.execKeyExchange slot s
  | .finish session ok => Sys2Proof.Machine.execFinish session ok s
  | .heartbeat session => Sys2Proof.Machine.execHeartbeat session s
  | .endSession session => Sys2Proof.Machine.execEndSession session s
  | .spdmUnsupported => Sys2Proof.Machine.execSpdmUnsupported s
  | .timeFrame ch f => Sys2Proof.Machine.execTimeFrame ch f s
  | .timeFrameSend ch => Sys2Proof.Machine.execTimeFrameSend ch s
  | .ts ch h b => Sys2Proof.Machine.execTs ch h b s
  | .tsSend ch => Sys2Proof.Machine.execTsSend ch s
  | .timeUpdate unit meas => Sys2Proof.Machine.execTimeUpdate unit meas s
  | .frameModeEntry ch => Sys2Proof.Machine.execFrameModeEntry ch s
  | .acceptJump ch => Sys2Proof.Machine.execAcceptJump ch s
  | .ppsInEdge t => Sys2Proof.Machine.execPpsInEdge t s
  | .ppsInLoss => Sys2Proof.Machine.execPpsInLoss s
  | .todSet hi => Sys2Proof.Machine.execTodSet hi s
  | .ppsOutEdge => Sys2Proof.Machine.execPpsOutEdge s
  | .timeCapEdge k t => Sys2Proof.Machine.execTimeCapEdge k t s
  | .capEntryRemove k => Sys2Proof.Machine.execCapEntryRemove k s
  | .nowLatch unit => Sys2Proof.Machine.execNowLatch unit s
  | .timeSync ch resid => Sys2Proof.Machine.execTimeSync ch resid s
  | .timeDreq ch e corr arrival resid => Sys2Proof.Machine.execTimeDreq ch e corr arrival resid s
  | .globalSlotArm j data => Sys2Proof.Machine.execGlobalSlotArm j data s
  | .globalTriggerFire j => Sys2Proof.Machine.execGlobalTriggerFire j s
  | .partEpoch ch e b => Sys2Proof.Machine.execPartEpoch ch e b s
  | .partMode ch e b => Sys2Proof.Machine.execPartMode ch e b s
  | .partCancel ch e kind rsvd => Sys2Proof.Machine.execPartCancel ch e kind rsvd s
  | .partRevert ch e => Sys2Proof.Machine.execPartRevert ch e s
  | .ledgerBind ch e b => Sys2Proof.Machine.execLedgerBind ch e b s
  | .ledgerUnbind ch e b => Sys2Proof.Machine.execLedgerUnbind ch e b s
  | .partSeq ch e comm rsvd seq => Sys2Proof.Machine.execPartSeq ch e comm rsvd seq s
  | .reconStart ch e b => Sys2Proof.Machine.execReconStart ch e b s
  | .partReloaded ch e comm shard => Sys2Proof.Machine.execPartReloaded ch e comm shard s
  | .partDropDrift ch e => Sys2Proof.Machine.execPartDropDrift ch e s
  | .partExport ch e => Sys2Proof.Machine.execPartExport ch e s
  | .driftTimeLimit ch => Sys2Proof.Machine.execDriftTimeLimit ch s
  | .driftOffer ch h o => Sys2Proof.Machine.execDriftOffer ch h o s
  | .driftAck ch h job comm shard => Sys2Proof.Machine.execDriftAck ch h job comm shard s
  | .driftOfferRepeat ch => Sys2Proof.Machine.execDriftOfferRepeat ch s
  | .epochInstant ch => Sys2Proof.Machine.execEpochInstant ch s
  | .epochSaddleClose ch => Sys2Proof.Machine.execEpochSaddleClose ch s
  | .modeActInstant ch => Sys2Proof.Machine.execModeActInstant ch s
  | .modeSaddleClose ch => Sys2Proof.Machine.execModeSaddleClose ch s
  | .modeRevInstant ch => Sys2Proof.Machine.execModeRevInstant ch s
  | .modeMiss ch h job mode actS actNs => Sys2Proof.Machine.execModeMiss ch h job mode actS actNs s
  | .demeritDecay ch => Sys2Proof.Machine.execDemeritDecay ch s
  | .targetedSelftestDone ch cls unit ok => Sys2Proof.Machine.execTargetedSelftestDone ch cls unit ok s
  | .unitFence ch => Sys2Proof.Machine.execUnitFence ch s
  | .heldUnitRetry ch cls unit => Sys2Proof.Machine.execHeldUnitRetry ch cls unit s
  | .fenceRetest ch cls u ok => Sys2Proof.Machine.execFenceRetest ch cls u ok s
  | .sentinelSample ch stream unit first second temp occ16 => Sys2Proof.Machine.execSentinelSample ch stream unit first second temp occ16 s
  | .sentinelThirdRun ch third => Sys2Proof.Machine.execSentinelThirdRun ch third s
  | .sequencerMailboxTake ch => Sys2Proof.Machine.execSequencerMailboxTake ch s
  | .powerGoodStart f => Sys2Proof.Machine.execPowerGoodStart f s
  | .startupStepLate ch img f => Sys2Proof.Machine.execStartupStepLate ch img f s
  | .bootRel data fs => Sys2Proof.Machine.execBootRel data fs s
  | .svnFuseAdvance => Sys2Proof.Machine.execSvnFuseAdvance s
  | .stageHang ch k => Sys2Proof.Machine.execStageHang ch k s
  | .sequencerHang ch => Sys2Proof.Machine.execSequencerHang ch s
  | .lpddr6Hang ch => Sys2Proof.Machine.execLpddr6Hang ch s
  | .tickMissHang ch => Sys2Proof.Machine.execTickMissHang ch s
  | .recoveryStepLate ch => Sys2Proof.Machine.execRecoveryStepLate ch s
  | .coreWatchdog ch ok => Sys2Proof.Machine.execCoreWatchdog ch ok s
  | .coresLost ch => Sys2Proof.Machine.execCoresLost ch s
  | .hubWatchdog => Sys2Proof.Machine.execHubWatchdog s
  | .coreCheckpoint ch => Sys2Proof.Machine.execCoreCheckpoint ch s
  | .recover ch => Sys2Proof.Machine.execRecover ch s
  | .cold ch => Sys2Proof.Machine.execCold ch s
  | .returnCmd ch => Sys2Proof.Machine.execReturn ch s
  | .firmwareRecoverRequest ch => Sys2Proof.Machine.execFirmwareRecoverRequest ch s
  | .channelRecovery ch f => Sys2Proof.Machine.execChannelRecovery ch f s
  | .recoveryTimeout ch => Sys2Proof.Machine.execRecoveryTimeout ch s
  | .coldRestart ch img f => Sys2Proof.Machine.execColdRestart ch img f s
  | .pwrOffer ch st sec ns => Sys2Proof.Machine.execPwrOffer ch st sec ns s
  | .pwrOfferSend ch => Sys2Proof.Machine.execPwrOfferSend ch s
  | .pwrOfferLapse ch => Sys2Proof.Machine.execPwrOfferLapse ch s
  | .powerStateEntry ch => Sys2Proof.Machine.execPowerStateEntry ch s
  | .wake ch request => Sys2Proof.Machine.execWake ch request s
  | .wakeTolWrite ch data => Sys2Proof.Machine.execWakeTolWrite ch data s
  | .dmaAccess ch q => Sys2Proof.Machine.execDmaAccess ch q s
  | .hostLinkTrain cxl width rate cacheEn memEn => Sys2Proof.Machine.execHostLinkTrain cxl width rate cacheEn memEn s
  | .hostPortReset => Sys2Proof.Machine.execHostPortReset s
  | .hdmAccess line data => Sys2Proof.Machine.execHdmAccess line data s
  | .doorbell k data => Sys2Proof.Machine.execDoorbell k data s
  | .h2dTake k pass => Sys2Proof.Machine.execH2dTake k pass s
  | .d2hPost k by_ w => Sys2Proof.Machine.execD2hPost k by_ w s
  | .take k => Sys2Proof.Machine.execTake k s
  | .mailboxTimeout d2h k => Sys2Proof.Machine.execMailboxTimeout d2h k s
  | .violationDelivery ch => Sys2Proof.Machine.execViolationDelivery ch s
  | .eventRecordTake o n => Sys2Proof.Machine.execEventRecordTake o n s
  | .historyCopy ch => Sys2Proof.Machine.execHistoryCopy ch s
  | .windowClose o => Sys2Proof.Machine.execWindowClose o s
  | .sealStart o => Sys2Proof.Machine.execSealStart o s
  | .sealPageProgramDone ok => Sys2Proof.Machine.execSealPageProgramDone ok s
  | .sectorEraseDone => Sys2Proof.Machine.execSectorEraseDone s
  | .vinRise => Sys2Proof.Machine.execVinRise s
  | .powerGood addr => Sys2Proof.Machine.execPowerGood addr s
  | .undervoltageLockout => Sys2Proof.Machine.execUndervoltageLockout s
  | .undervoltageWarn => Sys2Proof.Machine.execUndervoltageWarn s
  | .overvoltage => Sys2Proof.Machine.execOvervoltage s
  | .overvoltageClear => Sys2Proof.Machine.execOvervoltageClear s
  | .inputCurrentLatch => Sys2Proof.Machine.execInputCurrentLatch s
  | .inputSwitchReset byVin => Sys2Proof.Machine.execInputSwitchReset byVin s
  | .powerDown => Sys2Proof.Machine.execPowerDown s
  | .dieOverTemp ch => Sys2Proof.Machine.execDieOverTemp ch s
  | .dieCooled ch => Sys2Proof.Machine.execDieCooled ch s
  | .thermThreshold low => Sys2Proof.Machine.execThermThreshold low s
  | .smbReadPwr code meas => Sys2Proof.Machine.execSmbReadPwr code meas s
  | .smbReadCaps => Sys2Proof.Machine.execSmbReadCaps s
  | .smbClearStat data => Sys2Proof.Machine.execSmbClearStat data s
  | .referenceReturn ch => Sys2Proof.Machine.execReferenceReturn ch s
  | .lightReturn ch lane => Sys2Proof.Machine.execLightReturn ch lane s
  | .rngTestPass ch => Sys2Proof.Machine.execRngTestPass ch s
  | .ringLocked ch k => Sys2Proof.Machine.execRingLocked ch k s
  | .factorUnitComplete ch ctx => Sys2Proof.Machine.execFactorUnitComplete ch ctx s
  | .msixUnmask v => Sys2Proof.Machine.execMsixUnmask v s
  | .ideKmRequest session ok io cm => Sys2Proof.Machine.execIdeKmRequest session ok io cm s
  | .ideCheckFail => Sys2Proof.Machine.execIdeCheckFail s
  | .cdatRead => Sys2Proof.Machine.execCdatRead s

end Sys2Proof.Machine
end

