-- ==== Sys2Proof/Machine/Windows.lean ====
section
/-! DEFINITION. What the read-only windows show: tables, descriptors, histograms, rings, the violation log, the sealed sectors, the
configuration space (R101, R189, R192, R252, R259, R292, R376, R510, R558, R580, R590, R595, R596, R599, R601; *Configuration space
capabilities*). Multi-byte fields stand most significant byte first. -/

namespace Sys2Proof.Machine

open Sys2Proof

/-- Word `i` of a list of bytes laid out big-endian in fours (R192, R232, R510); zeros past its end. -/
def wordAt (bs : List Byte) (i : Nat) : Word := BitVec.ofNat 32 (beAt bs (4 * i) 4)

/-- The word at offset `o` of a table of entries of `size` bytes. -/
def tableWord (size : Nat) (entry : Nat → List Byte) (o : Nat) : Word := wordAt (entry (o / size)) (o % size / 4)

/-! ### The table window (R101, R189, R292) and the ring window (R596) -/

/-- An entry of the block owner table, by physical block. -/
def Chan.ownerBytes (c : Chan) (b : Nat) : List Byte :=
  match cget? c.fab.blocks b with
  | some (slot, rel) => beBytes 2 (32768 + 2048 * slot + rel)
  | none => [0, 0]

/-- A ring slot as the ring window shows it (R573, R596). -/
def ringBytes (r : Recorder) (k : Nat) : List Byte := match cget? r.ring k with | some e => evtBytes e | none => []

/-- Offsets from 0x0100_0000 on of a channel window. -/
def Chan.readTables (c : Chan) (o : Nat) : Word :=
  let gen (base half : Nat) : Tables := c.tables (decide (half ≤ o - base))
  if o < 0x1400000 then tableWord 16 (fun i => beBytes 16 (cget 0 (gen 0x1000000 0x200000).ranks i).toNat) ((o - 0x1000000) % 0x200000)
  else if o < 0x1440000 then tableWord 32 (fun i => beBytes 32 (cget 0 (gen 0x1400000 0x20000).trees i).toNat) ((o - 0x1400000) % 0x20000)
  else if o < 0x1440800 then tableWord 8 (fun i => beBytes 8 (cget 0 (gen 0x1440000 0x400).windows i).toNat) ((o - 0x1440000) % 0x400)
  else if 0x1441000 ≤ o ∧ o < 0x1441400 then
    tableWord 4 (fun i => c.ownerBytes (2 * i) ++ c.ownerBytes (2 * i + 1)) (o - 0x1441000)
  else if 0x1480000 ≤ o ∧ o < 0x14C0000 then
    tableWord 128 (fun i => beBytes 128 (cget 0 (gen 0x1480000 0x20000).groups i).toNat) ((o - 0x1480000) % 0x20000)
  else if 0x1500000 ≤ o ∧ o < 0x1504000 then
    tableWord 32 (fun i => beBytes 32 (cget 0 (gen 0x1500000 0x2000).policers i).toNat) ((o - 0x1500000) % 0x2000)
  else if 0x1C00000 ≤ o then tableWord 256 (ringBytes c.evr) (o - 0x1C00000)
  else 0

/-! ### Tables of the blocks -/

/-- An entry of the communicator table (R192). -/
def Chan.commEntry (c : Chan) (i : Nat) : List Byte :=
  match c.col.comms.find? fun m => m.idx == i with
  | some m => (commBytes m.body ++ List.replicate 96 0).take 96 ++ beBytes 2 (32768 + 2048 * m.slot) ++ beBytes 1 m.live.length ++ [0]
      ++ beBytes 4 m.lastSeq.toNat ++ m.live.flatMap fun e => beBytes 6 e.toNat
  | none => []

/-- Codes of the kernels (R243). -/
def kernelCode : Kernel → Nat
  | .qinit => 1 | .proj => 2 | .orth => 3 | .projt => 4 | .resid => 5 | .recon => 6 | .selftest => 15

/-- The descriptor of context `k` (R252, R259). -/
def Chan.descBytes (c : Chan) (k : Nat) : List Byte :=
  match cget? c.mtx.descs k with
  | some d => beBytes 1 (kernelCode d.kernel) ++ beBytes 1 (16 * d.fmt) ++ beBytes 1 (128 * d.mx.toNat + 16 * d.rlog) ++ beBytes 1 k
      ++ beBytes 2 d.comm.toNat ++ beBytes 2 d.shard.toNat ++ beBytes 4 d.seq.toNat ++ beBytes 1 (128 + d.attempt) ++ [0]
      ++ beBytes 2 d.extent ++ beBytes 4 d.rows ++ beBytes 4 d.cols ++ beBytes 4 (panelsDone d) ++ beBytes 4 (panelCount d.kernel d.rows d.cols)
  | none => []

/-- A ring's tuning record (R376). -/
def Chan.tuningBytes (c : Chan) (r : Nat) : List Byte :=
  let x := vget c.opt.rings r
  x.codes.flatMap (fun k => beBytes 2 k.toNat) ++ sgnBytes 2 x.trim

/-- An entry of the ledger extent table (R510). -/
def Chan.ledgerEntry (c : Chan) (i : Nat) : List Byte :=
  match c.part.ledgers.find? fun l => l.idx == i with
  | some l =>
    let drift := c.part.shards.any fun x => x.slot == l.slot && x.comm == l.comm && x.shard == l.shard
    beBytes 1 (128 + 8 * l.slot + 4 * drift.toNat) ++ [0] ++ beBytes 2 l.comm.toNat ++ beBytes 2 l.shard.toNat ++ beBytes 2 l.baseMib
      ++ beBytes 2 l.sizeMib ++ beBytes 2 l.n ++ beBytes 4 l.chunks
  | none => []

/-! ### The recorder (R595, R599) -/

/-- A window of the histogram window: bytes 0–127 of a window record (R585, R595). It carries no RSEQ, having no record of its own. -/
def histEntry (ch m w : Nat) (x : MetricWin) : List Byte := (winBytes ch { rseq := 0, metric := m, wlen := w, win := x }).take 128

/-- Entry (m, w, h): the open window, or the last closed one; the windows of a metric without samples are empty (R582, R595). -/
def histView (x : RecCtx) (r : Recorder) (i : Nat) : List Byte :=
  let m := i / 6
  let w := i % 6 / 2
  let len := winLen w
  let cur := x.now / (1000000000 * 65536) / len * len
  let last := r.closedS / len * len - len
  match x.desc m with
  | none => []
  | some _ =>
    if i % 2 = 0 then histEntry x.ch m w ((cget? r.openW (3 * m + w)).getD { startS := cur })
    else match cget? r.closedW (3 * m + w) with
      | some z => histEntry x.ch m w (if z.startS < last then { startS := last } else z)
      | none => []

/-- A descriptor's four words as they read (R580, R599); those of the firmware metrics are registers. -/
def descWord (d : Option (Nat × Int × Nat)) (i : Nat) : Word :=
  match d with
  | some (mode, base, width) =>
    lget 0 [BitVec.ofNat 32 (mode * 1073741824 + 536870912), BitVec.ofInt 32 base, BitVec.ofNat 32 width, 0] i
  | none => 0

/-- Histogram window and descriptors of a channel's recorder, from 0xE10000 on. -/
def Chan.readEvr (c : Chan) (ch o : Nat) : Word :=
  if 0xE10000 ≤ o ∧ o < 0xE11C00 then descWord (c.desc ((o - 0xE10000) / 16)) (o % 16 / 4)
  else if 0xE40000 ≤ o ∧ o < 0xEA0000 then tableWord 128 (histView (c.recCtx ch) c.evr) (o - 0xE40000)
  else c.reg o

/-- A page of a sector of the sealed history: page 0 is the header; a page that failed verification holds what its programming left, a
free value (R590, R592). -/
def sectorPage (s : SealSector) (owner v page : Nat) : List Byte :=
  if page = 0 then
    match s.sseq with
    | some n => beBytes 4 0x535A3845 ++ beBytes 1 owner ++ beBytes 3 0 ++ beBytes 4 n ++ List.replicate 244 0xFF
    | none => List.replicate 256 0xFF
  else match s.pages[page - 1]? with
    | some (some e) => evtBytes e
    | some none => Config.freeBytes v 256
    | none => List.replicate 256 0xFF

/-- A word of the sector that SEAL_SECT names (R590, R601). -/
def State.readSector (s : State) (o : Nat) : Word :=
  let k := fld (s.hub.reg 0x400028) 8 0
  let owner := min 8 (k / 56)
  let sec := cget? (vget s.hub.areas owner).sectors (k - 56 * owner)
  tableWord 256 (sectorPage (sec.getD {}) (if owner = 8 then 0xFF else owner) s.free) o

/-- Windows of the module's recorder (R601). -/
def State.readModEvr (s : State) (o : Nat) : Word :=
  let h := s.hub
  if 0x410000 ≤ o ∧ o < 0x411000 then descWord (h.recCtx.desc ((o - 0x410000) / 16)) (o % 16 / 4)
  else if 0x420000 ≤ o ∧ o < 0x450000 then tableWord 128 (histView h.recCtx h.evr) (o - 0x420000)
  else if 0x460000 ≤ o ∧ o < 0x470000 then s.readSector (o - 0x460000)
  else if 0x480000 ≤ o ∧ o < 0x500000 then tableWord 256 (ringBytes h.evr) (o - 0x480000)
  else h.reg o

/-! ### The violation log (R558) -/

/-- Codes of SOURCE and KIND. -/
def violSourceCode : ViolSource → Nat
  | .hostIo => 1 | .hostMem => 2 | .chFirmware => 3 | .hubFirmware => 4 | .fabric => 5 | .line => 6 | .trigger => 7 | .dmaGuard => 8
  | .xspi => 9
def violKindCode : ViolKind → Nat
  | .absentUnit => 1 | .sealedField => 2 | .readOnly => 3 | .reservedOrAlign => 4 | .keyStore => 5 | .badValue => 6 | .outsidePlan => 7
  | .outsideDma => 8 | .outsideHistory => 9 | .inbandRule => 10 | .mailboxRoute => 11

/-- An entry of 32 bytes. -/
def violBytes (e : ViolEntry) : List Byte :=
  let v := e.viol
  beBytes 1 (violSourceCode v.source) ++ beBytes 1 v.ch ++ beBytes 1 (violKindCode v.kind) ++ [if v.write then 1 else 2] ++ stampBytes v.stamp
    ++ beBytes 2 0 ++ beBytes 8 v.addr ++ beBytes 5 v.coord.toNat ++ beBytes 3 e.reps

/-- Word `o / 4` of the ring of 64 entries. -/
def violWord (p : HostPort) (o : Nat) : Word :=
  tableWord 32 (fun i => match cget? p.violLog i with | some e => violBytes e | none => []) o

/-! ### MSI-X (R571) and the configuration space -/

/-- The MSI-X table, 16 bytes a vector with the mask in word 3, and the pending bits, as PCI Express lays them out (log entry 175). -/
def Hub.readMsix (h : Hub) (o : Nat) : Word :=
  if o < 0xF00400 then (if o % 16 = 12 then BitVec.ofNat 32 (bitOf h.host.masked ((o - 0xF00000) / 16)).toNat else h.reg o)
  else if o = 0xF10000 then h.host.msiPend.setWidth 32
  else if o = 0xF10004 then (h.host.msiPend >>> 32).setWidth 32
  else 0

/-- The words of the configuration space that the manual gives: identity, class and revision, and where each capability stands
(*Configuration space capabilities*). -/
def cfgSpace : List (Nat × Word) := [(0x000, 0x5A381F3D), (0x008, 0x120000B1)]
def cfgCaps : List (Nat × String) := [(0x000, "Type 0 header"), (0x040, "PCI Express"), (0x080, "MSI-X"), (0x0C0, "Power management"),
  (0x100, "AER"), (0x200, "CXL DVSEC for Devices"), (0x240, "CXL Register Locator DVSEC"), (0x280, "CXL Flex Bus Port DVSEC"), (0x300, "DOE"),
  (0x340, "IDE"), (0x380, "Device Serial Number")]

end Sys2Proof.Machine
end

