-- ==== Sys2Proof/Machine/RegRead.lean ====
section
/-! DEFINITION. Registers as software reads them (00_scope, R6, R8, R13; the register tables of every chapter). The opcode table has no
read command: a read changes nothing but what NOW_LATCH and CAP_ENTRY_REMOVE do, so a read is a function of the state. -/

namespace Sys2Proof.Machine

open Sys2Proof

/-- A word from its fields: high bit, low bit and value of each; a value is cut to its field. -/
def packW (fs : List (Nat × Nat × Nat)) : Word := fs.foldl (fun (w : Word) f => putFld w f.1 f.2.1 f.2.2) 0

/-- A bit of a field list. -/
def bit1 (i : Nat) (b : Bool) : Nat × Nat × Nat := (i, i, b.toNat)

/-- A signed value as a field of `n` bits. -/
def twos (n : Nat) (v : Int) : Nat := (BitVec.ofInt n v).toNat

/-! ### CTRL, FAB, POOL, MEM -/

/-- Code of a slot's mode (R65). -/
def modeCode : SlotMode → Nat
  | .free => 0 | .stage => 1 | .col => 2 | .releasing => 3

/-- STATE (R545). -/
def Chan.stateReg (c : Chan) : Word :=
  packW [(31, 28, c.boot.phase), (27, 24, c.boot.cause), bit1 23 c.boot.sealed, bit1 22 c.boot.hostEdit, bit1 21 c.boot.held,
    (20, 16, c.boot.det), (15, 8, min 255 c.recentRecovs.length)]

/-- SLOT_STAT_k (R65). -/
def Chan.slotStat (c : Chan) (k : Nat) : Word :=
  let s := c.slot k
  let mode := match cget? c.part.modes k with | some m => m.saddle.isSome | none => false
  let epoch := match cget? c.part.epochs k with | some e => e.saddle.isSome | none => false
  if s.mode = .free then 0
  else packW [(31, 30, modeCode s.mode), (29, 24, s.body.anchor.toNat), (23, 16, s.pepoch.toNat), bit1 15 (c.drifting k),
    bit1 14 s.stall, (13, 10, s.opts.toNat), bit1 9 (c.genSaddle k), bit1 8 epoch, bit1 7 mode]

/-- DRIFT_k, its two words (R509). -/
def Chan.driftReg (c : Chan) (k w : Nat) : Word :=
  match cget? c.part.drifts k with
  | none => 0
  | some d =>
    let mine := c.part.shards.filter fun x => x.slot == k
    if w = 0 then BitVec.ofNat 32 (min 0xFFFFFFFF (c.ms - d.sinceMs))
    else packW [(31, 21, min 2047 d.steps), bit1 20 d.limit,
      bit1 19 (!mine.isEmpty && mine.all fun x => x.acked && x.peer.isSome), bit1 18 (mine.any fun x => decide (x.action = some .reload))]

/-- Free MiB and longest free run of a region holding runs at given places, its metadata among them (R229, R230, R509); they read 0 until the
deep buffer has trained. -/
def freeMib (total : Nat) (runs : List (Nat × Nat)) : Nat := total - (runs.map Prod.snd).sum
def largestRun (total : Nat) (runs : List (Nat × Nat)) : Nat :=
  let ends := sortBy (fun a b : Nat × Nat => decide (a.1 ≤ b.1)) runs
  let r := ends.foldl (fun (a : Nat × Nat) e => (max a.1 (e.1 - a.2), max a.2 (e.1 + e.2))) (0, 0)
  max r.1 (total - r.2)

/-- CTRL block. -/
def Chan.readCtrl (c : Chan) (o : Nat) : Word :=
  if o = 0x0 then c.stateReg
  else if o = 0x4 then 0
  else if o = 0x8 then c.reg 0x8 ||| packW [(15, 13, c.boot.pst), (12, 10, c.boot.peerOffer), (9, 6, c.boot.wakeCause)]
  else if o = 0x4C then packW [(31, 16, if c.mem.phase = .off then 0 else freeMib (c.regionMib 4) c.ledgerRuns), (12, 0, c.part.ledgers.length)]
  else if 0x100 ≤ o ∧ o < 0x140 then c.slotStat ((o - 0x100) / 4)
  else if 0x140 ≤ o ∧ o < 0x180 then
    (let s := c.slot ((o - 0x140) / 4); if s.mode = .free then 0 else s.body.jobId)
  else if 0x180 ≤ o ∧ o < 0x1C0 then
    (let s := c.slot ((o - 0x180) / 4); if s.mode = .free then 0 else s.step)
  else if 0x200 ≤ o ∧ o < 0x280 then c.driftReg ((o - 0x200) / 8) (o % 8 / 4)
  else if 0x10000 ≤ o ∧ o < 0x20000 then tableWord 16 c.ledgerEntry (o - 0x10000)
  else c.reg o

/-- PORT_STAT_p (R102). -/
def Chan.portStat (c : Chan) (p : Nat) : Word :=
  let x := c.port p
  let st := match x.state with | .down => 0 | .training => 1 | .up => 2 | .retraining => 3
  let w := if x.state = .down then 0 else if 4 ≤ x.width then 3 else if 2 ≤ x.width then 2 else x.width
  packW [(31, 29, st), (28, 27, w), (26, 24, x.attempt), (23, 16, fld (c.reg (0x100000 + 4 * p)) 23 16)]

/-- FAB block (R102–R104). A lane is fenced in either direction. -/
def Chan.readFab (c : Chan) (o : Nat) : Word :=
  if o < 0x100010 then c.portStat ((o - 0x100000) / 4)
  else if o = 0x100010 then
    let lanes := (List.range 17).foldl (fun (w : BitVec 17) l => if unitOut (c.unit 3 l) || unitOut (c.unit 4 l) then putBit w l true else w) 0
    packW [bit1 31 c.fab.txSpareFor.isSome, (30, 26, c.fab.txSpareFor.getD 0), bit1 25 c.fab.rxSpareFor.isSome,
      (24, 20, c.fab.rxSpareFor.getD 0), (16, 0, lanes.toNat)]
  else if o = 0x100014 then packW [(3, 0, c.fab.fenced.toNat)]
  else if o = 0x10001C then
    let busy := (List.range 16).foldl (fun (w : BitVec 16) k => if cget? c.fab.changes k = some .copying then putBit w k true else w) 0
    packW [(31, 16, busy.toNat), (15, 0, c.fab.curGen.toNat)]
  else c.reg o

/-- POOL block (R142, R144, R145). -/
def Chan.readPool (c : Chan) (o : Nat) : Word :=
  if o < 0x200010 then
    let p := (o - 0x200000) / 4
    if c.measuring then packW [(31, 16, c.poolFree p), (15, 0, (c.pool p).minFree)] else 0
  else if 0x200100 ≤ o ∧ o < 0x200200 then
    let k := (o - 0x200100) / 16
    let p := o % 16 / 4
    packW [(31, 16, shareUse (c.pool p) (.slot k)), (15, 0, c.slotCap k p)]
  else if 0x200200 ≤ o ∧ o < 0x200240 then
    let k := (o - 0x200200) / 4
    packW [(31, 16, c.slotSegs k 1), (15, 0, c.slotSegs k 3)]
  else c.reg o

/-- MEM block (R147, R150). -/
def Chan.readMem (c : Chan) (o : Nat) : Word :=
  let m := c.mem
  if o = 0x300000 then
    packW [bit1 31 (decide (m.phase = .up)), bit1 30 (decide (m.phase = .selfRefresh)), bit1 29 m.unclean,
      bit1 28 (decide (m.phase = .scrubbing)), (15, 0, m.chUp.toNat)]
  else if o = 0x300048 then
    packW [(31, 16, (m.retired.filter fun r => r.repl.isSome).length), (15, 0, (m.retired.filter fun r => r.repl.isNone).length)]
  else if o = 0x30004C then BitVec.ofNat 32 m.lastErr
  else if o = 0x300050 then BitVec.ofNat 32 (m.lastErr / 4294967296)
  else c.reg o

/-! ### COL, CODEC, MTX, SCH -/

/-- Context registers and FREE (R190, R191), the communicator table (R192). -/
def Chan.readCol (c : Chan) (o : Nat) : Word :=
  if o < 0x400300 then
    match cget? c.col.ctxs (o % 256 / 4) with
    | none => 0
    | some x =>
      if o < 0x400100 then packW [(31, 30, if x.ending then 2 else 1), (29, 26, x.slot), (25, 24, x.attempt), (23, 21, x.body.role.toNat),
        (15, 0, x.comm.toNat)]
      else if o < 0x400200 then x.seq
      else packW [(31, 8, if reducing x then x.done.length else x.results.length), (7, 0, shareUse (c.pool 2) (.ctx (o % 256 / 4)))]
  else if o = 0x400304 then BitVec.ofNat 32 (64 - c.col.ctxs.length)
  else if 0x410000 ≤ o ∧ o < 0x420000 then tableWord 256 c.commEntry (o - 0x410000)
  else c.reg o

/-- An entry of the talus extent table, 16 bytes (R232). -/
def extentBytes (e : Extent) : List Byte :=
  beBytes 1 (128 + e.slot * 8 + (if e.commit then 4 else 0) + (if e.lowrank then 2 else 0)) ++ beBytes 1 0 ++ beBytes 2 e.comm.toNat
    ++ beBytes 2 e.shard.toNat ++ beBytes 2 e.baseMib ++ beBytes 2 e.sizeMib ++ beBytes 2 0 ++ beBytes 4 e.chunks

/-- CODEC block (R229–R232). -/
def Chan.readCodec (c : Chan) (o : Nat) : Word :=
  let shown (n : Nat) : Nat := if c.mem.phase = .off then 0 else n
  if o = 0x500000 then packW [(31, 16, shown (freeMib (c.regionMib 3) c.talusRuns)), (12, 0, c.codec.extents.length)]
  else if o = 0x500004 then packW [(31, 16, shown (largestRun (c.regionMib 3) c.talusRuns))]
  else if 0x500010 ≤ o ∧ o < 0x500050 then
    let k := (o - 0x500010) / 4
    packW [(31, 28, cget 0 c.codec.flows (4 * k + 1)), (27, 24, cget 0 c.codec.flows (4 * k + 3))]
  else if 0x510000 ≤ o ∧ o < 0x520000 then
    match c.codec.extents.find? fun e => e.idx == (o - 0x510000) / 16 with
    | some e => wordAt (extentBytes e) (o % 16 / 4)
    | none => 0
  else c.reg o

/-- Bit n set for each n below 17 that holds. -/
def mask17 (p : Nat → Bool) : Nat := ((List.range 17).foldl (fun (w : BitVec 17) n => if p n then putBit w n true else w) 0).toNat

/-- MTX block (R258). -/
def Chan.readMtx (c : Chan) (o : Nat) : Word :=
  if o = 0x600000 then
    packW [(31, 15, if c.measuring then mask17 c.tileUp else 0), (14, 10, (cget? c.hlth.spare 0).getD 31), bit1 9 (c.measuring && c.streamOn true 1), (6, 0, c.mtx.descs.length)]
  else if o = 0x600004 then packW [(16, 0, mask17 fun t => unitOut (c.unit 0 t))]
  else if 0x610000 ≤ o ∧ o < 0x610800 then tableWord 32 c.descBytes (o - 0x610000)
  else c.reg o

/-- The floor of a class in Gb/s, as the last tick set it (R267, R269). -/
def Chan.floorGb (c : Chan) (k : Nat) : Nat :=
  let above := ((List.range k).map fun j => fld (c.reg (0x700000 + 4 * j)) 31 23).sum
  c.sch.tickRline * (256 - above) / 256

/-- Objects of a flow that wait on the channel toward the line, spilled ones included (R264). -/
def Chan.queuedObjs (c : Chan) (slot cls : Nat) : List LineObj :=
  (c.flow slot cls).objs ++ (c.spillQ slot cls true).objs.filterMap fun o => match o.1 with | .toLine x => some x | .toFabric _ => none

/-- Counted bytes queued in queue `q` = 64 × slot + 16 × class + lane (R263, R290). -/
def Chan.qBytes (c : Chan) (q : Nat) : Nat :=
  ((c.queuedObjs (q / 64) (q / 16 % 4)).filter fun o => o.step.toNat % 16 == q % 16).foldl (fun n o => n + counted o) 0

/-- The oldest step with data queued in a flow: the one furthest behind the slot's current step, which an empty flow shows (R290). -/
def Chan.oldest (c : Chan) (slot cls : Nat) : Word :=
  let cur := (c.slot slot).step
  (c.queuedObjs slot cls).foldl (fun s o => if cur - s < cur - o.step then o.step else s) cur

/-- SCH block (R288, R290). -/
def Chan.readSch (c : Chan) (o : Nat) : Word :=
  if o = 0x700010 then packW [(31, 20, c.sch.rline), (19, 8, c.sch.peerNet)]
  else if o = 0x700014 then packW [(31, 22, c.floorGb 1 / 2), (21, 12, c.floorGb 2 / 2), (11, 2, c.floorGb 3 / 2)]
  else if 0x700400 ≤ o ∧ o < 0x700500 then
    c.oldest ((o - 0x700400) / 16) (o % 16 / 4)
  else if 0x701000 ≤ o ∧ o < 0x702000 then BitVec.ofNat 32 (c.qBytes ((o - 0x701000) / 4))
  else c.reg o

/-! ### LINE, OPT, SEC, PROV, TIME, HLTH, EVR -/

/-- LINE block (R335, R336). -/
def Chan.readLine (c : Chan) (o : Nat) : Word :=
  let l := c.line
  let st := match l.state with | .downLos => 0 | .downLof => 1 | .rxUp => 2 | .up => 3
  if o = 0x800000 then
    packW [(31, 29, st), bit1 28 l.oof, bit1 27 l.bdiRx, bit1 26 c.bdiTx,
      (25, 22, ((List.range 4).foldl (fun (w : BitVec 4) j => if (vget l.legs j).inAis then putBit w j true else w) 0).toNat),
      (21, 18, l.aisRx.toNat), (15, 8, l.mfasRx.toNat)]
  else if o = 0x800004 then
    (List.range 32).foldl (fun (w : Word) j => if (vget l.lanes j).align = .sync then putBit w j true else w) 0
  else if o = 0x800010 then BitVec.ofNat 32 l.rttNs
  else if o = 0x800014 then BitVec.ofNat 32 (if l.rttNs = 0 then 0 else c.rtxWin)
  else if o = 0x800018 then
    let sk := (l.lanes.toList.filter fun x => decide (x.align = .sync)).map Lane.skewNs
    packW [(31, 16, sk.foldl max 0 - sk.foldl min (sk.headD 0))]
  else c.reg o

/-- Codes of R372 and R375. -/
def combCode : CombSt → Nat
  | .off => 0 | .warming => 1 | .locked => 2 | .serving => 3 | .faded => 4 | .failed => 5
def laneCode : LaneSt → Nat
  | .dark => 0 | .mapped => 1 | .spare => 2 | .shadow => 3 | .retired => 4 | .outside => 5
def mtCode : MtSt → Nat
  | .notRun => 0 | .running => 1 | .passed => 2 | .marginal => 3 | .failed => 4

/-- A map register (R374). -/
def mapReg (e : MapEnt) : Word := packW [bit1 31 e.ook, (29, 24, e.phys.toNat), (21, 16, e.pair.toNat)]

/-- OPT block (R372–R375). -/
def Chan.readOpt (c : Chan) (laserEnN : Bool) (o : Nat) : Word :=
  let x := c.opt
  if o = 0x900000 then
    packW [bit1 31 x.combSel, (30, 28, combCode (vget x.combs x.combSel.toNat).st), (27, 25, combCode (vget x.combs (!x.combSel).toNat).st),
      bit1 24 (!laserEnN), bit1 23 x.safeTrip, (22, 20, mtCode x.mt), (19, 17, x.rxOps.length), (16, 14, x.txOps.length), bit1 13 x.tlTx,
      bit1 12 x.tlRx]
  else if o = 0x900010 then packW [(31, 16, twos 16 x.d0), (15, 0, twos 16 x.slope)]
  else if o = 0x900020 ∨ o = 0x900024 then
    let k := vget x.combs ((o - 0x900020) / 4)
    packW [(31, 29, combCode k.st), (28, 19, twos 10 k.mean), (18, 9, (k.ref - k.mean).toNat)]
  else if 0x900100 ≤ o ∧ o < 0x900180 then mapReg (vget x.txMap ((o - 0x900100) / 4))
  else if 0x900180 ≤ o ∧ o < 0x900200 then mapReg (vget x.rxMap ((o - 0x900180) / 4))
  else if 0x900200 ≤ o ∧ o < 0x900290 then
    let l := vget x.rx ((o - 0x900200) / 4)
    packW [(31, 29, laneCode l.st), bit1 28 l.ook, (25, 16, twos 10 l.margin), (15, 6, twos 10 l.pwr)]
  else if 0x900300 ≤ o ∧ o < 0x900390 then
    let l := vget x.tx ((o - 0x900300) / 4)
    packW [(31, 29, laneCode l.st), bit1 28 l.ook, (27, 18, twos 10 l.pwr), (17, 10, match l.peer with | some m => twos 8 m | none => 0x80)]
  else if 0x910000 ≤ o ∧ o < 0x911300 then tableWord 64 c.tuningBytes (o - 0x910000)
  else c.reg o

/-- PIPE_TX and PIPE_RX (R407). -/
def Chan.pipeReg (c : Chan) (cls : Nat) : Word :=
  let on := c.boot.tested
  packW [(31, 15, if on then mask17 fun u => !unitOut (c.unit cls u) && (decide (u < 16) || (cget? c.hlth.spare cls).isSome) else 0),
    (14, 10, (cget? c.hlth.spare cls).getD 31), bit1 9 (on && c.streamOn true (cls + 1))]

/-- SEC block (R405–R407). Key material has no address (R381). -/
def Chan.readSec (c : Chan) (o : Nat) : Word :=
  let x := c.sec
  let ka := match x.phase with
    | .none => 0 | .hello => 1 | .handshake => 2 | .service => 3 | .rekeying => 4 | .resuming => 5 | .failed => 6
  let at_ := match x.next with | some n => n.at_ | none => 0
  if o = 0xA00000 then
    packW [bit1 31 c.suite, (30, 28, ka), (27, 20, match x.cur with | some e => e.num.toNat | none => 0), bit1 19 x.saddle.isSome,
      bit1 18 x.stop, bit1 17 x.rngOk, bit1 16 c.isA]
  else if o = 0xA00008 then BitVec.ofNat 32 (if x.cur.isSome then min 0xFFFFFFFF c.epochAge else 0)
  else if o = 0xA0000C then BitVec.ofNat 32 (min 0xFFFFFFFF (x.txBytes / 1048576))
  else if o = 0xA00010 then BitVec.ofNat 32 (min 0xFFFFFFFF (x.rxBytes / 1048576))
  else if o = 0xA00014 then BitVec.ofNat 32 (at_ / 1000000000)
  else if o = 0xA00018 then BitVec.ofNat 32 (at_ % 1000000000)
  else if o = 0xA00020 then c.pipeReg 1
  else if o = 0xA00024 then c.pipeReg 2
  else if 0xA00040 ≤ o ∧ o < 0xA00060 then wordAt (beBytes 32 x.peerCert.toNat) ((o - 0xA00040) / 4)
  else c.reg o

/-- PROV block (R427–R430). -/
def Chan.readProv (c : Chan) (o : Nat) : Word :=
  let p := c.prov
  if o = 0xB00000 then c.reg o ||| packW [bit1 29 c.signOk]
  else if o = 0xB00008 then BitVec.ofNat 32 p.wr
  else if o = 0xB0000C then BitVec.ofNat 32 (p.wr / 4294967296)
  else if o = 0xB00018 then BitVec.ofNat 32 c.provCap
  else if 0xB00100 ≤ o ∧ o < 0xB00200 then
    match cget? p.chains ((o - 0xB00100) / 16) with
    | some h => lget 0 [BitVec.ofNat 32 h.next, BitVec.ofNat 32 h.lastSigned, BitVec.ofNat 32 h.job, packW [(10, 0, h.unsigned)]] (o % 16 / 4)
    | none => 0
  else if 0xB10000 ≤ o ∧ o < 0xB12000 then
    wordAt ((beBytes 2 c.cfg.certs.length ++ c.cfg.certs ++ List.replicate 8192 0).take 8192) ((o - 0xB10000) / 4)
  else c.reg o

/-- Codes of a time unit's state and source (R444, R465). -/
def unitState (u : TimeUnit) : Nat := match u.state with | .freerun => 0 | .acquire => 1 | .locked => 2 | .holdover => 3
def unitSrc (u : TimeUnit) : Nat := match u.src with | .none => 0 | .module => 1 | .peer => 2

/-- A trigger slot's four words (R467). -/
def slotWord (t : TrigSlot) (w : Nat) : Word :=
  let sec := t.at_ / 1000000000
  lget 0 [BitVec.ofNat 32 sec, packW [bit1 31 t.armed, bit1 30 t.fired, (29, 16, t.width), (15, 0, sec / 4294967296)],
    BitVec.ofNat 32 (t.at_ % 1000000000), BitVec.ofNat 32 t.period] w

/-- TIME block (R465–R467). -/
def Chan.readTime (c : Chan) (o : Nat) : Word :=
  let t := c.time
  let u := t.unit
  if o = 0xC00000 then
    packW [(31, 29, unitState u), (28, 27, unitSrc u), bit1 26 (!t.frameMode), bit1 25 c.isAligned, bit1 24 t.asym, bit1 23 u.jump.isSome]
  else if o = 0xC0000C then BitVec.ofInt 32 (u.offset / 256)
  else if o = 0xC00010 then BitVec.ofNat 32 (match c.unc with | some n => min n 0xFFFFFFFE | none => 0xFFFFFFFF)
  else if o = 0xC00014 then packW [(31, 16, twos 16 (t.fibreDiff / 256))]
  else if o = 0xC00018 then packW [(31, 16, twos 16 t.asymTx), (15, 0, twos 16 t.asymRx)]
  else if o = 0xC00020 then BitVec.ofNat 32 (c.now / 1000000000)
  else if o = 0xC00024 then t.latchHi.setWidth 32
  else if o = 0xC00028 then t.latchNs
  else if 0xC00100 ≤ o ∧ o < 0xC00200 then slotWord (vget t.slots ((o - 0xC00100) / 16)) (o % 16 / 4)
  else c.reg o

/-- HLTH block (R512). -/
def Chan.readHlth (c : Chan) (mtx : Bool) (o : Nat) : Word :=
  if 0xD00100 ≤ o ∧ o < 0xD00900 then
    let cls := (o - 0xD00100) / 256
    let n := o % 256 / 4
    if unitCount cls ≤ n ∨ (cls = 0 ∧ !mtx) then 0
    else
      let x := c.unit cls n
      let st := match x.st with | .healthy => 0 | .suspect => 1 | .held => 2 | .fenced => 3 | .permanent => 4 | .testing => 5
      packW [(31, 29, st), (28, 19, unitScore x), (18, 11, min 255 (c.charges24 x).length), bit1 10 (concentrated (c.charges24 x))]
  else c.reg o

/-- STAT and state registers of a recorder (R597, R598, R601). -/
def recReg (r : Recorder) (x : RecCtx) (mod : Bool) (busy : Bool) (o : Nat) (stored : Word) : Word :=
  if o = 0x0 then
    packW [bit1 31 busy, bit1 30 r.sealReq, bit1 29 (x.histUp && !mod), bit1 28 r.sealStop, bit1 27 r.irq,
      (14, 0, x.slots - r.ring.length)]
  else if o = 0x8 then BitVec.ofNat 32 r.rseq
  else if o = 0x10 then (if mod then 0 else BitVec.ofNat 32 r.histWr)
  else if o = 0x14 then (if mod then 0 else BitVec.ofNat 32 (r.histWr / 4294967296))
  else if o = 0x18 then (if mod then 0 else BitVec.ofNat 32 x.histCap)
  else if o = 0x1C then BitVec.ofNat 32 r.sealSeq
  else if o = 0x20 then BitVec.ofNat 32 r.lastSealS
  else stored

/-- A word of the window of a present channel. -/
def State.readWindow (s : State) (n : Fin 8) (o : Nat) : Word :=
  let c := s.chan n
  match o / 0x100000 with
  | 0 => c.readCtrl o
  | 1 => c.readFab o
  | 2 => c.readPool o
  | 3 => c.readMem o
  | 4 => c.readCol o
  | 5 => c.readCodec o
  | 6 => c.readMtx o
  | 7 => c.readSch o
  | 8 => c.readLine o
  | 9 => c.readOpt s.hub.pwr.laserEnN o
  | 10 => c.readSec o
  | 11 => c.readProv o
  | 12 => c.readTime o
  | 13 => c.readHlth (s.mtxPresent n) o
  | 14 => recReg c.evr (c.recCtx n) false (decide (s.hub.sealing = some n.val)) (o - 0xE00000) (c.readEvr n o)
  | 15 => 0
  | _ => c.readTables o

/-! ### BAR0 -/

/-- GLB and SEC (R3, R547, R561, R562). -/
def State.readGlb (s : State) (o : Nat) : Word :=
  let h := s.hub
  let mode := match h.host.mode with | .down => 0 | .cxl => 1 | .pcieOnly => 2
  if o = 0x0 then h.caps
  else if o = 0x4 then 0x535A3801
  else if o = 0x8 then
    packW [(31, 28, mode), (27, 22, h.host.width), (21, 18, h.host.rate), bit1 17 h.host.cacheEn, bit1 16 h.host.memEn, bit1 15 h.host.ideIo,
      bit1 14 h.host.ideCm]
  else if o = 0xC then
    (h.reg 0xC &&& 0x00FFFFFF) ||| (List.range 8).foldl (fun (w : Word) n =>
      if !s.present n || (vget s.chans n).hdmOff then putBit w (24 + n) true else w) 0
  else if o = 0x10 then
    packW [(31, 28, h.boot.phase), (27, 26, h.boot.img), bit1 25 h.boot.unowned, (23, 16, h.boot.chRel.toNat), (15, 8, h.boot.failP),
      (7, 0, h.boot.failG)]
  else if o = 0x14 then 0
  else if o = 0x18 then h.boot.straps.setWidth 32
  else if o = 0x1C then packW [(31, 24, h.boot.fuseSvn), (23, 16, h.boot.imgSvn)]
  else if o = 0x20 then h.host.violWr
  else if 0x1000 ≤ o ∧ o < 0x1800 then violWord h.host (o - 0x1000)
  else if o = 0x300000 then
    packW [bit1 31 h.boot.ownerRoot.isSome, bit1 30 (!h.failed && decide (h.boot.phase ≠ 0)), (29, 26, h.spdm.openS.length), bit1 25 h.host.ideKeyed]
  else h.reg o

/-- GTIME (R467, R468). -/
def Hub.readGtime (h : Hub) (o : Nat) : Word :=
  let g := h.gtime
  if o = 0x200000 then packW [(31, 29, unitState g.unit), bit1 28 g.ppsOk]
  else if o = 0x200010 then BitVec.ofNat 32 (h.now / 1000000000)
  else if o = 0x200014 then g.latchHi.setWidth 32
  else if o = 0x200018 then g.latchNs
  else if 0x200040 ≤ o ∧ o < 0x200080 then
    let k := (o - 0x200040) / 16
    let lost := min 255 (vget g.lost k)
    match vget g.caps k with
    | [] => if o % 16 = 0 then packW [(23, 16, lost)] else 0
    | t :: _ =>
      let ns := t / 256
      lget 0 [packW [bit1 31 true, (23, 16, lost), (15, 0, ns / 1000000000 / 4294967296)], BitVec.ofNat 32 (ns / 1000000000),
        BitVec.ofNat 32 (ns % 1000000000), packW [(31, 24, t % 256)]] (o % 16 / 4)
  else if 0x200100 ≤ o ∧ o < 0x200180 ∧ o % 16 = 4 then
    let t := vget g.slots ((o - 0x200100) / 16)
    (h.reg o &&& 0x3FFFFFFF) ||| packW [bit1 31 t.armed, bit1 30 t.fired]
  else h.reg o

/-- MBX (R570). -/
def Hub.readMbx (h : Hub) (o : Nat) : Word :=
  if 0x501000 ≤ o ∧ o < 0x501400 then
    let m := vget h.host.h2d ((o - 0x501000) / 32)
    let w := o % 32 / 4
    if w < 4 then vget m.words w
    else if w = 4 then packW [bit1 30 m.full, bit1 29 m.taken, bit1 28 m.to_, bit1 27 m.drop] else 0
  else if 0x502000 ≤ o ∧ o < 0x502400 then
    let m := vget h.host.d2h ((o - 0x502000) / 32)
    let w := o % 32 / 4
    if w < 4 then (if m.full then vget m.words w else 0)
    else if w = 4 then packW [bit1 30 m.full, bit1 29 m.to_] else 0
  else h.reg o

/-- A 4-byte read. `meas` is what the sensors read where the register is a measurement of PWR. A read of an absent channel's window, or
of the MTX block of a channel without an engine, returns all ones (R6, R8); a reserved address reads 0 (R13, R554). -/
def State.readReg (s : State) (b : Bar) (off : Nat) (meas : Word) : Word :=
  match b with
  | .bar2 =>
    let n : Fin 8 := Fin.ofNat 8 (off / 0x2000000)
    let o := off % 0x2000000
    if !s.hasWindow n || (decide (o / 0x100000 = 6) && !s.mtxPresent n) then 0xFFFFFFFF else s.readWindow n o
  | .bar0 =>
    match off / 0x100000 with
    | 1 => s.pwrReg ((off - 0x100000) / 4) meas
    | 2 => s.hub.readGtime off
    | 4 => recReg s.hub.evr s.hub.recCtx true (decide (s.hub.sealing = some 8)) (off - 0x400000) (s.readModEvr off)
    | 5 => if 0x500100 ≤ off ∧ off < 0x500180 ∧ s.route ((off - 0x500100) / 4) = .none then 0 else s.hub.readMbx off
    | 15 => s.hub.readMsix off
    | _ => s.readGlb off

/-- Windows that also take aligned reads of 16, 32 and 64 bytes: tables and certificates, read-only to the host (R553). -/
def wideWindow (b : Bar) (o : Nat) : Bool := match b with | .bar0 => hubReadOnly o | .bar2 => chanReadOnly (o % 0x2000000)

/-- A read of `size` bytes as the words it returns, low address first; none where its size or alignment is a violation (R553). -/
def State.readAccess (s : State) (b : Bar) (off size : Nat) (meas : Word) : Option (List Word) :=
  let ok := (decide (size = 4) || decide (size = 8) || (wideWindow b off && (decide (size = 16) || decide (size = 32) || decide (size = 64))))
    && decide (off % max 1 size = 0)
  if ok then some ((List.range (size / 4)).map fun i => s.readReg b (off + 4 * i) meas) else none

end Sys2Proof.Machine
end

