-- ==== Sys2Proof/Safety.lean ====
section
/-! DEFINITION. What a safe run of the block is, in the terms statements use. -/

namespace Sys2Proof

/-- The channel that a command acts on; none for a command to the hub or to the module as a whole, and for a register write, whose
address names its channel. -/
def Instr.channel : Instr → Option (Fin 8)
  | .registerWrite _ _ _ _ _ => none
  | .converterCutout ch => some ch
  | .hubFail => none
  | .referenceLoss ch => some ch
  | .tick1us o => o
  | .tick1ms o _ => o
  | .rateMonUpdate ch _ _ => some ch
  | .capNowUpdate ch => some ch
  | .jobAdmit ch _ _ => some ch
  | .jobAdmitForwarded ch _ _ _ => some ch
  | .jobAdmitPeerAnswer ch _ _ _ => some ch
  | .peerTimeout ch _ => some ch
  | .latePeerAccept ch _ => some ch
  | .jobRelease ch _ => some ch
  | .jobReleaseRelayed ch _ => some ch
  | .slotFree ch _ => some ch
  | .stepMark ch _ _ => some ch
  | .stepMarkRelayed ch _ _ => some ch
  | .flitReceive ch _ _ => some ch
  | .replayTimeout ch _ => some ch
  | .ackIdleDue ch _ => some ch
  | .flitSend ch _ => some ch
  | .portRetrain ch _ _ => some ch
  | .retrainAttemptEnd ch _ _ _ _ _ => some ch
  | .portTrainRetry ch _ => some ch
  | .packetReceive ch _ _ => some ch
  | .nackReceive ch _ => some ch
  | .heldPacketTimeout ch => some ch
  | .tailRecordExpire ch => some ch
  | .fenceHoldExpire ch => some ch
  | .tableWrite ch _ _ => some ch
  | .genSwitch ch _ _ => some ch
  | .tableAbort ch _ => some ch
  | .genSwitchInstant ch => some ch
  | .genSaddleClose ch => some ch
  | .copyForwardDone ch => some ch
  | .allocationRetry ch _ _ => some ch
  | .spillReadback ch _ _ _ _ => some ch
  | .memRereadDone ch _ _ _ => some ch
  | .unitPatternTestDone ch _ _ => some ch
  | .unitRemapCopyDone ch _ _ => some ch
  | .selfRefreshEntry ch _ _ => some ch
  | .selfRefreshEntryTimeout ch => some ch
  | .selfRefreshExit ch _ => some ch
  | .fullTrainingDone ch _ => some ch
  | .scrubDone ch => some ch
  | .rtxRecordWindowEnd ch => some ch
  | .colCommOpen ch _ _ => some ch
  | .colCommClose ch _ _ _ => some ch
  | .colStart ch _ _ => some ch
  | .colExclude ch _ _ _ => some ch
  | .contribReceive ch _ => some ch
  | .partialReceive ch _ => some ch
  | .resultReceive ch _ => some ch
  | .demandReceive ch _ => some ch
  | .abortReceive ch _ => some ch
  | .lateReceive ch _ => some ch
  | .endReceive ch _ => some ch
  | .demandRateSend ch _ => some ch
  | .pullDelayExpire ch _ => some ch
  | .alignDelayExpire ch _ => some ch
  | .lowrankPullSend ch _ => some ch
  | .colDeadline ch _ => some ch
  | .colDeadlinePeerLate ch _ => some ch
  | .coordinatorDecision ch _ => some ch
  | .orphanTimeout ch _ => some ch
  | .pendingDemandExpire ch => some ch
  | .codecBind ch _ _ => some ch
  | .codecUnbind ch _ _ => some ch
  | .codecFlow ch _ _ _ _ => some ch
  | .packerCodeBlock ch _ _ => some ch
  | .expanderBlock ch _ => some ch
  | .tileTaskDispatch ch => some ch
  | .tileTaskComplete ch _ => some ch
  | .noTileWaitExpire ch _ => some ch
  | .schedulerSelect ch _ => some ch
  | .systemFifoRoom ch => some ch
  | .tuEncrypt ch _ => some ch
  | .frameSend ch => some ch
  | .laneUnitReceive ch _ _ _ _ _ => some ch
  | .lossOfLight ch _ => some ch
  | .losDetect ch => some ch
  | .frameDecode ch _ => some ch
  | .lofClrExpire ch => some ch
  | .lofSetExpire ch => some ch
  | .lineAisSend ch => some ch
  | .lineAis ch _ _ _ => some ch
  | .aisLegTimeout ch _ => some ch
  | .aisTuSend ch _ => some ch
  | .cap ch _ _ => some ch
  | .capSendPeriodic ch => some ch
  | .tuReceive ch => some ch
  | .tuDeliver ch _ => some ch
  | .nakReportTimer ch => some ch
  | .holeWindowExpire ch => some ch
  | .marginEstimate ch _ => some ch
  | .wrongLockCheck ch _ => some ch
  | .engineTempSample ch _ => some ch
  | .recalTimer ch => some ch
  | .calibrationAction ch _ => some ch
  | .burstReq ch _ _ _ => some ch
  | .burstTrialStep ch _ _ => some ch
  | .precomp ch _ _ _ => some ch
  | .marginTestTrialStep ch _ => some ch
  | .mtResult ch _ _ => some ch
  | .map ch _ _ _ _ => some ch
  | .mapChangeInstant ch => some ch
  | .marginTestRetry ch => some ch
  | .spareReq ch _ _ => some ch
  | .spareAck ch _ _ _ => some ch
  | .spareSwitch ch _ _ _ _ => some ch
  | .spareDone ch _ _ => some ch
  | .spareAbort ch _ _ => some ch
  | .margin ch _ _ => some ch
  | .marginReportSend ch => some ch
  | .combReq ch _ => some ch
  | .hlthRequestRepeat ch => some ch
  | .spareAckTimeout ch _ => some ch
  | .spareCopyEnd ch => some ch
  | .coldSpareIn ch _ => some ch
  | .combTakeoverStart ch _ _ => some ch
  | .combWarmLocked ch _ => some ch
  | .coldCombSwitch ch _ => some ch
  | .safetyTrip ch => some ch
  | .laserEnNChange _ => none
  | .kaHelloA ch _ => some ch
  | .kaHelloB ch _ => some ch
  | .kaFinish ch _ _ _ _ => some ch
  | .kaStart ch _ _ _ => some ch
  | .kaRekey ch _ _ _ _ _ => some ch
  | .kaRekeyB ch _ _ _ _ => some ch
  | .kaRekeyFin ch _ _ _ => some ch
  | .kaResume ch _ _ _ => some ch
  | .kaResumeAck ch _ _ _ => some ch
  | .kaAbort ch _ => some ch
  | .kaRepeat ch => some ch
  | .kaTimeout ch => some ch
  | .kaRestart ch => some ch
  | .rekeyStart ch => some ch
  | .keyRolloverInstant ch => some ch
  | .keySaddleClose ch => some ch
  | .rollLimitStop ch => some ch
  | .rngTestFail ch => some ch
  | .rngMaskExpire ch => some ch
  | .resumeTimeout ch => some ch
  | .cairnWrite ch => some ch
  | .signAgeExpire ch => some ch
  | .signatureRecordWrite ch _ => some ch
  | .spanHead ch _ _ => some ch
  | .sigHead ch _ _ => some ch
  | .provPendingExpire ch => some ch
  | .relCntWrite ch _ => some ch
  | .getVersion => none
  | .getCapabilities _ => none
  | .negotiateAlgorithms _ => none
  | .getDigests => none
  | .getCertificate _ _ _ => none
  | .challenge _ _ => none
  | .getMeasurements _ _ => none
  | .keyExchange _ => none
  | .finish _ _ => none
  | .heartbeat _ => none
  | .endSession _ => none
  | .spdmUnsupported => none
  | .timeFrame ch _ => some ch
  | .timeFrameSend ch => some ch
  | .ts ch _ _ => some ch
  | .tsSend ch => some ch
  | .timeUpdate o _ => o
  | .frameModeEntry ch => some ch
  | .acceptJump ch => some ch
  | .ppsInEdge _ => none
  | .ppsInLoss => none
  | .todSet _ => none
  | .ppsOutEdge => none
  | .timeCapEdge _ _ => none
  | .capEntryRemove _ => none
  | .nowLatch o => o
  | .timeSync ch _ => some ch
  | .timeDreq ch _ _ _ _ => some ch
  | .globalSlotArm _ _ => none
  | .globalTriggerFire _ => none
  | .partEpoch ch _ _ => some ch
  | .partMode ch _ _ => some ch
  | .partCancel ch _ _ _ => some ch
  | .partRevert ch _ => some ch
  | .ledgerBind ch _ _ => some ch
  | .ledgerUnbind ch _ _ => some ch
  | .partSeq ch _ _ _ _ => some ch
  | .reconStart ch _ _ => some ch
  | .partReloaded ch _ _ _ => some ch
  | .partDropDrift ch _ => some ch
  | .partExport ch _ => some ch
  | .driftTimeLimit ch => some ch
  | .driftOffer ch _ _ => some ch
  | .driftAck ch _ _ _ _ => some ch
  | .driftOfferRepeat ch => some ch
  | .epochInstant ch => some ch
  | .epochSaddleClose ch => some ch
  | .modeActInstant ch => some ch
  | .modeSaddleClose ch => some ch
  | .modeRevInstant ch => some ch
  | .modeMiss ch _ _ _ _ _ => some ch
  | .demeritDecay ch => some ch
  | .targetedSelftestDone ch _ _ _ => some ch
  | .unitFence ch => some ch
  | .heldUnitRetry ch _ _ => some ch
  | .fenceRetest ch _ _ _ => some ch
  | .sentinelSample ch _ _ _ _ _ _ => some ch
  | .sentinelThirdRun ch _ => some ch
  | .sequencerMailboxTake ch => some ch
  | .powerGoodStart _ => none
  | .startupStepLate ch _ _ => some ch
  | .bootRel _ _ => none
  | .svnFuseAdvance => none
  | .stageHang ch _ => some ch
  | .sequencerHang ch => some ch
  | .lpddr6Hang ch => some ch
  | .tickMissHang ch => some ch
  | .recoveryStepLate ch => some ch
  | .coreWatchdog ch _ => some ch
  | .coresLost ch => some ch
  | .hubWatchdog => none
  | .coreCheckpoint ch => some ch
  | .recover ch => some ch
  | .cold ch => some ch
  | .returnCmd ch => some ch
  | .firmwareRecoverRequest ch => some ch
  | .channelRecovery ch _ => some ch
  | .recoveryTimeout ch => some ch
  | .coldRestart ch _ _ => some ch
  | .pwrOffer ch _ _ _ => some ch
  | .pwrOfferSend ch => some ch
  | .pwrOfferLapse ch => some ch
  | .powerStateEntry ch => some ch
  | .wake ch _ => some ch
  | .wakeTolWrite ch _ => some ch
  | .dmaAccess ch _ => some ch
  | .hostLinkTrain _ _ _ _ _ => none
  | .hostPortReset => none
  | .hdmAccess _ _ => none
  | .doorbell _ _ => none
  | .h2dTake _ _ => none
  | .d2hPost _ _ _ => none
  | .take _ => none
  | .mailboxTimeout _ _ => none
  | .violationDelivery ch => some ch
  | .eventRecordTake o _ => o
  | .historyCopy ch => some ch
  | .windowClose o => o
  | .sealStart o => o
  | .sealPageProgramDone _ => none
  | .sectorEraseDone => none
  | .vinRise => none
  | .powerGood _ => none
  | .undervoltageLockout => none
  | .undervoltageWarn => none
  | .overvoltage => none
  | .overvoltageClear => none
  | .inputCurrentLatch => none
  | .inputSwitchReset _ => none
  | .powerDown => none
  | .dieOverTemp ch => some ch
  | .dieCooled ch => some ch
  | .thermThreshold _ => none
  | .smbReadPwr _ _ => none
  | .smbReadCaps => none
  | .smbClearStat _ => none
  | .referenceReturn ch => some ch
  | .lightReturn ch _ => some ch
  | .rngTestPass ch => some ch
  | .ringLocked ch _ => some ch
  | .factorUnitComplete ch _ => some ch
  | .msixUnmask _ => none
  | .ideKmRequest _ _ _ _ => none
  | .ideCheckFail => none
  | .cdatRead => none

end Sys2Proof

namespace Sys2Proof.Safety

open Sys2Proof Sys2Proof.Machine

/-- A step ends in a next state: the block neither faults nor refuses. -/
def Runs (s : State) : Prop := ∃ t, step s = .next t

/-- Everything of every channel but `n` is as it was (R18). -/
def OthersKept (n : Fin 8) (s t : State) : Prop := ∀ m : Fin 8, m ≠ n → t.chan m = s.chan m

/-- Everything of the machine but its hub's is as it was. -/
def ChannelsKept (s t : State) : Prop := t.chans = s.chans

/-- The parts of a channel: its register file (configuration, counters, latched status), its ticks with what a cold restart left to seal,
its violation queue, and its blocks. -/
inductive Blk where
  | regs | ticks | viols | cfg | boot | ctrl | fab | mem | col | codec | mtx | sch | line | opt | sec | prov | time | hlth | part | evr
  deriving DecidableEq, Repr

/-- One part of a channel is as it was. -/
def SameBlk (c d : Chan) : Blk → Prop
  | .regs => d.regs = c.regs
  | .ticks => d.us = c.us ∧ d.ms = c.ms ∧ d.crystal = c.crystal ∧ d.oldEvr = c.oldEvr
  | .viols => d.hubLost = c.hubLost ∧ d.viols = c.viols ∧ d.violLost = c.violLost ∧ d.errs = c.errs
  | .cfg => d.cfg = c.cfg
  | .boot => d.boot = c.boot
  | .ctrl => d.ctrl = c.ctrl
  | .fab => d.fab = c.fab
  | .mem => d.mem = c.mem
  | .col => d.col = c.col
  | .codec => d.codec = c.codec
  | .mtx => d.mtx = c.mtx
  | .sch => d.sch = c.sch
  | .line => d.line = c.line
  | .opt => d.opt = c.opt
  | .sec => d.sec = c.sec
  | .prov => d.prov = c.prov
  | .time => d.time = c.time
  | .hlth => d.hlth = c.hlth
  | .part => d.part = c.part
  | .evr => d.evr = c.evr

/-- Every part of a channel but those listed is as it was. -/
def Kept (but : List Blk) (c d : Chan) : Prop := ∀ b : Blk, b ∉ but → SameBlk c d b

/-- Every register of the channel's window is as it was, but those of the 1 MiB blocks listed (by offset / 0x10_0000). -/
def RegsKept (but : List Nat) (c d : Chan) : Prop := ∀ a : Nat, a / 0x100000 ∉ but → d.reg a = c.reg a

/-- Every byte of memory that commands address reads as it did. -/
def MemoryKept (c d : Chan) : Prop := ∀ a : Nat, Memory.read d.mem.region7 a = Memory.read c.mem.region7 a

/-- The command runs to a next state that differs from `s` in channel `ch` alone, where `P` holds of it before and after. -/
def Changes (i : Instr) (s : State) (ch : Fin 8) (P : Chan → Chan → Prop) : Prop :=
  ∃ d, exec i s = .next (s.setChan ch d) ∧ P (s.chan ch) d

/-- As `Changes`, for a command that draws `k` free values: nothing but the count of those changes beside the channel. -/
def ChangesFree (i : Instr) (s : State) (ch : Fin 8) (k : Nat) (P : Chan → Chan → Prop) : Prop :=
  ∃ d, exec i s = .next { s.setChan ch d with free := s.free + k } ∧ P (s.chan ch) d

/-- The channel is present, and its data path and control sequencer run: PHASE 1–7 (R529, R545). -/
def InPath (s : State) (ch : Fin 8) : Prop := s.present ch = true ∧ (s.chan ch).inPath = true

/-- The channel is present and out of reset: PHASE 1–8 (R545). -/
def InLife (s : State) (ch : Fin 8) : Prop := s.present ch = true ∧ (s.chan ch).live = true

end Sys2Proof.Safety
end

