-- ==== Sys2Proof/Certificates/Slice0/Obligations.lean ====
section
/-! DEFINITION. The statements about the block, for the provers. Each docstring names the rules of the manual that the statement rests
on. -/

open Sys2Proof Sys2Proof.Machine Sys2Proof.Safety

/-! ### The queue and reset -/

/-- Step takes the command at the front of the queue and answers what exec answers for it on the state with the queue's rest. On an
empty queue the block idles (the model's choice, log entry 4). -/
def Obligations.StepRunsTheFrontCommand : Prop :=
  (∀ (s : State) (c : Instr) (rest : List Instr), s.pending = c :: rest → step s = exec c { s with pending := rest })
  ∧ ∀ s : State, s.pending = [] → step s = .next s

/-- The opcode table gives no row any bits: no word spells a command, and a fetch word changes nothing. -/
def Obligations.NoWordSpellsACommand : Prop :=
  ∀ (nbits w : Nat) (s : State), decodeTableWord nbits w = none ∧ s.withFetchWord nbits w = s

/-- After reset GLB.CAPS reads the value of SZ8-A B1 (R3), every stored register its reset value, every channel is in reset (R545) with no job
in a slot and nothing held, the violation log is empty (R558, R561), PWRGD is low, and no command waits. The values of state that the
manual gives no reset value are the model's (log entries 10–12). -/
def Obligations.ResetState : Prop :=
  State.reset.readReg .bar0 0 0 = 0x21FFFF01
  ∧ State.reset.pending = []
  ∧ (∀ off : Nat, State.reset.hub.reg off = hubReset off)
  ∧ State.reset.hub.host.violWr = 0 ∧ State.reset.hub.pwr.pwrgd = false
  ∧ ∀ n : Fin 8, (State.reset.chan n).boot.phase = 0 ∧ (State.reset.chan n).viols = []
    ∧ (∀ off : Nat, (State.reset.chan n).reg off = chanReset off)
    ∧ (∀ k : Nat, k < 16 → ((State.reset.chan n).slot k).mode = .free)
    ∧ (State.reset.chan n).sec.cur = none ∧ (State.reset.chan n).evr.ring = []
    ∧ Memory.wf (State.reset.chan n).mem.region7 = true ∧ State.reset.chan n = {}

/-! ### Presence -/

/-- No command changes GLB.CAPS (R2). -/
def Obligations.CapsNeverChange : Prop :=
  ∀ (i : Instr) (s t : State), exec i s = .next t → t.hub.caps = s.hub.caps ∧ t.readReg .bar0 0 0 = s.readReg .bar0 0 0

/-- A command to one channel leaves every other channel as it was (R18). -/
def Obligations.ChannelsAreIsolated : Prop :=
  ∀ (i : Instr) (ch : Fin 8) (s t : State), i.channel = some ch → exec i s = .next t → OthersKept ch s t

/-- A channel that GLB.CAPS shows absent never comes to hold anything: where every absent channel is as at reset, it is so after a step.
That such a channel takes no command is read from R4 to R8 (log entry 3). -/
def Obligations.AbsentChannelsStayEmpty : Prop :=
  ∀ s t : State, (∀ n : Fin 8, s.present n = false → s.chan n = {}) → step s = .next t →
    ∀ n : Fin 8, t.present n = false → t.chan n = {}

/-- A read in the window of an absent channel, or in the MTX block of a channel without a matrix engine, returns all ones (R6, R8). -/
def Obligations.AbsentUnitsReadAllOnes : Prop :=
  ∀ (s : State) (n : Fin 8) (o : Nat) (meas : Word), o < 0x2000000 →
    (s.present n = false → s.readReg .bar2 (0x2000000 * n.val + o) meas = 0xFFFFFFFF)
    ∧ (s.mtxPresent n = false → o / 0x100000 = 6 → s.readReg .bar2 (0x2000000 * n.val + o) meas = 0xFFFFFFFF)

/-! ### Register writes -/

/-- The host's accesses reach the registers: the link is up and the hub runs. -/
def Sys2Proof.Safety.HostUp (s : State) : Prop := s.hub.failed = false ∧ s.hub.host.mode ≠ .down

/-- `t` is `s` with one host write refused: nothing of any channel and no register of BAR0 changes, a Completer Abort goes out, HOST_VIOL is
handed to the recorder, and the newest entry of GLB.VIOL_LOG has the access's address and kind (R557–R559). -/
def Sys2Proof.Safety.HostWriteRefused (s t : State) (kind : ViolKind) (addr : Nat) : Prop :=
  t.chans = s.chans ∧ t.pending = s.pending ∧ t.hub.regs = s.hub.regs
  ∧ t.hub.host.aborts = s.hub.host.aborts + 1
  ∧ t.hub.evr.input = s.hub.evr.input ++ [{ ev := .hostViol, plane := .management }]
  ∧ ∃ e : ViolEntry, cget? t.hub.host.violLog ((t.hub.host.violWr - 1).toNat % 64) = some e
    ∧ e.viol.source = .hostIo ∧ e.viol.kind = kind ∧ e.viol.addr = addr

/-- R7: a write to the window of an absent channel, or to the MTX block of a channel whose matrix engine is absent, is discarded, gets a
completer abort, and is entered in GLB.VIOL_LOG. -/
def Obligations.WritesToAbsentUnitsAreRefused : Prop :=
  ∀ (s : State) (n : Fin 8) (o : Nat) (off : BitVec 28) (data : BitVec 64), HostUp s → off.toNat = 0x2000000 * n.val + o →
    o < 0x2000000 → o % 4 = 0 →
    s.present n = false ∨ (s.mtxPresent n = false ∧ o / 0x100000 = 6) →
    ∃ t, exec (.registerWrite .host .bar2 off 4 data) s = .next t ∧ HostWriteRefused s t .absentUnit off.toNat

/-- R14: a write to an RWS field after sealing is discarded, gets a completer abort, and is entered in GLB.VIOL_LOG: in a channel's window
and in BAR0. When the fields of BAR0 are sealed is the model's reading (log entry 51). -/
def Obligations.WritesToSealedFieldsAreRefused : Prop :=
  (∀ (s : State) (n : Fin 8) (o : Nat) (off : BitVec 28) (data : BitVec 64) (r : RegRow), HostUp s →
    off.toNat = 0x2000000 * n.val + o → o < 0x2000000 → o % 4 = 0 → s.hasWindow n = true →
    (o / 0x100000 = 6 → s.mtxPresent n = true) → (s.chan n).boot.phase ≠ 0 → (s.chan n).boot.sealed = true →
    chanRow o = some r → r.rws ≠ 0 →
    ∃ t, exec (.registerWrite .host .bar2 off 4 data) s = .next t ∧ HostWriteRefused s t .sealedField off.toNat)
  ∧ ∀ (s : State) (off : BitVec 28) (data : BitVec 64) (r : RegRow), HostUp s → off.toNat % 4 = 0 →
    s.hub.boot.sealed = true → hubRow off.toNat = some r → r.rws ≠ 0 →
    ∃ t, exec (.registerWrite .host .bar0 off 4 data) s = .next t ∧ HostWriteRefused s t .sealedField off.toNat

/-- A 4-byte host write of a channel register: a writable field takes the data's bits, a W1C bit is cleared where the data holds 1, every other bit
of the register is unchanged (R13, R15 and the access codes); a field with a range is then brought to the nearest end of it, and a SYS_PIR
below SYS_CIR to SYS_CIR (R289). Nothing else of the channel changes, but that a write of an RWS field is remembered (R528). -/
def Obligations.RegisterWriteStoresWritableBits : Prop :=
  ∀ (s : State) (n : Fin 8) (o : Nat) (off : BitVec 28) (data : BitVec 64) (r : RegRow), HostUp s →
    off.toNat = 0x2000000 * n.val + o → o < 0x2000000 → o % 4 = 0 → s.hasWindow n = true →
    (o / 0x100000 = 6 → s.mtxPresent n = true) → (s.chan n).boot.phase ≠ 0 →
    o ∉ [0x4, 0x8, 0xB00014, 0xC00008, 0xE00000] → chanRow o = some r → r.rws = 0 ∨ (s.chan n).boot.sealed = false →
    Changes (.registerWrite .host .bar2 off 4 data) s n fun c d =>
      Kept [.regs, .boot] c d
      ∧ d.boot = { c.boot with edited := c.boot.edited || decide (r.rws ≠ 0) }
      ∧ (∀ a : Nat, a ≠ o → d.reg a = c.reg a)
      ∧ ∃ w : Word, (∀ i : Nat, i < 32 → w.getLsbD i =
          if r.w1c.testBit i && data.getLsbD i then false
          else if r.rw.testBit i || r.rws.testBit i then data.getLsbD i else (c.reg o).getLsbD i)
        ∧ (let x := r.fields.foldl clampField w
          d.reg o = if r.atLeast = true ∧ fld x 31 16 < fld x 15 0 then putFld x 31 16 (fld x 15 0) else x)

/-- R553: an aligned 8-byte access of the host acts as two 4-byte accesses in ascending address order; any size but 4 and 8, and any address
that the size does not divide, is a violation. -/
def Obligations.RegisterWriteSizes : Prop :=
  (∀ (s : State) (b : Bar) (off : BitVec 28) (data : BitVec 64), HostUp s → off.toNat % 8 = 0 →
    exec (.registerWrite .host b off 8 data) s =
      match exec (.registerWrite .host b off 4 data) s with
      | .next t => exec (.registerWrite .host b (off + 4) 4 (data >>> 32)) t
      | x => x)
  ∧ ∀ (s : State) (b : Bar) (off : BitVec 28) (size : Fin 65) (data : BitVec 64), HostUp s →
    ¬(size.val = 4 ∧ off.toNat % 4 = 0) → ¬(size.val = 8 ∧ off.toNat % 8 = 0) →
    ∃ t, exec (.registerWrite .host b off size data) s = .next t ∧ HostWriteRefused s t .reservedOrAlign off.toNat

/-! ### Module architecture -/

/-- HUB_FAIL: the host link is lost, every notice that waits raises its sender's timeout flag, and every populated channel goes on as it
was, keeping its violations from now on (R21, R560). -/
def Obligations.HubFailLeavesChannelsRunning : Prop :=
  ∀ s : State, s.hub.failed = false → ∃ t, exec .hubFail s = .next t ∧ t.hub.failed = true ∧ t.hub.host.mode = .down
    ∧ t.hub.regs = s.hub.regs ∧ t.hub.caps = s.hub.caps ∧ t.hub.evr = s.hub.evr ∧ t.hub.gtime = s.hub.gtime
    ∧ (∀ n : Fin 8, s.present n = true → t.chan n = { s.chan n with hubLost := true })
    ∧ ∀ k : Fin 32, (t.hub.host.h2d[k].full = false ∧ t.hub.host.d2h[k].full = false)
      ∧ (s.hub.host.h2d[k].full = true → t.hub.host.h2d[k].to_ = true)
      ∧ (s.hub.host.d2h[k].full = true → t.hub.host.d2h[k].to_ = true)

/-- CONVERTER_CUTOUT: the channel alone is cleared and held in reset with CAUSE 5; its RWS and RW registers return to reset; the count of
cutouts rises and its latched bit is set (R20, R545, R619). What a cutout clears beyond R20 is the model's reading (log entry 137). -/
def Obligations.CutoutHoldsOneChannelInReset : Prop :=
  ∀ (s : State) (ch : Fin 8), s.present ch = true → s.hub.pwr.pwrgd = true →
    ∃ t, exec (.converterCutout ch) s = .next t ∧ OthersKept ch s t ∧ t.pending = s.pending
    ∧ (t.chan ch).boot.phase = 0 ∧ (t.chan ch).boot.cause = 5 ∧ (t.chan ch).sec.cur = none
    ∧ (∀ a : Nat, (t.chan ch).reg a = chanReset a)
    ∧ (∀ k : Nat, k < 16 → ((t.chan ch).slot k).mode = .free)
    ∧ bitOf (t.hub.reg 0x100000) (21 + ch.val) = true
    ∧ t.hub.reg 0x100040 = satAdd (s.hub.reg 0x100040) 1

/-- REFERENCE_LOSS and REFERENCE_RETURN: the edge clocks follow the crystal, or TREF_IN again. A unit that steers by MODULE enters holdover; a
unit on PEER, in free-run or in holdover keeps its state (R22). -/
def Obligations.ReferenceLossAndReturn : Prop :=
  (∀ (s : State) (ch : Fin 8), s.present ch = true → (s.chan ch).crystal = false →
    Changes (.referenceLoss ch) s ch fun c d =>
      d.crystal = true ∧ d.us = c.us ∧ d.ms = c.ms
      ∧ Kept [.ticks, .time, .regs, .evr] c d
      ∧ (c.time.unit.src = .module → c.time.unit.state = .locked ∨ c.time.unit.state = .acquire → d.time.unit.state = .holdover)
      ∧ (c.time.unit.src ≠ .module ∨ (c.time.unit.state ≠ .locked ∧ c.time.unit.state ≠ .acquire) →
          d.time = c.time ∧ d.regs = c.regs ∧ d.evr = c.evr))
  ∧ ∀ (s : State) (ch : Fin 8), s.present ch = true →
    Changes (.referenceReturn ch) s ch fun c d => d = { c with crystal := false }

/-- TICK_1US and TICK_1MS: a populated channel out of reset, and the hub while it runs, count each token (R32); at a 1 ms token DET 0x10 trips
where the sequencer's stall has left a request unanswered for 100 ms (R265, R531). The tokens of each domain are counted apart (log
entry 9). -/
def Obligations.TicksAreCounted : Prop :=
  (∀ (s : State) (ch : Fin 8), s.present ch = true → (s.chan ch).boot.phase ≠ 0 →
    Changes (.tick1us (some ch)) s ch fun c d => d.us = c.us + 1 ∧ d.ms = c.ms ∧ d.sec = c.sec ∧ d.ctrl = c.ctrl ∧ d.mem = c.mem ∧ d.fab = c.fab)
  ∧ (∀ (s : State) (ch : Fin 8) (temp : BitVec 16), s.present ch = true → (s.chan ch).boot.phase ≠ 0 →
    Changes (.tick1ms (some ch) temp) s ch fun c d => d.ms = c.ms + 1 ∧ d.us = c.us
      ∧ (c.watched = false ∨ c.stallLate = false → Kept [.ticks, .regs, .evr] c d)
      ∧ (c.watched = true → c.stallLate = true → d.boot.det = 0x10 ∧ d.reg 0xA8 = satAdd (c.reg 0xA8) 1))
  ∧ ∀ s : State, s.hub.failed = false →
    (∃ t, exec (.tick1us none) s = .next t ∧ t.hub.us = s.hub.us + 1 ∧ t.hub.ms = s.hub.ms ∧ t.chans = s.chans)
    ∧ ∀ temp : BitVec 16, exec (.tick1ms none temp) s = .next { s with hub := { s.hub with ms := s.hub.ms + 1 } }

/-- RATE_MON_UPDATE and CAP_NOW_UPDATE: RATE_MON takes the measured rates and SEQ rises by 1, wrapping (R36); CAP_NOW takes LINE_NET and the units
in service, and a change of LINE_NET is to be signalled to the peer (R35, R37, R320). Both run from the end of self-test on, in a channel
held or out of service too. -/
def Obligations.RatesAndCapacityAreReported : Prop :=
  (∀ (s : State) (ch : Fin 8) (wide ciph : BitVec 12), s.present ch = true → (s.chan ch).measuring = true →
    (s.chan ch).hlth.rateMs + 1 ≤ (s.chan ch).ms →
    Changes (.rateMonUpdate ch wide ciph) s ch fun c d =>
      fld (d.reg 0x40) 31 20 = wide.toNat ∧ fld (d.reg 0x40) 19 8 = ciph.toNat
      ∧ fld (d.reg 0x40) 7 0 = (fld (c.reg 0x40) 7 0 + 1) % 256 ∧ Kept [.regs, .hlth, .evr] c d)
  ∧ ∀ (s : State) (ch : Fin 8), s.present ch = true → (s.chan ch).measuring = true →
    Changes (.capNowUpdate ch) s ch fun c d =>
      fld (d.reg 0x44) 31 20 = c.lineNet ∧ c.lineNet ≤ 1750
      ∧ fld (d.reg 0x44) 19 15 = c.pipesUp 1 ∧ fld (d.reg 0x44) 14 10 = c.pipesUp 2
      ∧ fld (d.reg 0x44) 9 5 = (if s.mtxPresent ch then c.tilesUp.length else 0) % 32 ∧ fld (d.reg 0x44) 4 0 = c.fabLanes % 32
      ∧ (c.lineNet ≠ fld (c.reg 0x44) 31 20 → d.line.capDue = true)
      ∧ (∀ a : Nat, a ≠ 0x44 → d.reg a = c.reg a) ∧ Kept [.regs, .line, .sch, .evr] c d

/-! ### Jobs -/

/-- A privileged request from a listed coordinate can be taken: the channel's sequencer runs, its output has room, and the request waits nowhere
else (R49, R265). -/
def Sys2Proof.Safety.Asks (s : State) (ch : Fin 8) (e : CtlEnv) : Prop :=
  InPath s ch ∧ (s.chan ch).seqFree = true ∧ (s.chan ch).cfg.cpList.contains e.src = true

/-- What the peer is sent: a control object in a system TU while the line is up, and nothing otherwise (R265, R473). -/
def Sys2Proof.Safety.ToPeer (bytes : List Byte) (c d : Chan) : Prop :=
  d.sch = if c.line.state = .up then (c.sysControl bytes).sch else c.sch

/-- Every slot but `k` is as it was. -/
def Sys2Proof.Safety.OtherSlotsKept (k : Nat) (c d : Chan) : Prop := ∀ j : Nat, j ≠ k → d.slot j = c.slot j

/-- R53: the checks of a JOB_ADMIT whose turn has come (R56) run in the order NOT_READY, BAD_MODE, BAD_FIELD, DUP_JOB, NO_SLOT, NO_TABLE_SPACE and the unit checks of R52; the
first that fails is returned, nothing is reserved and nothing goes to the peer. -/
def Obligations.JobAdmitChecksInOrder : Prop :=
  ∀ (s : State) (ch : Fin 8) (e : CtlEnv) (b : AdmitBody), Asks s ch e → (s.chan ch).admitTurn false e = true →
    let c := s.chan ch
    let ready := c.notReady = false
    let modeOk := b.mode = 1 ∨ b.mode = 2
    let fieldsOk := c.admitFields b = true ∧ b.jobId = e.job
    let noDup := c.jobHeld b.jobId = false
    let slotOk := ∃ k : Nat, k < 16 ∧ c.slotFree k = true ∧ (b.slot = 0xFF ∨ b.slot.toNat = k)
    let space := c.fab.blocks.length + blocksFor b ≤ 512
    let refused (st : Nat) : Prop := Changes (.jobAdmit ch e b) s ch fun c d => d = (c.takeReq 1 e).answer 1 e st
    (¬ready → refused 0x06)
    ∧ (ready → ¬modeOk → refused 0x02)
    ∧ (ready → modeOk → ¬fieldsOk → refused 0x03)
    ∧ (ready → modeOk → fieldsOk → ¬noDup → refused 0x04)
    ∧ (ready → modeOk → fieldsOk → noDup → ¬slotOk → refused 0x01)
    ∧ (ready → modeOk → fieldsOk → noDup → slotOk → ¬space → refused 0x05)
    ∧ (ready → modeOk → fieldsOk → noDup → slotOk → space → c.unitCheck (s.mtxPresent ch) b.opts ≠ 0 →
        refused (c.unitCheck (s.mtxPresent ch) b.opts))

/-- JOB_ADMIT, when its turn has come and every check passes, reserves one free slot (the one named, or the lowest) with the body, and forwards the request
to the peer; no other slot changes (R53, R56, R624). One that another JOB_ADMIT, of either side, stands before waits: nothing happens yet
(R56). -/
def Obligations.JobAdmitReservesAndForwards : Prop :=
  (∀ (s : State) (ch : Fin 8) (e : CtlEnv) (b : AdmitBody) (x : SeqReq), InPath s ch → x ∈ (s.chan ch).ctrl.seqIn ++ (s.chan ch).ctrl.peerIn →
    beAt x.bytes 0 2 = 1 →
    (∀ m : SeqReq, m ∈ (s.chan ch).ctrl.seqIn → m.bytes.take 8 = envBytes 1 e → x.nr < m.nr) →
    Changes (.jobAdmit ch e b) s ch fun c d => d = c)
  ∧ (∀ (s : State) (ch : Fin 8) (e : CtlEnv) (b : AdmitBody) (peer : Fin 16) (x : SeqReq), InPath s ch →
    x ∈ (s.chan ch).ctrl.seqIn ++ (s.chan ch).ctrl.peerIn → beAt x.bytes 0 2 = 1 →
    (∀ m : SeqReq, m ∈ (s.chan ch).ctrl.peerIn → m.bytes.take 8 = envBytes 1 e → x.nr < m.nr) →
    Changes (.jobAdmitForwarded ch e b peer) s ch fun c d => d = c)
  ∧ ∀ (s : State) (ch : Fin 8) (e : CtlEnv) (b : AdmitBody) (k : Nat), Asks s ch e → (s.chan ch).admitTurn false e = true →
    (s.chan ch).admitCheck (s.mtxPresent ch) true e.job b = .ok k →
    k < 16 ∧ (s.chan ch).slotFree k = true
    ∧ (b.slot = 0xFF → ∀ j : Nat, j < k → (s.chan ch).slotFree j = false) ∧ (b.slot ≠ 0xFF → b.slot.toNat = k)
    ∧ Changes (.jobAdmit ch e b) s ch fun c d =>
      d.slot k = { body := b, pend := some ⟨e, c.us, 2 * c.rttUs + 10000⟩ }
      ∧ OtherSlotsKept k c d ∧ ToPeer (envBytes 1 e ++ admitBytes b) c d
      ∧ d.regs = c.regs ∧ Kept [.ctrl, .fab, .sch] c d

/-- JOB_ADMIT_PEER_ANSWER: on acceptance the job takes the slot it reserved, with the coordinate that asked as its owner; on refusal the
slot and its table blocks are free (R51, R54, R624). An answer with another REQ_TAG than the request's settles nothing (log entry 144).
The peer's slot is learned here (log entry 40). -/
def Obligations.PeerAnswerSettlesAdmission : Prop :=
  ∀ (s : State) (ch : Fin 8) (e : CtlEnv) (status : BitVec 8) (peer : Fin 16) (k : Nat) (p : PendAdmit), InPath s ch →
    (s.chan ch).seqFree = true → (s.chan ch).reserved e.job = some k → ((s.chan ch).slot k).pend = some p →
    (s.chan ch).isLate e = false →
    Changes (.jobAdmitPeerAnswer ch e status peer) s ch fun c d =>
      (p.env.tag ≠ e.tag → d = c.takePeer 0x8001 e)
      ∧ (p.env.tag = e.tag → status = 0 → (d.slot k).mode = (if (c.slot k).body.mode = 2 then .col else .stage) ∧ (d.slot k).body = (c.slot k).body
        ∧ (d.slot k).owner = some p.env.src ∧ (d.slot k).peerSlot = some peer ∧ (d.slot k).pend = none
        ∧ (d.slot k).step = (c.slot k).body.firstStep)
      ∧ (p.env.tag = e.tag → status ≠ 0 → d.slotFree k = true ∧ ∀ x ∈ d.fab.blocks, x.2.1 ≠ k)
      ∧ OtherSlotsKept k c d ∧ d.sec = c.sec ∧ d.opt = c.opt ∧ d.line = { c.line with lastFirst := d.line.lastFirst } ∧ d.cfg = c.cfg
      ∧ MemoryKept c d

/-- R54: when the peer's answer has not come within 2 × round-trip time plus 10 ms, PEER_TIMEOUT frees the slot and its table blocks; when the acceptance comes
later, the peer is sent a release for that JOB_ID, once, also where a new admission of the JOB_ID waits by then: its REQ_TAG tells the
answer (log entry 144). -/
def Obligations.PeerTimeoutAndLateAccept : Prop :=
  (∀ (s : State) (ch : Fin 8) (k : Fin 16) (p : PendAdmit), InPath s ch → ((s.chan ch).slot k).pend = some p →
    p.sinceUs + p.waitUs < (s.chan ch).us →
    Changes (.peerTimeout ch k) s ch fun c d =>
      d.slotFree k = true ∧ OtherSlotsKept k c d ∧ (∀ x ∈ d.fab.blocks, x.2.1 ≠ k.val)
      ∧ (⟨(c.slot k).body.jobId, p.env.tag⟩ : LateAdmit) ∈ d.ctrl.late ∧ d.sec = c.sec ∧ d.sch = c.sch ∧ MemoryKept c d)
  ∧ ∀ (s : State) (ch : Fin 8) (e : CtlEnv), InPath s ch → (s.chan ch).seqFree = true →
    (⟨e.job, e.tag⟩ : LateAdmit) ∈ (s.chan ch).ctrl.late →
    Changes (.latePeerAccept ch e) s ch fun c d =>
      ToPeer (envBytes 2 e) c d ∧ d.ctrl.late.length + 1 = c.ctrl.late.length ∧ d.ctrl.slots = c.ctrl.slots ∧ d.regs = c.regs
      ∧ Kept [.ctrl, .sch] c d

/-- JOB_ADMIT_FORWARDED: where the checks pass and no reservation of this end's own names the job, the job takes the lowest free slot, with
no owner here, and the peer is answered (R624). The peer's slot is learned here (log entry 40). -/
def Obligations.ForwardedAdmissionTakesLowestSlot : Prop :=
  ∀ (s : State) (ch : Fin 8) (e : CtlEnv) (b : AdmitBody) (peer : Fin 16) (k : Nat), InPath s ch → (s.chan ch).seqFree = true →
    (s.chan ch).admitTurn true e = true → (s.chan ch).reserved b.jobId = none → (s.chan ch).admitCheck (s.mtxPresent ch) false e.job b = .ok k →
    (∀ j : Nat, j < k → (s.chan ch).slotFree j = false)
    ∧ Changes (.jobAdmitForwarded ch e b peer) s ch fun c d =>
      (d.slot k).mode = (if b.mode = 2 then .col else .stage) ∧ (d.slot k).body = b ∧ (d.slot k).owner = none
      ∧ (d.slot k).peerSlot = some peer ∧ OtherSlotsKept k c d
      ∧ ToPeer (envBytes 0x8001 e ++ beBytes 1 0 ++ beBytes 1 0) c d
      ∧ d.sec = c.sec ∧ d.mem = c.mem ∧ d.line = { c.line with lastFirst := d.line.lastFirst } ∧ d.cfg = c.cfg

/-- JOB_RELEASE, from the fabric or relayed by the peer, makes the slot that holds the job stop taking traffic (R625); SLOT_FREE frees it,
with its table blocks, once every TU of it is acknowledged or out of its window (R57). Acknowledged means at the latest TSEQ (log entry
90). -/
def Obligations.ReleaseThenSlotFree : Prop :=
  (∀ (s : State) (ch : Fin 8) (e : CtlEnv) (k : Nat), Asks s ch e → (s.chan ch).holds e.job = some k →
    ((s.chan ch).slot k).mode ≠ .releasing →
    Changes (.jobRelease ch e) s ch fun _ d => (d.slot k).mode = .releasing)
  ∧ (∀ (s : State) (ch : Fin 8) (e : CtlEnv) (k : Nat), InPath s ch → (s.chan ch).seqFree = true →
    (s.chan ch).holds e.job = some k → ((s.chan ch).slot k).mode ≠ .releasing →
    Changes (.jobReleaseRelayed ch e) s ch fun _ d => (d.slot k).mode = .releasing)
  ∧ ∀ (s : State) (ch : Fin 8) (k : Fin 16), InPath s ch → ((s.chan ch).slot k).mode = .releasing → (s.chan ch).drained k = true →
    Changes (.slotFree ch k) s ch fun c d =>
      d.slotFree k = true ∧ OtherSlotsKept k c d ∧ (∀ x ∈ d.fab.blocks, x.2.1 ≠ k.val) ∧ d.regs = c.regs ∧ Kept [.ctrl, .fab] c d

/-- R59: STEP_MARK names the current step or the next: the next one becomes the slot's step, the same one changes nothing, any other is BAD_STEP; a mark relayed
by the peer that names the next step moves it on too. -/
def Obligations.StepMarkAdvancesByOne : Prop :=
  (∀ (s : State) (ch : Fin 8) (e : CtlEnv) (step : BitVec 32) (k : Nat), Asks s ch e → (s.chan ch).boot.pst = 0 →
    (List.range 16).find? (fun k => decide (((s.chan ch).slot k).mode = .stage ∨ ((s.chan ch).slot k).mode = .col)
      && decide (((s.chan ch).slot k).body.jobId = e.job)) = some k →
    Changes (.stepMark ch e step) s ch fun c d =>
      (step = (c.slot k).step + 1 → (d.slot k).step = step)
      ∧ (step ≠ (c.slot k).step + 1 → (d.slot k).step = (c.slot k).step ∧ d.sch = c.sch)
      ∧ (step ≠ (c.slot k).step → step ≠ (c.slot k).step + 1 → d = (c.takeReq 3 e).answer 3 e 0x09)
      ∧ OtherSlotsKept k c d ∧ d.sec = c.sec ∧ d.line = c.line ∧ d.cfg = c.cfg ∧ MemoryKept c d)
  ∧ ∀ (s : State) (ch : Fin 8) (e : CtlEnv) (step : BitVec 32) (k : Nat), InPath s ch → (s.chan ch).seqFree = true →
    (s.chan ch).holds e.job = some k → ((s.chan ch).slot k).mode ≠ .releasing → step = ((s.chan ch).slot k).step + 1 →
    Changes (.stepMarkRelayed ch e step) s ch fun c d =>
      (d.slot k).step = step ∧ OtherSlotsKept k c d ∧ d.sch = c.sch ∧ d.sec = c.sec ∧ d.line = c.line ∧ d.cfg = c.cfg

/-! ### The fabric port -/

/-- R73: what a receiver does with each arriving flit, by its CRC, type and sequence number; nothing passes to the packet layer but the flit in
order, where a buffer of its class is free (one with none is dropped: log entry 87). A NAK that is due goes out next and carries the current ACK. -/
def Obligations.FlitReceiverActions : Prop :=
  (∀ (s : State) (ch : Fin 8) (p : Fin 4) (f : Flit), InLife s ch → ((s.chan ch).port p).state ≠ .down →
    Changes (.flitReceive ch p f) s ch fun c d =>
      let x := c.port p
      let y := d.port p
      let bad := f.crc ≠ crc32c (flitBody f) ∨ 4 ≤ f.type.toNat
      Kept [.regs, .fab, .evr] c d
      ∧ (bad → y = { x with nakSent := true, nakDue := true }
          ∧ d.reg (0x100050 + 4 * p.val) = satAdd (c.reg (0x100050 + 4 * p.val)) 1
          ∧ d.evr.input = c.evr.input ++ [{ ev := .fabCrc, value := p.val, scope := p.val }])
      ∧ (¬bad → f.type = 0 → f.seq = x.rxAck + 1 → rxRoom x f.tc.toNat = true → y.rxAck = f.seq ∧ y.nakSent = false ∧ y.ackOwed = true
          ∧ y.rxq = (takePayload x f).rxq ∧ y.reasm = (takePayload x f).reasm)
      ∧ (¬bad → f.type = 0 → f.seq = x.rxAck + 1 → rxRoom x f.tc.toNat = false → y.rxAck = x.rxAck ∧ y.rxq = x.rxq ∧ y.reasm = x.reasm)
      ∧ (¬bad → f.type = 0 → f.seq ≠ x.rxAck + 1 → y.rxAck = x.rxAck ∧ y.rxq = x.rxq ∧ y.reasm = x.reasm)
      ∧ (¬bad → f.type = 0 → f.seq ≠ x.rxAck + 1 → (x.rxAck - f.seq).toNat ≤ 1023 → y.nakDue = x.nakDue ∧ y.nakSent = x.nakSent)
      ∧ (¬bad → f.type = 0 → f.seq ≠ x.rxAck + 1 → 1023 < (x.rxAck - f.seq).toNat → y.nakSent = true ∧ (x.nakSent = false → y.nakDue = true))
      ∧ (¬bad → f.type = 1 → y.rxq = x.rxq ∧ y.rxAck = x.rxAck ∧ y.state = x.state
          ∧ y.credits = (List.range 4).map fun k => lget 0 x.credits k + fld f.credits (23 - 6 * k) (18 - 6 * k))
      ∧ (¬bad → f.type = 2 → y.rxq = x.rxq ∧ y.rxAck = x.rxAck ∧ (y.state = .retraining ∨ y.replay = [] ∨ y.resend = some 0))
      ∧ (¬bad → f.type = 3 → x.state = .up → y.state = .retraining ∧ y.trainDue = true))
  ∧ ∀ (s : State) (ch : Fin 8) (p : Fin 4), InLife s ch → ((s.chan ch).port p).state ≠ .down → ((s.chan ch).port p).nakDue = true →
    Changes (.flitSend ch p) s ch fun c d => ∃ f : Flit, (d.port p).wire = (c.port p).wire ++ [f] ∧ f.type = 2 ∧ f.ack = (c.port p).rxAck
      ∧ (d.port p).nakDue = false

/-- R74: on a NAK every unacknowledged flit is sent again in order from ACK + 1; 20 µs without progress start a replay from the oldest; eight NAKs or four
timeouts without progress start a retrain. -/
def Obligations.ReplayAndRetrainThresholds : Prop :=
  (∀ (s : State) (ch : Fin 8) (p : Fin 4) (f : Flit), InLife s ch → ((s.chan ch).port p).state = .up → f.crc = crc32c (flitBody f) →
    f.type = 2 →
    Changes (.flitReceive ch p f) s ch fun c d =>
      let r := c.takeAck p f
      let n := if r.1 then 0 else (c.port p).nakRun + 1
      (8 ≤ n → (d.port p).state = .retraining)
      ∧ (n < 8 → (d.port p).state = .up ∧ (d.port p).replay = (r.2.port p).replay ∧ (d.port p).replay <:+ (c.port p).replay ∧ (d.port p).nakRun = n
          ∧ ((r.2.port p).replay ≠ [] → (d.port p).resend = some 0)))
  ∧ (∀ (s : State) (ch : Fin 8) (p : Fin 4), InLife s ch → ((s.chan ch).port p).state = .up → ((s.chan ch).port p).replay ≠ [] →
    ((s.chan ch).port p).progressUs + 20 < (s.chan ch).us →
    Changes (.replayTimeout ch p) s ch fun c d =>
      (3 ≤ (c.port p).timeouts → (d.port p).state = .retraining)
      ∧ ((c.port p).timeouts < 3 → (d.port p).state = .up ∧ (d.port p).resend = some 0 ∧ (d.port p).timeouts = (c.port p).timeouts + 1
          ∧ d.reg (0x100040 + 4 * p.val) = satAdd (c.reg (0x100040 + 4 * p.val)) 1)
      ∧ (d.port p).replay = (c.port p).replay ∧ Kept [.regs, .fab, .evr] c d)
  ∧ ∀ (s : State) (ch : Fin 8) (p : Fin 4) (r : Nat) (f : Flit), InLife s ch → ((s.chan ch).port p).state = .up →
    ((s.chan ch).port p).nakDue = false → ((s.chan ch).port p).trainDue = false → ((s.chan ch).port p).resend = some r →
    ((s.chan ch).port p).replay[r]? = some f →
    Changes (.flitSend ch p) s ch fun c d =>
      (∃ g : Flit, (d.port p).wire = (c.port p).wire ++ [g] ∧ g.type = f.type ∧ g.tc = f.tc ∧ g.seq = f.seq ∧ g.sop = f.sop
        ∧ g.payload = f.payload)
      ∧ (d.port p).resend = (if r + 1 < (c.port p).replay.length then some (r + 1) else none)
      ∧ (d.port p).replay = (c.port p).replay ∧ (d.port p).credits = (c.port p).credits

/-- FLIT_SEND puts exactly one flit on the wire of a port that is up; it carries the current ACK and its CRC. A DATA flit is a replay, or it
has the next sequence number and spends a credit of its class (R72, R75); no other flit spends one. ACK_IDLE_DUE sends the ACK that is
owed (R72). The order in which a port is served is the model's (log entry 80). -/
def Obligations.FlitSendUsesCredits : Prop :=
  (∀ (s : State) (ch : Fin 8) (p : Fin 4), InLife s ch → ((s.chan ch).port p).state = .up →
    Changes (.flitSend ch p) s ch fun c d =>
      let x := c.port p
      let y := d.port p
      ∃ f : Flit, y.wire = x.wire ++ [f] ∧ f.ack = x.rxAck ∧ f.crc = crc32c (flitBody f)
        ∧ (f.type = 0 → x.resend = none → 0 < lget 0 x.credits f.tc.toNat ∧ f.seq = x.txSeq ∧ x.replay.length < 1024
            ∧ y.txSeq = x.txSeq + 1 ∧ y.replay.length = x.replay.length + 1
            ∧ y.credits = x.credits.set f.tc.toNat (lget 0 x.credits f.tc.toNat - 1))
        ∧ (f.type ≠ 0 → y.credits = x.credits ∧ y.txSeq = x.txSeq ∧ y.replay = x.replay ∧ y.txq = x.txq)
        ∧ (∀ q : Fin 4, q ≠ p → d.port q = c.port q) ∧ d.regs = c.regs ∧ Kept [.fab] c d)
  ∧ ∀ (s : State) (ch : Fin 8) (p : Fin 4), InLife s ch → ((s.chan ch).port p).state ≠ .down → ((s.chan ch).port p).ackOwed = true →
    Changes (.ackIdleDue ch p) s ch fun c d =>
      (∃ f : Flit, (d.port p).wire = (c.port p).wire ++ [f] ∧ f.type = 1 ∧ f.ack = (c.port p).rxAck ∧ f.crc = crc32c (flitBody f))
      ∧ (d.port p).ackOwed = false ∧ (d.port p).rxq = (c.port p).rxq ∧ d.regs = c.regs ∧ Kept [.fab] c d

/-- R70: PORT_RETRAIN holds new DATA and sends TRAIN flits; an attempt that succeeds brings the port up and clears its fence bit, a first or second failure is
retried, the third leaves the port down and fenced; a port that is down tries again after 1 s, with up to three attempts (log entry 150).
The width is the widest for the usable lanes (R68). -/
def Obligations.PortRetrainRuns : Prop :=
  (∀ (s : State) (ch : Fin 8) (p : Fin 4), InLife s ch → ((s.chan ch).port p).state = .retraining → ((s.chan ch).port p).nakDue = false →
    Changes (.flitSend ch p) s ch fun c d =>
      ((c.port p).trainDue = true → ∃ f : Flit, (d.port p).wire = (c.port p).wire ++ [f] ∧ f.type = 3)
      ∧ ((c.port p).trainDue = false → d = c) ∧ (d.port p).txq = (c.port p).txq ∧ (d.port p).txSeq = (c.port p).txSeq)
  ∧
  (∀ (s : State) (ch : Fin 8) (p : Fin 4) (lane : Option (Bool × Fin 17)), InLife s ch → ((s.chan ch).port p).state = .up →
    Changes (.portRetrain ch p lane) s ch fun c d =>
      (d.port p).state = .retraining ∧ (d.port p).trainDue = true ∧ (d.port p).attempt = 1 ∧ (d.port p).replay = (c.port p).replay
      ∧ (d.port p).txq = (c.port p).txq ∧ (∀ q : Fin 4, q ≠ p → d.port q = c.port q) ∧ Kept [.regs, .fab, .evr] c d)
  ∧ (∀ (s : State) (ch : Fin 8) (p : Fin 4) (tf rf : BitVec 17) (g : List Nat), InLife s ch →
    ((s.chan ch).port p).state = .training ∨ ((s.chan ch).port p).state = .retraining →
    Changes (.retrainAttemptEnd ch p false tf rf g) s ch fun c d =>
      ((c.port p).attempt < 3 → (d.port p).state = (c.port p).state ∧ (d.port p).attempt = (c.port p).attempt + 1 ∧ (d.port p).trainDue = true)
      ∧ (3 ≤ (c.port p).attempt → (d.port p).state = .down ∧ d.portFenced p = true
          ∧ ({ ev := .fabPortDown, scope := p.val, value := p.val } : Raised) ∈ d.evr.input)
      ∧ (d.port p).replay = (c.port p).replay
      ∧ d.fab.txBad = trainedBad c.fab.txSpareFor c.fab.txBad (c.lanesOut 3) tf p
      ∧ d.fab.rxBad = trainedBad c.fab.rxSpareFor c.fab.rxBad (c.lanesOut 4) rf p
      ∧ d.regs = c.regs ∧ Kept [.fab, .evr] c d)
  ∧ (∀ (s : State) (ch : Fin 8) (p : Fin 4) (tf rf : BitVec 17) (g : List Nat), InLife s ch →
    ((s.chan ch).port p).state = .training ∨ ((s.chan ch).port p).state = .retraining →
    (s.chan ch).fab.held = [] → (s.chan ch).fab.fences = [] →
    let tb := trainedBad (s.chan ch).fab.txSpareFor (s.chan ch).fab.txBad ((s.chan ch).lanesOut 3) tf p
    let rb := trainedBad (s.chan ch).fab.rxSpareFor (s.chan ch).fab.rxBad ((s.chan ch).lanesOut 4) rf p
    let w := min (widthFor (usable (spareLane (s.chan ch).fab.txSpareFor tb p) tb p)) (widthFor (usable (spareLane (s.chan ch).fab.rxSpareFor rb p) rb p))
    0 < w →
    Changes (.retrainAttemptEnd ch p true tf rf g) s ch fun c d =>
      (d.port p).state = .up ∧ (d.port p).width = w ∧ d.portFenced p = false ∧ (d.port p).replay = (c.port p).replay
      ∧ ((c.port p).replay ≠ [] → (d.port p).resend = some 0)
      ∧ (d.port p).credits = (List.range 4).map (fun k => min (lget 0 [4, 24, 20, 16] k) (lget 0 g k)))
  ∧ (∀ n : Nat, widthFor n = if 4 ≤ n then 4 else if n = 2 ∨ n = 3 then 2 else if n = 1 then 1 else 0)
  ∧ ∀ (s : State) (ch : Fin 8) (p : Fin 4), InLife s ch → ((s.chan ch).port p).state = .down →
    ((s.chan ch).port p).progressUs + 1000000 < (s.chan ch).us →
    Changes (.portTrainRetry ch p) s ch fun c d =>
      (d.port p).state = .training ∧ (d.port p).attempt = 1 ∧ d.fab.fenced = c.fab.fenced ∧ d.regs = c.regs ∧ Kept [.fab] c d

/-- PACKET_RECEIVE of a packet that its policer passes, with no older one of its class ahead of it at the port: a request from a listed coordinate reaches the sequencer's queue (R83), a
NACK for this channel reaches NACK handling, and a RANK packet whose rank the job does not have is discarded under the violation rule with its source
coordinate logged (R47). In each case the packet leaves the port. -/
def Obligations.PacketsAreSteered : Prop :=
  ∀ (s : State) (ch : Fin 8) (port : Fin 4) (p : Packet), InPath s ch → (s.chan ch).edgeHead port p.tc = none →
    headerBad p = (false, false) → (s.chan ch).transit p = false → ((s.chan ch).police port p).1 = true →
    (p.kind = 1 → (s.chan ch).cfg.cpList.contains p.src = true → (s.chan ch).seqFree = true → 8 ≤ p.payload.length →
      (∃ b, ((s.chan ch).alloc .system (24 + p.payload.length)
        (some (.ingress .system ((poolFor (24 + p.payload.length)).getD 3) port p.tc.toNat))).1 = some b) → reqForm (beAt p.payload 0 2) (p.payload.drop 8) = some true →
      Changes (.packetReceive ch port p) s ch fun c d =>
        d.ctrl.seqIn = c.ctrl.seqIn ++ [⟨p.src, p.payload, c.ctrl.arrived⟩] ∧ d.ctrl.slots = c.ctrl.slots ∧ (d.port port).rxq = (c.port port).rxq)
    ∧ (p.kind = 3 → ∀ b : Buf, ((s.chan ch).alloc .system (24 + p.payload.length)
        (some (.ingress .system ((poolFor (24 + p.payload.length)).getD 3) port p.tc.toNat))).1 = some b →
      Changes (.packetReceive ch port p) s ch fun c d =>
        d.fab.nackIn = c.fab.nackIn ++ [(p, b.pool, b.idx)] ∧ cget? (d.pool b.pool).bufs b.idx = some .system ∧ (d.port port).rxq = (c.port port).rxq ∧ d.regs = c.regs ∧ d.ctrl = c.ctrl)
    ∧ (p.kind = 0 → ∀ k : Nat, (s.chan ch).slotByTag (jobTag p.dest) false = some k →
        ((s.chan ch).slot k).body.rankCount.toNat ≤ rankOf p.dest → (s.chan ch).hubLost = false →
        Changes (.packetReceive ch port p) s ch fun c d =>
          d.viols = c.viols ++ [{ source := .fabric, ch := 0, kind := .inbandRule, addr := p.dest.toNat, coord := p.src, stamp := c.now }]
          ∧ d.reg 0x100060 = satAdd (c.reg 0x100060) 1 ∧ d.codec = c.codec ∧ d.ctrl = c.ctrl ∧ (d.port port).rxq = (c.port port).rxq
          ∧ ({ ev := .fabRankRange, slot := k, addr := p.src.toNat } : Raised) ∈ d.evr.input)

/-- A NACK that comes in answer to a packet of the channel's own: a reason of R93 and a whole header of a RANK packet, which needs no tail
record (R80). -/
def Sys2Proof.Safety.NackOf (n p : Packet) : Prop :=
  1 ≤ beAt n.payload 0 1 ∧ beAt n.payload 0 1 ≤ 4 ∧ 32 ≤ n.payload.length ∧ p = pktOf (n.payload.drop 8) ∧ p.kind = 0 ∧ p.length.toNat ≤ 8160

/-- The channel as NACK handling finds it: the NACK has left its buffer. -/
def Sys2Proof.Safety.nackFreed (c : Chan) (n : Packet) : Chan :=
  c.releaseOpt ((c.fab.nackIn.find? fun x => decide (x.1 = n)).map fun x => ⟨x.2.1, x.2.2⟩)

/-- NACK_RECEIVE, HELD_PACKET_TIMEOUT and TAIL_RECORD_EXPIRE, FENCE_HOLD_EXPIRE (R80, R93, R94, R96): a NACKed packet is translated again and sent where its
slot's generation has switched since, and is held for the switch where it has not; the fourth NACK of one packet gives it up. A NACK with a
reserved reason, or one too short for a header (log entry 145), is discarded as FAB_HDR_BAD; one for a job that no slot holds is FAB_UNREACH;
packets held past REROUTE_WAIT are given up; a tail record is freed 2 × NACK_HOLD after its packet left; and a FENCE packet whose wait is over
leaves on its port, as the tables stand by then. -/
def Obligations.NacksAndHeldPackets : Prop :=
  (∀ (s : State) (ch : Fin 8) (n : Packet), InPath s ch → beAt n.payload 0 1 = 0 ∨ 4 < beAt n.payload 0 1 ∨ n.payload.length < 32 →
    Changes (.nackReceive ch n) s ch fun c d =>
      d.evr.input = c.evr.input ++ [{ ev := .fabHdrBad, addr := n.src.toNat }]
      ∧ d.fab.ports = c.fab.ports ∧ d.fab.held = c.fab.held ∧ MemoryKept c d ∧ Kept [.fab, .mem, .col, .evr] c d)
  ∧ (∀ (s : State) (ch : Fin 8) (n p : Packet) (k : Nat), InPath s ch → NackOf n p →
    (s.chan ch).slotByTag (jobTag p.dest) false = some k →
    (4 ≤ ((s.chan ch).nackCount p).1 → Changes (.nackReceive ch n) s ch fun c d =>
      d.reg 0x100068 = satAdd (c.reg 0x100068) 1 ∧ d.reg 0x100070 = satAdd (c.reg 0x100070) 1 ∧ d.fab.ports = c.fab.ports
      ∧ d.fab.held = c.fab.held ∧ ({ ev := .fabUnreach, slot := k, addr := p.src.toNat } : Raised) ∈ d.evr.input)
    ∧ (((s.chan ch).nackCount p).1 < 4 → (s.chan ch).genOf k = p.gen → (s.chan ch).heldBytes + (24 + p.payload.length) ≤ 4194304 →
      (∃ b : Buf, ((nackFreed (s.chan ch) n).alloc (.slot k) (24 + p.payload.length)).1 = some b) →
      Changes (.nackReceive ch n) s ch fun c d =>
        (∃ h : Held, d.fab.held = c.fab.held ++ [h] ∧ h.pkt = p ∧ h.slot = some k ∧ h.sinceUs = c.us ∧ h.forGen = true)
        ∧ d.reg 0x100068 = satAdd (c.reg 0x100068) 1 ∧ d.reg 0x10006C = satAdd (c.reg 0x10006C) 1 ∧ d.fab.ports = c.fab.ports)
    ∧ ∀ e : BitVec 128, ((s.chan ch).nackCount p).1 < 4 → (s.chan ch).genOf k ≠ p.gen →
      (s.chan ch).xlate k ((s.chan ch).genOf k) (rankOf p.dest) = some e → entAction e = 1 → entPort e < 4 →
      (s.chan ch).portFenced (entPort e) = false → p.fence = false →
      Changes (.nackReceive ch n) s ch fun c d =>
        (d.port (entPort e)).txq = (c.port (entPort e)).txq
          ++ [{ p with gen := c.genOf k, hops := (entRoute e).1, route := (entRoute e).2 }]
        ∧ d.reg 0x100068 = satAdd (c.reg 0x100068) 1 ∧ d.fab.held = c.fab.held)
  ∧ (∀ (s : State) (ch : Fin 8) (n : Packet), InPath s ch → 1 ≤ beAt n.payload 0 1 → beAt n.payload 0 1 ≤ 4 → 32 ≤ n.payload.length →
    (pktOf (n.payload.drop 8)).kind = 0 → (s.chan ch).slotByTag (jobTag (pktOf (n.payload.drop 8)).dest) false = none →
    Changes (.nackReceive ch n) s ch fun c d =>
      d.reg 0x100068 = satAdd (c.reg 0x100068) 1 ∧ d.reg 0x100070 = satAdd (c.reg 0x100070) 1 ∧ d.fab.ports = c.fab.ports
      ∧ d.fab.held = c.fab.held ∧ MemoryKept c d ∧ Kept [.regs, .fab, .mem, .col, .evr] c d)
  ∧ (∀ (s : State) (ch : Fin 8), InPath s ch → (s.chan ch).fab.fences = [] →
    Changes (.heldPacketTimeout ch) s ch fun c d =>
      d.fab.held = c.fab.held.filter (fun h => decide (c.us ≤ h.sinceUs + c.rerouteUs)) ∧ d.fab.ports = c.fab.ports
      ∧ MemoryKept c d ∧ Kept [.regs, .fab, .mem, .evr] c d)
  ∧ (∀ (s : State) (ch : Fin 8), InPath s ch →
    Changes (.tailRecordExpire ch) s ch fun c d =>
      d = { c with fab := { c.fab with tails := c.fab.tails.filter fun t => match t.leftUs with | some l => decide (c.us ≤ l + 2 * c.nackHold) | none => true } })
  ∧ (∀ (s : State) (ch : Fin 8) (f : FenceHeld) (port : Nat), InPath s ch → port < 4 → (s.chan ch).fab.fences = [f] → f.slot = none →
    (s.chan ch).freePort = some port → (s.chan ch).fenceWaits f.pkt port f.nr = false →
    Changes (.fenceHoldExpire ch) s ch fun c d =>
      d.fab.fences = [] ∧ (d.port port).txq = (c.port port).txq ++ [f.pkt] ∧ d.fab.held = c.fab.held ∧ Kept [.regs, .fab] c d)
  ∧ ∀ (s : State) (ch : Fin 8) (f : FenceHeld) (k : Nat) (e : BitVec 128), InPath s ch → (s.chan ch).fab.fences = [f] → f.slot = some k →
    (s.chan ch).xlate k ((s.chan ch).genOf k) (rankOf f.pkt.dest) = some e → entAction e = 1 → entPort e < 4 →
    (s.chan ch).portFenced (entPort e) = false →
    let p : Packet := { f.pkt with gen := (s.chan ch).genOf k, hops := (entRoute e).1, route := (entRoute e).2 }
    (s.chan ch).fenceWaits p (entPort e) f.nr = false →
    Changes (.fenceHoldExpire ch) s ch fun c d =>
      d.fab.fences = [] ∧ (d.port (entPort e)).txq = (c.port (entPort e)).txq ++ [p] ∧ d.fab.held = c.fab.held ∧ Kept [.regs, .fab] c d

/-- The slot in which a request's job stands and takes traffic. -/
def Sys2Proof.Safety.JobIn (s : State) (ch : Fin 8) (e : CtlEnv) (k : Nat) : Prop :=
  Asks s ch e ∧ (s.chan ch).boot.pst = 0
  ∧ (List.range 16).find? (fun k => decide (((s.chan ch).slot k).mode = .stage ∨ ((s.chan ch).slot k).mode = .col)
      && decide (((s.chan ch).slot k).body.jobId = e.job)) = some k

/-- R90: TABLE_WRITE writes only the slot's shadow generation, entry by entry, and never the current one; a write or a switch while the slot's switch is pending is
BUSY; GEN_SWITCH less than 100 µs ahead, or with 10⁹ ns or more, is BAD_FIELD (R91), and otherwise arms trigger slot 1 at its instant. -/
def Obligations.TablesAreWrittenInTheShadow : Prop :=
  (∀ (s : State) (ch : Fin 8) (e : CtlEnv) (b : TableBody) (k : Nat), JobIn s ch e k → (s.chan ch).tableForm k b = true →
    cget? (s.chan ch).fab.changes k = none → (s.chan ch).tableContents k (!(s.chan ch).genOf k) b = true →
    Changes (.tableWrite ch e b) s ch fun c d =>
      d.tables (c.genOf k) = c.tables (c.genOf k) ∧ d.fab.curGen = c.fab.curGen
      ∧ (b.table = 2 → ∀ j : Nat, j < b.count.toNat →
          cget 0 (d.tables (!c.genOf k)).trees (b.index.toNat + j) = BitVec.ofNat 256 (beNat ((b.entries.drop (32 * j)).take 32)))
      ∧ (b.table = 3 → ∀ j : Nat, j < b.count.toNat →
          cget 0 (d.tables (!c.genOf k)).groups (b.index.toNat + j) = BitVec.ofNat 1024 (beNat ((b.entries.drop (128 * j)).take 128)))
      ∧ (b.table = 4 → ∀ j : Nat, j < b.count.toNat →
          cget 0 (d.tables (!c.genOf k)).policers (b.index.toNat + j) = BitVec.ofNat 256 (beNat ((b.entries.drop (32 * j)).take 32)))
      ∧ (b.table = 0 → ∀ j : Nat, j < b.count.toNat →
          cget 0 (d.tables (!c.genOf k)).windows (8 * k + b.index.toNat + j) = BitVec.ofNat 64 (beNat ((b.entries.drop (8 * j)).take 8)))
      ∧ d.ctrl.slots = c.ctrl.slots ∧ d.sec = c.sec ∧ d.sch = c.sch)
  ∧ (∀ (s : State) (ch : Fin 8) (e : CtlEnv) (b : TableBody) (k : Nat), JobIn s ch e k → (s.chan ch).tableForm k b = true →
    cget? (s.chan ch).fab.changes k ≠ none → Changes (.tableWrite ch e b) s ch fun c d => d = (c.takeReq 0x10 e).answer 0x10 e 0x0B)
  ∧ (∀ (s : State) (ch : Fin 8) (e : CtlEnv) (b : SwitchBody) (k : Nat), JobIn s ch e k →
    let t := b.actS.toNat * 1000000000 + b.actNs.toNat
    (1000000000 ≤ b.actNs.toNat ∨ t < (s.chan ch).now + 100000 ∨ b.rsvd ≠ 0 →
      Changes (.genSwitch ch e b) s ch fun c d => d = (c.takeReq 0x11 e).answer 0x11 e 0x03)
    ∧ (b.actNs.toNat < 1000000000 → (s.chan ch).now + 100000 ≤ t → b.rsvd = 0 → (s.chan ch).fab.changes ≠ [] →
      Changes (.genSwitch ch e b) s ch fun c d => d = (c.takeReq 0x11 e).answer 0x11 e 0x0B)
    ∧ (b.actNs.toNat < 1000000000 → (s.chan ch).now + 100000 ≤ t → b.rsvd = 0 → (s.chan ch).fab.changes = [] →
      Changes (.genSwitch ch e b) s ch fun c d =>
        cget? d.fab.changes k = some (.armed t b.windowUs.toNat) ∧ (vget d.time.slots 1).armed = true ∧ (vget d.time.slots 1).at_ = t
        ∧ d.fab.curGen = c.fab.curGen ∧ d.fab.gen0 = c.fab.gen0 ∧ d.fab.gen1 = c.fab.gen1 ∧ d.sec = c.sec ∧ d.sch = c.sch))
  ∧ ∀ (s : State) (ch : Fin 8) (e : CtlEnv) (k : Nat) (t : Instant) (w : Nat), JobIn s ch e k →
    (s.chan ch).fab.changes = [(k, .armed t w)] →
    Changes (.tableAbort ch e) s ch fun c d => d.fab.changes = [] ∧ (vget d.time.slots 1).armed = false ∧ d.fab.curGen = c.fab.curGen
      ∧ d.tables (c.genOf k) = c.tables (c.genOf k)

/-- R91: at the instant the shadow becomes current and the saddle window opens, for the larger of WINDOW_US and 2 × round-trip time; when the window closes, the
copy-forward runs, and its end leaves the slot with no change pending. -/
def Obligations.GenerationSwitchRuns : Prop :=
  (∀ (s : State) (ch : Fin 8) (k : Fin 16) (t : Instant) (w : Nat), InLife s ch → (s.chan ch).fab.changes = [(k.val, .armed t w)] →
    (s.chan ch).due 1 = true → (s.chan ch).fab.held = [] → (s.chan ch).fab.fences = [] →
    Changes (.genSwitchInstant ch) s ch fun c d =>
      d.genOf k = !c.genOf k ∧ d.fab.changes = [(k.val, .saddle (c.us + max w (2 * c.rttUs)))]
      ∧ d.fab.gen0 = c.fab.gen0 ∧ d.fab.gen1 = c.fab.gen1 ∧ (∀ j : Fin 16, j ≠ k → d.genOf j = c.genOf j)
      ∧ (vget d.time.slots 1).fired = true ∧ d.regs = c.regs ∧ Kept [.fab, .sch, .col, .time] c d)
  ∧ (∀ (s : State) (ch : Fin 8) (k t : Nat), InLife s ch → (s.chan ch).fab.changes = [(k, .saddle t)] → t < (s.chan ch).us →
    Changes (.genSaddleClose ch) s ch fun c d => d = { c with fab := { c.fab with changes := [(k, .copying)] } })
  ∧ ∀ (s : State) (ch : Fin 8) (k : Nat), InPath s ch → (s.chan ch).fab.changes = [(k, .copying)] →
    Changes (.copyForwardDone ch) s ch fun c d =>
      d.fab.changes = [] ∧ d.fab.curGen = c.fab.curGen ∧ d.tables (c.genOf k) = c.tables (c.genOf k)
      ∧ (∀ i : Nat, i < 8 → cwf 0 c.fab.gen0.windows = true → cwf 0 c.fab.gen1.windows = true →
          cget 0 (d.tables (!c.genOf k)).windows (8 * k + i) = cget 0 (c.tables (c.genOf k)).windows (8 * k + i))
      ∧ d.regs = c.regs ∧ Kept [.fab] c d

/-! ### The deep buffer -/

/-- The oldest object of a spill queue has left it for buffer `b`, taken against its slot's share; its queue waits no longer. -/
def Sys2Proof.Safety.ReadBack (slot cls : Nat) (toLine : Bool) (rest : List (Spilled × Nat × Nat)) (b : Buf) (c d : Chan) : Prop :=
  (d.spillQ slot cls toLine).objs = rest ∧ cget? (d.pool b.pool).bufs b.idx = some (.slot slot)
  ∧ (∀ w ∈ d.mem.waiters, w ∈ c.mem.waiters) ∧ d.mem.phase = c.mem.phase ∧ MemoryKept c d
  ∧ (cls ≠ 1 → d.regs = c.regs) ∧ Kept [.mem, .codec, .sch, .line, .regs, .evr] c d

/-- The place that the head of a spill queue keeps among the waiters (R623). -/
def Sys2Proof.Safety.headWaiter (slot cls : Nat) (toLine : Bool) (n : Nat) : Waiter := .spillHead slot cls toLine ((poolFor n).getD 3)

/-- Objects leave a spill queue oldest first, into a buffer under the slot's cap (R116); without a buffer the failure is counted and the
queue waits (R114, R623); a first read that fails its check is repeated before anything else (R129). ALLOCATION_RETRY serves the first
waiter of the share that came free, and no other requester (R623). Where an object lies in the region is the model's (log entry 85). -/
def Obligations.SpilledObjectsReturnInOrder : Prop :=
  (∀ (s : State) (ch : Fin 8) (slot : Fin 16) (bulk toLine : Bool) (o : Spilled × Nat × Nat) (rest : List (Spilled × Nat × Nat)),
    InPath s ch → (s.chan ch).memUp = true →
    ((s.chan ch).spillQ slot (if bulk then 3 else 1) toLine).objs = o :: rest →
    let cls := if bulk then 3 else 1
    let n := spilledBytes o.1
    (linesOf ((s.chan ch).spillAddr cls o) n).any (s.chan ch).lineWaits = false →
    (∀ b : Buf, ((s.chan ch).alloc (.slot slot) n (some (headWaiter slot cls toLine n))).1 = some b →
      Changes (.spillReadback ch slot bulk toLine none) s ch (ReadBack slot cls toLine rest b))
    ∧ (∀ p : Nat, poolFor n = some p → (s.chan ch).shareRoom p (.slot slot) = false →
      Changes (.spillReadback ch slot bulk toLine none) s ch fun c d =>
        d.spillQ slot cls toLine = c.spillQ slot cls toLine ∧ d.reg (0x200040 + 4 * p) = satAdd (c.reg (0x200040 + 4 * p)) 1
        ∧ (.spillHead slot cls toLine p) ∈ d.mem.waiters ∧ d.mem.pools = c.mem.pools ∧ Kept [.mem, .regs] c d)
    ∧ ∀ a : BitVec 37, a.toNat / 32 ∈ linesOf ((s.chan ch).spillAddr cls o) n →
      Changes (.spillReadback ch slot bulk toLine (some a)) s ch fun c d =>
        d = { c with mem := { c.mem with rereads := c.mem.rereads ++ [a.toNat / 32] } })
  ∧ (∀ (s : State) (ch : Fin 8) (sel : ShareSel) (pool : Fin 4) (slot : Fin 16) (cls : Nat) (toLine : Bool) (q : Nat)
      (o : Spilled × Nat × Nat) (rest : List (Spilled × Nat × Nat)) (b : Buf),
    InPath s ch → (s.chan ch).memUp = true → cls = 1 ∨ cls = 3 →
    (s.chan ch).mem.waiters.find? ((s.chan ch).waitsOn sel pool) = some (.spillHead slot cls toLine q) →
    ((s.chan ch).spillQ slot cls toLine).objs = o :: rest →
    (linesOf ((s.chan ch).spillAddr cls o) (spilledBytes o.1)).any (s.chan ch).lineWaits = false →
    ((s.chan ch).alloc (.slot slot) (spilledBytes o.1) (some (headWaiter slot cls toLine (spilledBytes o.1)))).1 = some b →
    Changes (.allocationRetry ch sel pool) s ch (ReadBack slot cls toLine rest b))
  ∧ ∀ (s : State) (ch : Fin 8) (sel : ShareSel) (pool : Fin 4), InPath s ch →
    (s.chan ch).mem.waiters.find? ((s.chan ch).waitsOn sel pool) = none →
    Changes (.allocationRetry ch sel pool) s ch fun c d => d = c

/-- MEM_REREAD_DONE, UNIT_PATTERN_TEST_DONE and UNIT_REMAP_COPY_DONE (R129–R132): a second read that passes is counted; one that fails loses the line, and
the unit that holds it is tested; a unit that fails its test is retired and copied to the lowest free unit of region 8 (the lowest is the
model's choice: log entry 155), or retired without a replacement; after the copy the remap table sends it there, and the lines that fail in
the copy are lost. A unit of region 8 stands for the unit it replaces. -/
def Obligations.LostLinesAndRetiredUnits : Prop :=
  (∀ (s : State) (ch : Fin 8) (a : BitVec 37) (mirrorOk : Bool), s.present ch = true →
    Changes (.memRereadDone ch a true mirrorOk) s ch fun c d =>
      a.toNat / 32 ∉ d.mem.rereads ∧ d.reg 0x300044 = satAdd (c.reg 0x300044) 1
      ∧ d.evr.input = c.evr.input ++ [{ ev := .memRereadOk, addr := a.toNat }] ∧ (∀ r : Nat, r ≠ 0x300044 → d.reg r = c.reg r)
      ∧ d.mem.lost = c.mem.lost ∧ d.mem.testing = c.mem.testing ∧ MemoryKept c d ∧ Kept [.regs, .mem, .evr] c d)
  ∧ (∀ (s : State) (ch : Fin 8) (a : BitVec 37) (mirrorOk : Bool), s.present ch = true →
    Changes (.memRereadDone ch a false mirrorOk) s ch fun c d =>
      a.toNat / 32 ∉ d.mem.rereads ∧ d.reg 0x300040 = satAdd (c.reg 0x300040) 1 ∧ d.mem.lastErr = a.toNat
      ∧ c.physUnit (a.toNat / 4096) ∈ d.mem.testing ∧ ({ ev := .memCheckFail, addr := a.toNat } : Raised) ∈ d.evr.input
      ∧ (∀ o : Nat, c.regionOf (c.homeAddr a.toNat) = some (7, o) → c.homeAddr a.toNat / 32 ∈ d.mem.lost
          ∧ ({ ev := .memStageLost, addr := c.homeAddr a.toNat } : Raised) ∈ d.evr.input)
      ∧ (∀ o : Nat, c.regionOf (c.homeAddr a.toNat) = some (0, o) → ∀ r ∈ c.line.rtx, r.pos ≤ o / 32 * 32 → o / 32 * 32 + 32 ≤ r.pos + r.size →
          { r with lost := true, queued := false } ∈ d.line.rtx)
      ∧ (∀ r : Nat, r ≠ 0x300040 → d.reg r = c.reg r) ∧ MemoryKept c d
      ∧ Kept [.regs, .mem, .line, .sch, .col, .codec, .part, .prov, .evr] c d)
  ∧ (∀ (s : State) (ch : Fin 8) (u : BitVec 25), s.present ch = true → u.toNat ∈ (s.chan ch).mem.testing →
    Changes (.unitPatternTestDone ch u true) s ch (fun c d =>
      d = { c with mem := { c.mem with testing := c.mem.testing.filter fun v => decide (v ≠ u.toNat) } })
    ∧ (((s.chan ch).mem.retired.any fun r => r.unit == u.toNat) = false → ((s.chan ch).mem.copying.any fun p => p.1 == u.toNat) = false →
      let home := (s.chan ch).homeUnit u.toNat
      let c1 : Chan := if home = u.toNat then s.chan ch
        else { s.chan ch with mem := { (s.chan ch).mem with worn := (s.chan ch).mem.worn ++ [u.toNat] } }
      Changes (.unitPatternTestDone ch u false) s ch fun c d =>
        u.toNat ∉ d.mem.testing ∧ ({ ev := .memUnitRetired, addr := u.toNat * 4096 } : Raised) ∈ d.evr.input ∧ d.mem.worn = c1.mem.worn
        ∧ (∀ r : Nat, c1.spareUnit = some r → d.mem.copying = c.mem.copying ++ [(home, r)] ∧ d.mem.retired = c.mem.retired
            ∧ c.regionBase 8 ≤ r * 4096 ∧ r * 4096 < c.regionBase 8 + c.regionSize 8 ∧ (∀ x ∈ c.mem.retired, x.repl ≠ some r)
            ∧ (∀ x ∈ c.mem.copying, x.2 ≠ r) ∧ r ∉ c1.mem.worn
            ∧ ∀ v : Nat, c.regionBase 8 ≤ v * 4096 → v < r →
                (∃ x ∈ c.mem.retired, x.repl = some v) ∨ (∃ x ∈ c.mem.copying, x.2 = v) ∨ v ∈ c1.mem.worn)
        ∧ (c1.spareUnit = none → (⟨home, none⟩ : Retired) ∈ d.mem.retired ∧ d.mem.copying = c.mem.copying
            ∧ ({ ev := .memRemapFull, addr := u.toNat * 4096 } : Raised) ∈ d.evr.input)
        ∧ MemoryKept c d ∧ Kept [.mem, .evr] c d))
  ∧ ∀ (s : State) (ch : Fin 8) (u : BitVec 25) (failed : List (Fin 128)) (p : Nat × Nat), s.present ch = true →
    (s.chan ch).mem.copying.find? (fun p => p.1 == u.toNat) = some p →
    Changes (.unitRemapCopyDone ch u failed) s ch fun c d =>
      d.mem.retired = c.mem.retired.filter (fun x => decide (x.unit ≠ u.toNat)) ++ [⟨u.toNat, some p.2⟩] ∧ (∀ x ∈ d.mem.copying, x.1 ≠ u.toNat)
      ∧ (∀ i ∈ failed, ∀ o : Nat, c.regionOf (c.homeAddr (u.toNat * 4096 + 32 * i.val)) = some (7, o) →
          c.homeAddr (u.toNat * 4096 + 32 * i.val) / 32 ∈ d.mem.lost)
      ∧ MemoryKept c d ∧ (failed = [] → Kept [.mem] c d) ∧ Kept [.mem, .line, .sch, .col, .codec, .part, .prov, .evr] c d

/-- Self-refresh (R135–R140): the entry ends with CLEAN once it has drained, and without it 200 µs after step 1; the deep state's entry waits for empty spill
queues (R137). The exit resets the spill regions and releases the deep buffer, or scrubs first where CLEAN is not set; where retraining from
saved values fails, full training follows, and where that fails too the channel stays out of service (R139). Records of the retransmission
store leave at the end of their window (R126). -/
def Obligations.SelfRefreshAndRetrain : Prop :=
  (∀ (s : State) (ch : Fin 8) (deep : Bool), s.present ch = true → (s.chan ch).mem.phase = .up →
    (deep = true → (s.chan ch).mem.spill = []) →
    Changes (.selfRefreshEntry ch deep true) s ch (fun c d => d = { c with mem := { c.mem with phase := .selfRefresh, clean := true, regMeta := some c.metaNow } })
    ∧ Changes (.selfRefreshEntry ch deep false) s ch fun c d => d = { c with mem := { c.mem with phase := .entering c.us } })
  ∧ (∀ (s : State) (ch : Fin 8) (drained : Bool), s.present ch = true → (s.chan ch).mem.phase = .up → (s.chan ch).mem.spill ≠ [] →
    Changes (.selfRefreshEntry ch true drained) s ch fun c d => d = c)
  ∧ (∀ (s : State) (ch : Fin 8) (t : Nat), s.present ch = true → (s.chan ch).mem.phase = .entering t → t + 200 < (s.chan ch).us →
    Changes (.selfRefreshEntryTimeout ch) s ch fun c d => d = { c with mem := { c.mem with phase := .selfRefresh, clean := false } })
  ∧ (∀ (s : State) (ch : Fin 8), s.present ch = true → (s.chan ch).mem.phase = .selfRefresh →
    Changes (.selfRefreshExit ch (BitVec.allOnes 16)) s ch (fun c d =>
      (c.mem.clean = true → d.mem.phase = .up ∧ d.mem.spill = [] ∧ d.mem.unclean = false)
      ∧ (c.mem.clean = false → d.mem.phase = .scrubbing ∧ d.mem.spill = c.mem.spill ∧ d.mem.unclean = true)
      ∧ d.mem.chUp = BitVec.allOnes 16 ∧ d.mem.retired = c.mem.retired ∧ d.line.rtx = c.line.rtx ∧ MemoryKept c d ∧ Kept [.mem, .line] c d)
    ∧ ∀ up : BitVec 16, up ≠ BitVec.allOnes 16 →
      Changes (.selfRefreshExit ch up) s ch fun c d => d = { c with mem := { c.mem with phase := .fullTraining, chUp := up } })
  ∧ (∀ (s : State) (ch : Fin 8), s.present ch = true → (s.chan ch).mem.phase = .fullTraining →
    (∀ up : BitVec 16, up ≠ BitVec.allOnes 16 → Changes (.fullTrainingDone ch up) s ch fun c d =>
      d.mem.phase = .failed ∧ d.mem.chUp = up ∧ d.boot.phase = 10 ∧ d.opt.laserOn = false
      ∧ ({ ev := .memTrainFail } : Raised) ∈ d.evr.input ∧ MemoryKept c d
      ∧ (c.line.state ≠ .up → d.evr.input = c.evr.input ++ [{ ev := .memTrainFail }] ∧ Kept [.mem, .boot, .opt, .evr] c d))
    ∧ Changes (.fullTrainingDone ch (BitVec.allOnes 16)) s ch fun c d =>
      d.mem.phase = (if c.mem.clean then .up else .scrubbing) ∧ d.mem.chUp = BitVec.allOnes 16 ∧ MemoryKept c d ∧ Kept [.mem, .line] c d)
  ∧ (∀ (s : State) (ch : Fin 8), s.present ch = true → (s.chan ch).mem.phase = .scrubbing →
    Changes (.scrubDone ch) s ch fun c d =>
      d.mem.phase = .up ∧ d.mem.spill = [] ∧ d.mem.unclean = false ∧ d.line.rtx = c.line.rtx ∧ MemoryKept c d
      ∧ Kept [.mem, .line] c d)
  ∧ ∀ (s : State) (ch : Fin 8), InLife s ch →
    Changes (.rtxRecordWindowEnd ch) s ch fun c d => d = { c with line := { c.line with rtx := c.line.rtx.filter c.inWindow } }

/-! ### Collectives -/

/-- Context `j` is as it was, or its instance had ended and its last buffer has been freed: then it is free (R190, R411). -/
def Sys2Proof.Safety.CtxKept (j : Nat) (c d : Chan) : Prop :=
  d.ctx? j = c.ctx? j ∨ d.ctx? j = none ∧ ∃ y : Ctx, c.ctx? j = some y ∧ y.ending = true

/-- No running context has changed. -/
def Sys2Proof.Safety.CtxsKept (c d : Chan) : Prop := ∀ j : Nat, CtxKept j c d

/-- No running context but `i` has changed. -/
def Sys2Proof.Safety.OtherCtxsKept (i : Nat) (c d : Chan) : Prop := ∀ j : Nat, j ≠ i → CtxKept j c d

/-- One object more stands in a slot's TC2 flow: a collective message with these bytes. -/
def Sys2Proof.Safety.SentToPeer (slot : Nat) (bytes : List Byte) (c d : Chan) : Prop :=
  ∃ o : LineObj, (d.flow slot 2).objs = (c.flow slot 2).objs ++ [o] ∧ o.kind = .collective ∧ o.bytes = bytes

/-- The instance in context `i` has ended without DONE: it takes nothing more and its accumulators are gone; its context is free at once where no
buffer is held against it. COL_FAIL_CNT rose, and a cairn with its result waits to be written (R183, R188, R190, R410). -/
def Sys2Proof.Safety.FailedEnd (i : Nat) (x : Ctx) (result : Nat) (c d : Chan) : Prop :=
  (d.ctx? i = none ∨ ∃ y : Ctx, d.ctx? i = some y ∧ y.ending = true ∧ y.accs = [])
  ∧ ((∀ p : Nat, p < 4 → shareUse (c.pool p) (.ctx i) = 0) → d.ctx? i = none) ∧ OtherCtxsKept i c d ∧ d.reg 0x400350 = satAdd (c.reg 0x400350) 1
  ∧ (∃ q : Cairn, d.prov.queue = c.prov.queue ++ [q] ∧ q.kind = 2 ∧ q.result = result ∧ q.slot = x.slot ∧ q.comm = x.comm.toNat
      ∧ q.seq = x.seq.toNat ∧ q.data = List.replicate 32 0)
  ∧ d.sec = c.sec ∧ d.cfg = c.cfg ∧ d.line = c.line ∧ d.opt = c.opt ∧ MemoryKept c d

/-- Communicators and starts: COL_COMM_OPEN with a sound body of a number not yet open adds it with the group's listed exclusions, and one already open is
refused (R155, R158); COL_COMM_CLOSE is refused while an instance runs (R156), and otherwise closes it with its span digest; COL_START, when every
check passes, takes the lowest free context with the group entry, placement epoch and live set of that moment (R157, R158), and refuses a
SEQ that is not the next one; COL_EXCLUDE with no instance running adds the entry at the coordinator, and is refused elsewhere (R184). -/
def Obligations.CommunicatorsAndStarts : Prop :=
  (∀ (s : State) (ch : Fin 8) (e : CtlEnv) (b : CommBody) (k : Nat), JobIn s ch e k → (s.chan ch).commOk k b = true →
    ((s.chan ch).comm? k b.comm.toNat = none → (s.chan ch).col.comms.length < 256 →
      Changes (.colCommOpen ch e b) s ch fun c d =>
        d.col = { c.col with comms := c.col.comms
          ++ [{ idx := (lowestFree (c.col.comms.map Comm.idx) 256).getD 0, slot := k, body := b, live := ((c.group? k b.group.toNat).map grpExcl).getD [] }] }
        ∧ (∃ sp : Span, d.prov.spans = c.prov.spans ++ [sp] ∧ sp.slot = k ∧ sp.comm = b.comm.toNat)
        ∧ Kept [.ctrl, .fab, .mem, .regs, .evr, .col, .prov] c d)
    ∧ ((s.chan ch).comm? k b.comm.toNat ≠ none →
      Changes (.colCommOpen ch e b) s ch fun c d => d = (c.takeReq 0x100 e).answerCol 0x100 e 0 0x03 0xFF))
  ∧ (∀ (s : State) (ch : Fin 8) (e : CtlEnv) (comm : BitVec 16) (k : Nat), JobIn s ch e k → (s.chan ch).comm? k comm.toNat ≠ none →
    ((s.chan ch).commBusy k comm.toNat = true →
      Changes (.colCommClose ch e comm 0) s ch fun c d => d = (c.takeReq 0x101 e).answerCol 0x101 e 0 0x06 0xFF)
    ∧ ((s.chan ch).commBusy k comm.toNat = false →
      Changes (.colCommClose ch e comm 0) s ch fun c d =>
        d.comm? k comm.toNat = none ∧ d.col.ctxs = c.col.ctxs ∧ (∀ x ∈ d.prov.spans, ¬(x.slot = k ∧ x.comm = comm.toNat))
        ∧ (∀ x ∈ d.codec.extents, ¬(x.slot = k ∧ x.comm = comm)) ∧ (∀ x ∈ c.col.comms, x.slot ≠ k → x ∈ d.col.comms)
        ∧ Kept [.ctrl, .fab, .mem, .regs, .evr, .col, .prov, .codec, .part] c d))
  ∧ (∀ (s : State) (ch : Fin 8) (e : CtlEnv) (b : StartBody) (k : Nat) (m : Comm) (g : GroupEntry), JobIn s ch e k →
    (s.chan ch).startFields k b = true → b.step = ((s.chan ch).slot k).step ∨ b.step = ((s.chan ch).slot k).step - 1 →
    (s.chan ch).comm? k b.comm.toNat = some m → (s.chan ch).group? k m.body.group.toNat = some g →
    (s.chan ch).commBusy k b.comm.toNat = false →
    (b.seq ≠ m.lastSeq + 1 → Changes (.colStart ch e b) s ch fun c d => d = (c.takeReq 0x102 e).answerCol 0x102 e 0 0x05 0xFF)
    ∧ (b.seq = m.lastSeq + 1 → (s.chan ch).driftStatus k m b.shard.toNat = none →
      (codecLossy m.body.codec.toNat = 3 → (s.chan ch).tilesUp ≠ []) → firstGap (s.chan ch).col.ctxs 0 < 64 → 24 ≤ (s.chan ch).ctxRes 2 →
      (s.chan ch).line.state = .up → (s.chan ch).col.pending = [] →
      Changes (.colStart ch e b) s ch fun c d =>
        let i := firstGap c.col.ctxs 0
        (∃ x : Ctx, d.ctx? i = some x ∧ x.slot = k ∧ x.comm = b.comm ∧ x.seq = b.seq ∧ x.step = b.step ∧ x.shard = b.shard
          ∧ x.chunks = b.chunks.toNat ∧ x.body = m.body ∧ x.group = g ∧ x.live = m.live ∧ x.pepoch = (c.slot k).pepoch ∧ x.attempt = 0
          ∧ x.baseUs = c.us ∧ x.accs = [] ∧ x.done = [] ∧ x.results = [] ∧ x.ending = false
          ∧ x.drift = (c.drifting k && c.drifts m && (c.driftShard k b.comm.toNat b.shard.toNat).isSome))
        ∧ OtherCtxsKept i c d ∧ (d.comm? k b.comm.toNat).map Comm.lastSeq = some b.seq
        ∧ d.reg 0x400340 = satAdd (c.reg 0x400340) 1 ∧ Kept [.ctrl, .fab, .mem, .regs, .evr, .col] c d))
  ∧ ∀ (s : State) (ch : Fin 8) (e : CtlEnv) (comm : BitVec 16) (x : ExclEntry) (k : Nat) (m : Comm), JobIn s ch e k → fld x 7 4 = 0 →
    (s.chan ch).comm? k comm.toNat = some m →
    (s.chan ch).col.ctxs.find? (fun y => y.2.slot == k && decide (y.2.comm = comm) && !y.2.ending) = none →
    (m.body.role = 1 → (addEntries m.live [x]).length ≤ 16 →
      Changes (.colExclude ch e comm x) s ch fun c d =>
        (d.comm? k comm.toNat).map Comm.live = some (addEntries m.live [x]) ∧ d.col.ctxs = c.col.ctxs
        ∧ Kept [.ctrl, .fab, .mem, .regs, .evr, .col] c d)
    ∧ (m.body.role = 3 → Changes (.colExclude ch e comm x) s ch fun c d => d = (c.takeReq 0x103 e).answerCol 0x103 e 0 0x07 0xFF)

/-- The communicator has the phase of a message's chunk: phase 0, or 1 or 2 where its CODEC is low-rank (R222). -/
def Sys2Proof.Safety.PhaseOk (m : ColMsg) (cm : Comm) : Prop :=
  chunkPhase m.hdr.chunk.toNat ≠ 3 ∧ (chunkPhase m.hdr.chunk.toNat = 0 ∨ codecLossy cm.body.codec.toNat = 3)

/-- A message of a running instance has come: its communicator is open in a slot in Stage mode and has the phase that the message names (R222), its
placement epoch is the slot's, and its instance runs in context `i`. -/
def Sys2Proof.Safety.AtInstance (s : State) (ch : Fin 8) (m : ColMsg) (i : Nat) (x : Ctx) : Prop :=
  InPath s ch ∧ ((s.chan ch).slot m.slot).mode = .stage
  ∧ (∃ cm : Comm, (s.chan ch).comm? m.slot m.hdr.comm.toNat = some cm ∧ PhaseOk m cm)
  ∧ m.hdr.pepoch = ((s.chan ch).slot m.slot).pepoch ∧ (s.chan ch).ctx? i = some x
  ∧ (s.chan ch).col.ctxs.find? (fun y => y.2.slot == m.slot.val && decide (y.2.comm = m.hdr.comm) && decide (y.2.seq = m.hdr.seq)
      && decide (y.2.pepoch = m.hdr.pepoch) && !y.2.ending) = some (i, x)

/-- What chunk `k` lacks once one input more stands in its accumulator is not nothing. -/
def Sys2Proof.Safety.StillLacks (c : Chan) (x : Ctx) (k : Nat) (src : InSrc) : Prop :=
  c.lacking x k { (cget {} x.accs k : Acc) with srcs := (cget {} x.accs k : Acc).srcs ++ [src] } ≠ ([], 0)

/-- Collective messages at a running instance: a CONTRIB counts once for each expected owner, chunk and current attempt; an older attempt is
stale, any other CONTRIB is a stray (R168), and so is a message for a communicator that is not open (R172) or of a phase that it does not
have (R222). A PARTIAL from the peer
counts once (R169) and a RELAY passes its FORWARDERs' on unchanged (R162). A RESULT is noted and passed on (R170). A DEMAND waits
ALIGN_US at a FORWARDER (R166), and is kept when the instance has not started; the first of an instance is answered with a LATE (R172). The count of siblings after an exclusion is the
model's (log entry 33). -/
def Obligations.InputsOfInstances : Prop :=
  (∀ (s : State) (ch : Fin 8) (m : ColMsg) (i : Nat) (x : Ctx), AtInstance s ch m i x →
    let k := m.hdr.chunk.toNat
    let c := s.chan ch
    (m.hdr.attempt.toNat < x.attempt → ∀ cmd ∈ [Instr.contribReceive ch m, .partialReceive ch m, .resultReceive ch m, .demandReceive ch m],
      Changes cmd s ch fun c d => CtxsKept c d ∧ d.reg 0x400354 = satAdd (c.reg 0x400354) 1 ∧ Kept [.regs, .mem, .evr, .col] c d)
    ∧ (m.hdr.attempt.toNat = x.attempt →
      (m.src ∉ c.expectOwners x k ∨ .owner m.src ∈ (cget {} x.accs k : Acc).srcs →
        Changes (.contribReceive ch m) s ch fun c d =>
          CtxsKept c d ∧ d.reg 0x400358 = satAdd (c.reg 0x400358) 1 ∧ Kept [.regs, .mem, .evr, .col] c d)
      ∧ (m.line = false → reducing x = true → x.recon = .no → k < x.chunks → k ∉ x.done → m.src ∈ c.expectOwners x k →
        .owner m.src ∉ (cget {} x.accs k : Acc).srcs → c.roomFor x k = true → StillLacks c x k (.owner m.src) →
        Changes (.contribReceive ch m) s ch fun c d => ∃ a : Acc, d.ctx? i = some { x with accs := cput x.accs k a }
          ∧ a.srcs = (cget {} x.accs k : Acc).srcs ++ [.owner m.src]
          ∧ a.ncontrib = (cget {} x.accs k : Acc).ncontrib + m.hdr.ncontrib.toNat
          ∧ a.bytes = some (match (cget {} x.accs k : Acc).bytes with | some p => (chunkAdd (ctxFmt x) p m.body).1 | none => m.body)
          ∧ OtherCtxsKept i c d ∧ Kept [.regs, .mem, .evr, .col] c d)
      ∧ (m.line = true → reducing x = true → x.recon = .no → x.body.codec = 0 → chunkPhase k = 0 → k < x.chunks → k ∉ x.done →
        .peer ∈ (c.lacking x k (cget {} x.accs k)).1 → c.roomFor x k = true → StillLacks c x k .peer →
        Changes (.partialReceive ch m) s ch fun c d => ∃ (y : Ctx) (a : Acc), d.ctx? i = some y ∧ cget {} y.accs k = a
          ∧ a.srcs = (cget {} x.accs k : Acc).srcs ++ [.peer] ∧ a.ncontrib = (cget {} x.accs k : Acc).ncontrib + m.hdr.ncontrib.toNat
          ∧ y.fromPeer = x.fromPeer ++ [k] ∧ y.done = x.done ∧ OtherCtxsKept i c d ∧ Kept [.regs, .mem, .evr, .col] c d)
      ∧ (m.line = false → x.body.role = 6 → x.recon = .no →
        Changes (.partialReceive ch m) s ch fun c d =>
          SentToPeer x.slot (colHdrBytes m.hdr ++ m.body) c d ∧ OtherCtxsKept i c d ∧ Kept [.col, .sch] c d)
      ∧ (m.line = true → x.body.role = 2 → x.drift = false → x.recon = .no → x.body.codec = 0 → chunkPhase k = 0 → k < x.chunks →
        k ∉ x.results → x.results.length + 1 < x.chunks →
        Changes (.resultReceive ch m) s ch fun c d =>
          d.ctx? i = some { x with results := x.results ++ [k], crossed := cput x.crossed k (m.hdr.ncontrib.toNat, m.body) }
          ∧ OtherCtxsKept i c d ∧ Kept [.col, .mem, .fab, .regs, .evr] c d)
      ∧ (m.line = false → x.body.role = 3 → x.drift = false → x.recon = .no → siteOut x.live c.peerSite = false → chunkPhase k = 0 →
        k < x.chunks → 1 ≤ beAt m.body 0 4 → beAt m.body 0 4 ≤ 64 →
        Changes (.demandReceive ch m) s ch fun c d =>
          d.ctx? i = some { x with demands := x.demands ++ [⟨c.us + x.body.alignUs.toNat, k, beAt m.body 0 4⟩] }
          ∧ OtherCtxsKept i c d ∧ Kept [.col, .mem] c d)))
  ∧ (∀ (s : State) (ch : Fin 8) (m : ColMsg), InPath s ch → ((s.chan ch).slot m.slot).mode = .stage →
    (s.chan ch).comm? m.slot m.hdr.comm.toNat = none → m.hdr.ctype ≠ 4 →
    ∀ cmd ∈ [Instr.contribReceive ch m, .partialReceive ch m, .resultReceive ch m, .abortReceive ch m, .lateReceive ch m, .endReceive ch m],
      Changes cmd s ch fun c d =>
        CtxsKept c d ∧ d.reg 0x400358 = satAdd (c.reg 0x400358) 1 ∧ Kept [.regs, .mem, .evr, .col] c d)
  ∧ (∀ (s : State) (ch : Fin 8) (m : ColMsg) (cm : Comm), InPath s ch → ((s.chan ch).slot m.slot).mode = .stage →
    (s.chan ch).comm? m.slot m.hdr.comm.toNat = some cm → PhaseOk m cm → m.hdr.pepoch = ((s.chan ch).slot m.slot).pepoch →
    (s.chan ch).col.ctxs = [] → seqLater m.hdr.seq.toNat cm.lastSeq.toNat = true → (s.chan ch).col.pending.length < 256 → cm.body.role = 2 →
    (s.chan ch).line.state = .up →
    (m.hdr.seq ∉ cm.warned → Changes (.demandReceive ch m) s ch fun c d =>
      d.col.pending = c.col.pending ++ [⟨m, c.us⟩] ∧ d.col.ctxs = []
      ∧ SentToPeer m.slot (colHdrBytes { m.hdr with ctype := 8, chunk := 0, ncontrib := 0 }
          ++ ([2, 1] ++ beBytes 6 0 ++ beBytes 6 (siteEntry c.cfg.coord).toNat)) c d
      ∧ (d.comm? m.slot m.hdr.comm.toNat).map Comm.warned = some (cm.warned ++ [m.hdr.seq])
      ∧ Kept [.col, .mem, .sch] c d)
    ∧ (m.hdr.seq ∈ cm.warned → Changes (.demandReceive ch m) s ch fun c d =>
      d.col.pending = c.col.pending ++ [⟨m, c.us⟩] ∧ d.col.ctxs = [] ∧ d.col.comms = c.col.comms ∧ Kept [.col, .mem] c d))
  ∧ (∀ (s : State) (ch : Fin 8) (m : ColMsg) (cm : Comm), InPath s ch → ((s.chan ch).slot m.slot).mode = .stage →
    (s.chan ch).comm? m.slot m.hdr.comm.toNat = some cm → ¬PhaseOk m cm →
    ∀ cmd ∈ [Instr.contribReceive ch m, .partialReceive ch m, .resultReceive ch m, .demandReceive ch m, .abortReceive ch m, .lateReceive ch m,
      .endReceive ch m],
      Changes cmd s ch fun c d => CtxsKept c d ∧ d.reg 0x400358 = satAdd (c.reg 0x400358) 1 ∧ Kept [.regs, .mem, .evr, .col] c d)
  ∧ ∀ (s : State) (ch : Fin 8), InPath s ch →
    Changes (.pendingDemandExpire ch) s ch fun c d =>
      d.col = { c.col with pending := c.col.pending.filter fun p => decide (c.us ≤ p.atUs + 1000000) } ∧ Kept [.col, .regs, .evr] c d

/-- Demands, deadlines and ends: a root demands the next range of its phase when RATE allows, and its pull follows after PULL_DELAY_US
(R165); a demand goes to the peer after ALIGN_US (R166); dense pulls of a low-rank instance follow RATE (R223). At its deadline a
channel reports the owners it misses, once an attempt, and a missing child later (R180). At deadline plus grace the coordinator takes
the first row of its table that applies (R181); ABORT and END are obeyed (R182); a channel that hears neither ends as ORPHANED (R185).
How many chunks one demand names is the model's (log entry 93). -/
def Obligations.DemandsDeadlinesAndEnds : Prop :=
  (∀ (s : State) (ch : Fin 8) (i : Fin 64) (x : Ctx), InPath s ch → (s.chan ch).ctx? i = some x → x.ending = false →
    let c := s.chan ch
    (∀ first n : Nat, x.recon = .no → x.body.role = 1 → c.nextRange x = some (first, n) → chunkPhase first = 0 → chunkPhase x.nextDem = 0 →
      first ≤ c.rateChunks x x.demUs → (∀ j : Nat, j < n → c.lacking x (first + j) {} ≠ ([], 0)) →
      Changes (.demandRateSend ch i) s ch fun c d =>
        (∃ y : Ctx, d.ctx? i = some y ∧ y.nextDem = first + n ∧ y.pulls = x.pulls ++ [⟨c.us + x.body.pullUs.toNat, first, n⟩]
          ∧ y.accs = x.accs ∧ y.done = x.done ∧ y.asked = if (c.partIn x first).peer then x.asked ++ [(first, n)] else x.asked)
        ∧ ((c.partIn x first).peer = true → SentToPeer x.slot (colHdrBytes (hdrFor x 4 first 0) ++ beBytes 4 n) c d)
        ∧ OtherCtxsKept i c d ∧ Kept [.col, .sch, .fab, .regs, .evr] c d)
    ∧ Changes (.pullDelayExpire ch i) s ch (fun c d =>
        let go := x.pulls.filter fun p => decide (p.dueUs < c.us)
        d.ctx? i = some { x with pulls := x.pulls.filter (fun p => decide (c.us ≤ p.dueUs))
                                 pulled := x.pulled ++ go.map fun p => (p.first, p.count) }
        ∧ OtherCtxsKept i c d ∧ Kept [.col, .fab, .regs, .evr] c d)
    ∧ Changes (.alignDelayExpire ch i) s ch (fun c d =>
        let go := x.demands.filter fun p => decide (p.dueUs < c.us)
        d.ctx? i = some { x with demands := x.demands.filter (fun p => decide (c.us ≤ p.dueUs))
                                 asked := x.asked ++ go.map fun p => (p.first, p.count) }
        ∧ (d.flow x.slot 2).objs.map LineObj.bytes
            = (c.flow x.slot 2).objs.map LineObj.bytes ++ go.map (fun (p : Delayed) => colHdrBytes (hdrFor x 4 p.first 0) ++ beBytes 4 p.count)
        ∧ OtherCtxsKept i c d ∧ Kept [.col, .sch] c d)
    ∧ (ctxLow x = true → reducing x = true → x.recon = .no → x.lowrank.nextPull < x.chunks → x.lowrank.nextPull ≤ c.rateChunks x x.baseUs →
      (∀ j : Nat, j < min 64 (x.chunks - x.lowrank.nextPull) → c.lacking x (x.lowrank.nextPull + j) {} ≠ ([], 0)) →
      Changes (.lowrankPullSend ch i) s ch fun c d =>
        let n := min 64 (x.chunks - x.lowrank.nextPull)
        d.ctx? i = some { x with pulled := x.pulled ++ [(x.lowrank.nextPull, n)]
                                 lowrank := { x.lowrank with nextPull := x.lowrank.nextPull + n } }
        ∧ OtherCtxsKept i c d ∧ Kept [.col, .fab, .regs, .evr] c d)
    ∧ (c.us ≤ x.baseUs + c.deadline x ∨ x.sent1 = true → Changes (.colDeadline ch i) s ch fun c d => d = c)
    ∧ (x.baseUs + c.deadline x < c.us → x.sent1 = false →
      Changes (.colDeadline ch i) s ch fun c d =>
        let late := (c.missing x).map memberEntry
        (∃ y : Ctx, d.ctx? i = some y ∧ y.sent1 = true
          ∧ (c.isCoord x = true → y.lateEnts = addEntries x.lateEnts (late.take 16) ∧ y.lateOver = (x.lateOver || decide (16 < late.length)))
          ∧ (c.isCoord x = false → y.lateEnts = x.lateEnts))
        ∧ (late = [] → d.sch = c.sch ∧ d.fab = c.fab) ∧ OtherCtxsKept i c d ∧ Kept [.col, .sch, .fab, .regs, .evr] c d)
    ∧ (x.body.role = 1 → x.drift = false → x.sent2 = false → x.peerLate = false → x.baseUs + c.deadline x + 2 * c.rttUs < c.us →
      (∃ r ∈ x.asked, ∃ j : Nat, j < r.2 ∧ r.1 + j ∉ x.fromPeer) →
      Changes (.colDeadlinePeerLate ch i) s ch fun c d =>
        d.ctx? i = some { x with sent2 := true
                                 lateEnts := addEntries x.lateEnts [siteEntry (BitVec.ofNat 40 (c.peerSite * 2 ^ 32))] }
        ∧ OtherCtxsKept i c d ∧ Kept [.col] c d)
    ∧ (c.isCoord x = true → x.baseUs + c.deadline x + c.grace x < c.us → c.prov.backlog = [] → c.prov.queue.length < 8 →
      let live := addEntries x.live x.lateEnts
      (x.notStarted ≠ [] → Changes (.coordinatorDecision ch i) s ch (FailedEnd i x 0x14))
      ∧ (x.notStarted = [] → (x.lateOver = true ∨ 16 < live.length) → Changes (.coordinatorDecision ch i) s ch (FailedEnd i x 0x13))
      ∧ (x.notStarted = [] → x.lateOver = false → live.length ≤ 16 →
          (someEmpty x.group x.chunks live = true → Changes (.coordinatorDecision ch i) s ch (FailedEnd i x 0x12))
          ∧ (someEmpty x.group x.chunks live = false → fld (c.reg 0x400300) 27 26 ≤ x.attempt →
              Changes (.coordinatorDecision ch i) s ch (FailedEnd i x 0x11))
          ∧ (someEmpty x.group x.chunks live = false → x.attempt < fld (c.reg 0x400300) 27 26 →
              Changes (.coordinatorDecision ch i) s ch fun c d =>
                (∃ y : Ctx, d.ctx? i = some y ∧ y.live = live ∧ y.attempt = x.attempt + 1 ∧ y.nextDem = 0 ∧ y.accs = [] ∧ y.baseUs = c.us)
                ∧ d.reg 0x40034C = satAdd (c.reg 0x40034C) 1 ∧ OtherCtxsKept i c d)))
    ∧ (c.isCoord x = false → x.baseUs + c.deadline x + 2 * c.grace x < c.us → c.prov.backlog = [] → c.prov.queue.length < 8 →
      Changes (.orphanTimeout ch i) s ch (FailedEnd i x 0x16)))
  ∧ ∀ (s : State) (ch : Fin 8) (m : ColMsg) (i : Nat) (x : Ctx), AtInstance s ch m i x →
    let c := s.chan ch
    (c.isCoord x = false → fromParent x.body.role.toNat x.drift m.line = true →
      (x.attempt < m.hdr.attempt.toNat → Changes (.abortReceive ch m) s ch fun c d =>
        (∃ y : Ctx, d.ctx? i = some y ∧ y.attempt = m.hdr.attempt.toNat ∧ y.live = entriesOf m.body (beAt m.body 0 1) ∧ y.accs = []
          ∧ y.pulls = [] ∧ y.pulled = [] ∧ y.done = [] ∧ y.results = [] ∧ y.baseUs = c.us)
        ∧ d.reg 0x40034C = satAdd (c.reg 0x40034C) 1 ∧ OtherCtxsKept i c d))
    ∧ (endWay x.body.role.toNat x.drift m.line = true → beAt m.body 0 1 ≠ 0x10 → c.prov.backlog = [] → c.prov.queue.length < 8 →
        Changes (.endReceive ch m) s ch (FailedEnd i x (beAt m.body 0 1)))
    ∧ (fromChild x.body.role.toNat m.line = true →
      (c.isCoord x = true → m.hdr.attempt.toNat = x.attempt → beAt m.body 0 1 = 1 →
        Changes (.lateReceive ch m) s ch fun c d =>
          d.ctx? i = some { x with peerLate := x.peerLate || m.line, lateEnts := addEntries x.lateEnts (entriesOf m.body (beAt m.body 1 1)) }
          ∧ OtherCtxsKept i c d ∧ Kept [.col, .mem] c d)
      ∧ (x.body.role = 2 → x.drift = false →
        Changes (.lateReceive ch m) s ch fun c d => SentToPeer x.slot (colHdrBytes m.hdr ++ m.body) c d ∧ Kept [.col, .mem, .sch] c d))

/-! ### Compression and error feedback -/

/-- CODEC_BIND gives an unbound shard the lowest free index and the lowest place of region 3, behind its metadata, that holds its extent and meets
neither another nor a unit retired without a replacement (R132), or answers
TALUS_FULL and binds nothing (R216, R217, R249); CODEC_UNBIND frees the extents of its range, and neither is taken while an instance runs
(R218). CODEC_FLOW sets the flow format of a class (R198). -/
def Obligations.ExtentsAndFlowFormats : Prop :=
  (∀ (s : State) (ch : Fin 8) (e : CtlEnv) (b : BindBody) (k : Nat) (m : Comm), JobIn s ch e k →
    (s.chan ch).comm? k b.comm.toNat = some m → bindOk m b = true → b.shardCnt = 1 → (s.chan ch).extent? k b.comm.toNat b.shardLo.toNat = none →
    let c := s.chan ch
    let size := talusMib m.body.fmt.toNat m.body.codec.toNat b.chunks.toNat b.rows.toNat b.cols.toNat
    let place := firstFit c.talusRuns (c.regionMib 3) size
    (c.commBusy k b.comm.toNat = true → Changes (.codecBind ch e b) s ch fun c d => d = (c.takeReq 0x200 e).answer 0x200 e 0x0B)
    ∧ (c.commBusy k b.comm.toNat = false → place = none → Changes (.codecBind ch e b) s ch fun c d =>
        d.codec = c.codec ∧ ({ ev := .codecTalusFull, slot := k, comm := b.comm.toNat } : Raised) ∈ d.evr.input
        ∧ Kept [.ctrl, .fab, .mem, .regs, .evr] c d)
    ∧ (c.commBusy k b.comm.toNat = false → ∀ i p : Nat, lowestFree (c.codec.extents.map Extent.idx) 4096 = some i → place = some p →
      Changes (.codecBind ch e b) s ch fun c d =>
        (∃ x : Extent, d.codec = { c.codec with extents := c.codec.extents ++ [x] } ∧ x.idx = i ∧ x.slot = k ∧ x.comm = b.comm
          ∧ x.shard = b.shardLo ∧ x.baseMib = p ∧ x.sizeMib = size ∧ x.chunks = b.chunks.toNat ∧ x.lower = [] ∧ x.upper = [] ∧ x.commit = false)
        ∧ 1 ≤ p ∧ p + size ≤ c.regionMib 3 ∧ (∀ b ∈ c.badMibs 3, b.1 + b.2 ≤ p ∨ p + size ≤ b.1 ∨ ∃ y ∈ c.codec.extents, y.baseMib ≤ b.1 ∧ b.1 < y.baseMib + y.sizeMib)
        ∧ (∀ y ∈ c.codec.extents, y.baseMib + y.sizeMib ≤ p ∨ p + size ≤ y.baseMib)
        ∧ (∀ y ∈ c.codec.extents, y.idx ≠ i)
        ∧ (codecLossy m.body.codec.toNat = 3 → ∃ q, d.mtx.binds = c.mtx.binds ++ [q] ∧ q.slot = k ∧ q.comm = b.comm ∧ q.shards = [b.shardLo])
        ∧ Kept [.ctrl, .fab, .mem, .regs, .evr, .codec, .mtx] c d))
  ∧ (∀ (s : State) (ch : Fin 8) (e : CtlEnv) (b : UnbindBody) (k : Nat), JobIn s ch e k → (s.chan ch).comm? k b.comm.toNat ≠ none →
    shardRange b.lo.toNat b.cnt.toNat = true → b.rsvd = 0 →
    ((s.chan ch).commBusy k b.comm.toNat = true →
      Changes (.codecUnbind ch e b) s ch fun c d => d = (c.takeReq 0x201 e).answer 0x201 e 0x0B)
    ∧ ((s.chan ch).commBusy k b.comm.toNat = false →
      Changes (.codecUnbind ch e b) s ch fun c d =>
        (∀ x : Extent, x ∈ d.codec.extents ↔ x ∈ c.codec.extents ∧ ¬(x.slot = k ∧ inShards b x.comm x.shard = true))
        ∧ Kept [.ctrl, .fab, .mem, .regs, .evr, .codec] c d))
  ∧ ∀ (s : State) (ch : Fin 8) (e : CtlEnv) (tc fmt : BitVec 8) (rsvd : BitVec 16) (k : Nat), JobIn s ch e k →
    (rsvd ≠ 0 ∨ (tc ≠ 1 ∧ tc ≠ 3) ∨ 3 < fmt.toNat ∨ (fmt ≠ 0 ∧ bitOf ((s.chan ch).slot k).opts 0 = false)
        ∨ (tc = 1 ∧ ((s.chan ch).slot k).mode = .col) →
      Changes (.codecFlow ch e tc fmt rsvd) s ch fun c d => d = (c.takeReq 0x202 e).answer 0x202 e 0x03)
    ∧ (rsvd = 0 → tc = 3 ∨ (tc = 1 ∧ ((s.chan ch).slot k).mode = .stage) → fmt.toNat ≤ 3 → bitOf ((s.chan ch).slot k).opts 0 = true →
      Changes (.codecFlow ch e tc fmt rsvd) s ch fun c d =>
        d.flowFmt k tc.toNat = fmt.toNat ∧ (∀ j : Nat, j ≠ 4 * k + tc.toNat → cget 0 d.codec.flows j = cget 0 c.codec.flows j)
        ∧ d.codec.extents = c.codec.extents ∧ Kept [.ctrl, .fab, .mem, .regs, .evr, .codec] c d)

/-- A buffer has been withdrawn for a parity mismatch, counted and raised (R110). -/
def Sys2Proof.Safety.Withdrawn (b : Buf) (c d : Chan) : Prop :=
  cget? (d.pool b.pool).bufs b.idx = some .withdrawn ∧ d.reg 0x20005C = satAdd (c.reg 0x20005C) 1
  ∧ ∃ e ∈ d.evr.input, e.ev = .poolParity

/-- The counter of a damage (R208). -/
def Sys2Proof.Safety.damageReg : Damage → Nat
  | .header => 0x500090
  | .length => 0x500094
  | .code => 0x500098
  | .crc => 0x50009C

/-- PACKER_CODE_BLOCK codes the oldest packet at the packer and puts it in its flow, header first, its blocks behind (R199, R206); each block
that the check decoder refuses is coded again and counted (R207); without a buffer it waits (R114, R623). EXPANDER_BLOCK expands the oldest
coded object: a sound packet leaves on its port with its values back (R86, R209); one whose port's FIFO is full stalls (R30); a damaged one
is counted under the reason of each damaged block, kept with all of its flow behind it, and asked for again (R208, R209, R334). A parity
mismatch in the buffer read withdraws it, and the object is gone (R110). Whether the check decoder refuses a block, and whether a buffer
read mismatches, are operands (log entry 98). -/
def Obligations.BlocksAreCodedAndExpanded : Prop :=
  (∀ (s : State) (ch : Fin 8) (fails : List (Fin 3)) (k cls : Nat) (o : LineObj) (rest : List PackJob), InPath s ch →
    (s.chan ch).codec.packQ = .object k cls o :: rest →
    let blks := flowBlocks o.code fails (o.bytes.drop 24)
    let bytes := o.bytes.take 24 ++ blks.flatMap Prod.fst
    let w : Waiter := .packer k ((poolFor bytes.length).getD 3)
    let bad := (blks.filter fun x => decide (x.2 ≠ 0)).length
    (o.code = 0 → tooLong cls o = false → Changes (.packerCodeBlock ch fails false) s ch fun c d =>
      d.codec = { c.codec with packQ := rest } ∧ (d.flow k cls).objs = (c.flow k cls).objs ++ [o] ∧ Kept [.codec, .sch] c d)
    ∧ (o.code ≠ 0 → ((s.chan ch).alloc (.slot k) bytes.length (some w)).1 = none → Changes (.packerCodeBlock ch fails false) s ch fun c d =>
      d.codec = c.codec ∧ d.sch = c.sch ∧ w ∈ d.mem.waiters ∧ d.mem.pools = c.mem.pools ∧ Kept [.regs, .mem] c d)
    ∧ (o.code ≠ 0 → cls ≠ 0 → ∀ b : Buf, ((s.chan ch).alloc (.slot k) bytes.length (some w)).1 = some b →
      Changes (.packerCodeBlock ch fails false) s ch fun c d =>
      d.codec.packQ = rest ∧ (∃ p : LineObj, (d.flow k cls).objs = (c.flow k cls).objs ++ [p] ∧ p.kind = .coded ∧ p.bytes = bytes
        ∧ p.buf = some b ∧ p.code = 0 ∧ p.step = o.step ∧ p.mode = o.mode)
      ∧ d.reg 0x5000A4 = satAdd (c.reg 0x5000A4) bad ∧ w ∉ d.mem.waiters
      ∧ d.codec.extents = c.codec.extents ∧ CtxsKept c d ∧ Kept [.codec, .sch, .mem, .col, .regs, .evr] c d)
    ∧ ∀ b : Buf, o.buf = some b → b.pool < 4 → Changes (.packerCodeBlock ch fails true) s ch fun c d =>
      d.codec = { c.codec with packQ := rest } ∧ Withdrawn b c d ∧ d.sch = c.sch ∧ CtxsKept c d ∧ Kept [.codec, .mem, .col, .regs, .evr] c d)
  ∧ (∀ (s : State) (ch : Fin 8) (k cls : Nat) (o : RxObj) (e : Expanded), InPath s ch →
    (s.chan ch).codec.expQ = [.packet k cls o] → o.kind = .coded → (s.chan ch).relays k o = false → 24 ≤ o.bytes.length →
    expandPacket (pktOf o.bytes).length.toNat (o.bytes.drop 24) = .ok e → (pktOf o.bytes).fence = false →
    ∀ ent : BitVec 128, (s.chan ch).xlate k ((s.chan ch).genOf k) (rankOf (pktOf o.bytes).dest) = some ent → entAction ent = 1 →
    entPort ent < 4 → (s.chan ch).portFenced (entPort ent) = false →
    (portTxBytes ((s.chan ch).port (entPort ent)) < 16384 →
      Changes (.expanderBlock ch false) s ch fun c d => d.codec.expQ = [] ∧ d.line = c.line ∧ d.ctrl = c.ctrl
      ∧ ∃ p : Packet, (d.port (entPort ent)).txq = (c.port (entPort ent)).txq ++ [p] ∧ p.coded = false ∧ p.dest = (pktOf o.bytes).dest
        ∧ p.src = (pktOf o.bytes).src ∧ p.gen = c.genOf k ∧ p.payload = e.bytes.take (pktOf o.bytes).length.toNat)
    ∧ (16384 ≤ portTxBytes ((s.chan ch).port (entPort ent)) → Changes (.expanderBlock ch false) s ch fun c d => d = c))
  ∧ (∀ (s : State) (ch : Fin 8) (k cls : Nat) (o : RxObj) (ds : List Damage), InPath s ch →
    (s.chan ch).codec.expQ = [.packet k cls o] → o.kind = .coded → (s.chan ch).relays k o = false →
    (s.chan ch).expStalled (.packet k cls o) = false → expandPacket (pktOf o.bytes).length.toNat (o.bytes.drop 24) = .error ds →
    Changes (.expanderBlock ch false) s ch fun c d =>
      d.codec.expQ = [] ∧ (∀ dm : Damage, d.reg (damageReg dm) = satAdd (c.reg (damageReg dm)) (ds.count dm)) ∧ d.fab = c.fab ∧ d.sch = c.sch
      ∧ (o.copy = false → d.line.naks = c.line.naks ++ [⟨o.tseq, 1⟩] ∧ d.mem = c.mem
          ∧ ∃ a : Awaited, d.line.awaited = c.line.awaited ++ [a] ∧ a.first = o.firstTseq ∧ a.jobs = [.packet k cls o] ∧ a.slot = k)
      ∧ (o.copy = true → d.reg 0x5000A0 = satAdd (c.reg 0x5000A0) 1 ∧ d.line = c.line))
  ∧ ∀ (s : State) (ch : Fin 8) (k cls : Nat) (o : RxObj) (b : Buf), InPath s ch → (s.chan ch).codec.expQ = [.packet k cls o] →
    o.kind = .coded → (s.chan ch).relays k o = false → o.buf = some b → b.pool < 4 →
    Changes (.expanderBlock ch true) s ch fun c d =>
      d.codec.expQ = [] ∧ Withdrawn b c d ∧ d.fab = c.fab ∧ d.line = c.line ∧ CtxsKept c d ∧ Kept [.codec, .mem, .col, .regs, .evr] c d

/-! ### The matrix engine -/

/-- Every tile but `t` holds the tasks it held. -/
def Sys2Proof.Safety.OtherTilesKept (t : Nat) (c d : Chan) : Prop := ∀ j : Nat, j ≠ t → vget d.mtx.tiles j = vget c.mtx.tiles j

/-- A channel without an engine runs no task (R256). TILE_TASK_DISPATCH gives one tile in service with a free kernel slot one task: one that
a fence moved, or the next of the next context, an output block of which no task is under way (R233–R235); with no tile in service the
descriptors wait, and one that has waited more than 1 ms is discarded, the instance's attempt having no further one (R253).
TILE_TASK_COMPLETE ends the first task of a tile: its range is done in its block's accumulators, and it counts for its pass (R233); between
the passes of ORTH the factor unit works, and FACTOR_UNIT_COMPLETE starts the next pass with T1 or T (R247, R255), or ends a QINIT and
answers its bind after the last (R249). Which tile takes a task is the model's (log entry 34). -/
def Obligations.TilesRunTasks : Prop :=
  (∀ (s : State) (ch : Fin 8) (t : Fin 17) (i : Fin 64) (o : Option (Fin 64)), s.mtxPresent ch = false →
    ∀ cmd ∈ [Instr.tileTaskDispatch ch, .tileTaskComplete ch t, .noTileWaitExpire ch i, .factorUnitComplete ch o], exec cmd s = .next s)
  ∧ (∀ (s : State) (ch : Fin 8), InLife s ch → s.mtxPresent ch = true → (s.chan ch).tilesUp = [] →
    Changes (.tileTaskDispatch ch) s ch fun c d =>
      d = { c with mtx := { c.mtx with descs := c.mtx.descs.map fun e => (e.1, { e.2 with noTileUs := some (e.2.noTileUs.getD c.us) }) } })
  ∧ (∀ (s : State) (ch : Fin 8) (t : Nat), InLife s ch → s.mtxPresent ch = true → (s.chan ch).freeTile = some t →
    (∀ e ∈ (s.chan ch).mtx.descs, e.2.noTileUs = none) →
    t ∈ (s.chan ch).tilesUp ∧ (vget (s.chan ch).mtx.tiles t).length < 4
    ∧ (∀ (k : Task) (rest : List Task), (s.chan ch).mtx.moved = k :: rest → Changes (.tileTaskDispatch ch) s ch fun c d =>
        vget d.mtx.tiles t = vget c.mtx.tiles t ++ [k] ∧ d.mtx.moved = rest ∧ d.mtx.descs = c.mtx.descs ∧ OtherTilesKept t c d
        ∧ Kept [.mtx] c d)
    ∧ (∀ (i : Nat) (x : Desc), (s.chan ch).mtx.moved = [] → (s.chan ch).nextDesc = some (i, x) → Changes (.tileTaskDispatch ch) s ch fun c d =>
        (∃ b : Nat, b < descBlocks x ∧ (cget {} x.blks b).busy = false ∧ (cget {} x.blks b).ranges < descRanges x
          ∧ vget d.mtx.tiles t = vget c.mtx.tiles t ++ [⟨i, x.pass, b, (cget {} x.blks b).ranges⟩]
          ∧ cget? d.mtx.descs i = some { x with blks := cput x.blks b { cget {} x.blks b with busy := true } })
        ∧ (∀ j : Nat, j ≠ i → cget? d.mtx.descs j = cget? c.mtx.descs j)
        ∧ OtherTilesKept t c d ∧ Kept [.mtx] c d))
  ∧ (∀ (s : State) (ch : Fin 8) (t : Fin 17) (k : Task) (rest : List Task), InLife s ch → s.mtxPresent ch = true →
    vget (s.chan ch).mtx.tiles t = k :: rest →
    (cget? (s.chan ch).mtx.descs k.ctx = none → Changes (.tileTaskComplete ch t) s ch fun c d =>
      vget d.mtx.tiles t = rest ∧ d.reg 0x600040 = satAdd (c.reg 0x600040) 1 ∧ d.mtx.descs = c.mtx.descs ∧ OtherTilesKept t c d
      ∧ Kept [.mtx, .regs] c d)
    ∧ ∀ (x : Desc) (y : Ctx) (e : Extent) (f : FFmt), cget? (s.chan ch).mtx.descs k.ctx = some x → x.pass = k.pass →
      (s.chan ch).ctx? k.ctx = some y → (s.chan ch).ctxExtent y = some e → scalarFmt x.fmt = some f →
      ∃ acc : List Nat,
        let z : Desc := { x with done := x.done + 1, blks := cput x.blks k.blk { ranges := k.rng + 1, busy := false, acc := acc } }
        (x.done + 1 < x.tasks → x.kernel ≠ .recon ∨ reconReady z x.out = false → Changes (.tileTaskComplete ch t) s ch fun c d =>
          vget d.mtx.tiles t = rest ∧ d.reg 0x600040 = satAdd (c.reg 0x600040) 1
          ∧ cget? d.mtx.descs k.ctx = some z ∧ OtherTilesKept t c d ∧ Kept [.mtx, .regs] c d)
        ∧ (x.tasks ≤ x.done + 1 → x.kernel = .orth → x.pass < 2 → Changes (.tileTaskComplete ch t) s ch fun c d =>
          vget d.mtx.tiles t = rest ∧ cget? d.mtx.descs k.ctx = some { z with factor := true } ∧ Kept [.mtx, .regs] c d))
  ∧ (∀ (s : State) (ch : Fin 8) (i : Fin 64) (x : Desc) (t : Nat), InLife s ch → s.mtxPresent ch = true →
    cget? (s.chan ch).mtx.descs i = some x → x.noTileUs = some t → (s.chan ch).tilesUp = [] → t + 1000 < (s.chan ch).us →
    Changes (.noTileWaitExpire ch i) s ch fun c d =>
      cget? d.mtx.descs i = none ∧ d.reg 0x60004C = satAdd (c.reg 0x60004C) 1 ∧ d.reg 0x600048 = satAdd (c.reg 0x600048) 1
      ∧ (∀ j : Nat, vget d.mtx.tiles j = (vget c.mtx.tiles j).filter fun k => decide (k.ctx ≠ i.val))
      ∧ (∀ y : Ctx, c.ctx? i = some y → d.ctx? i = some { y with lowrank := { y.lowrank with bad := true } })
      ∧ (∀ j : Nat, j ≠ i.val → d.ctx? j = c.ctx? j) ∧ Kept [.mtx, .col, .regs, .evr] c d)
  ∧ (∀ (s : State) (ch : Fin 8) (i : Fin 64) (x : Desc), InLife s ch → s.mtxPresent ch = true →
    cget? (s.chan ch).mtx.descs i = some x → x.factor = true →
    Changes (.factorUnitComplete ch (some i)) s ch fun c d =>
      let z := cholInv (descR x) (matOf (descR x) (descOut x))
      (∃ y : Desc, cget? d.mtx.descs i = some y ∧ y.factor = false ∧ y.pass = x.pass + 1 ∧ y.done = 0 ∧ y.blks = [] ∧ y.kernel = x.kernel
        ∧ y.tasks = passTasks x.kernel (x.pass + 1) x.fmt x.mx x.rows x.cols (descR x)
        ∧ (x.pass = 0 → y.t1 = z.1) ∧ (x.pass ≠ 0 → y.t1 = x.t1 ∧ y.t = x.t1.map fun row => rowMul (descR x) row z.1)
        ∧ ∀ j : Nat, j ∈ y.dead ↔ j ∈ x.dead ∨ j ∈ z.2)
      ∧ d.mtx.tiles = c.mtx.tiles ∧ Kept [.mtx] c d)
  ∧ ∀ (s : State) (ch : Fin 8) (b : PendBind) (sh : BitVec 16) (more : List (BitVec 16)) (rest : List PendBind), InLife s ch →
    s.mtxPresent ch = true → (s.chan ch).mtx.binds = b :: rest → b.shards = sh :: more →
    Changes (.factorUnitComplete ch none) s ch fun c d =>
      d.mtx.binds = (if more = [] then rest else { b with shards := more } :: rest)
      ∧ d.reg 0x600044 = satAdd (c.reg 0x600044) 1 ∧ d.mtx.descs = c.mtx.descs ∧ d.col = c.col
      ∧ (more ≠ [] → d.fab = c.fab ∧ d.evr = c.evr) ∧ Kept [.mtx, .codec, .regs, .fab, .mem, .evr] c d

/-! ### Scheduling -/

/-- SYSTEM_FIFO_ROOM: the TU that waits at the head of the sequencer's output enters the system FIFO once it holds fewer than 64 (R265). -/
def Sys2Proof.Safety.FifoServes (s : State) (ch : Fin 8) : Prop :=
  ((s.chan ch).sch.sysFifo.length = 64 → Changes (.systemFifoRoom ch) s ch fun c d => d = c)
  ∧ ∀ (t : Tu) (rest : List Tu), (s.chan ch).sch.stalled = t :: rest → (s.chan ch).sch.sysFifo.length < 64 →
    Changes (.systemFifoRoom ch) s ch fun c d => d = { c with sch := { c.sch with sysFifo := c.sch.sysFifo ++ [t], stalled := rest } }

/-- A 1 µs tick refills the class buckets up to their bursts (R268). SCHEDULER_SELECT: nothing is selected while the line is not UP (R274);
a system TU goes first of an open TC0 (R265, R274); of a class's flows the eligible one with the smallest tag goes, ties to the lower
slot, and its objects leave in the order they came (R264, R271); a TC3 TU that is open moves on by one boundary, or is suspended there
by a TU of TC0 or TC1 (R277); a TU that the retransmission store cannot take stays (R126). SYSTEM_FIFO_ROOM and TU_ENCRYPT: a first send
takes the next TSEQ, stands in the store, and frees its buffers (R326, R331, R399); while every pipeline is busy a TC0 or TC1 TU suspends
an open TC3 one, which is counted, and any other waits (R400). Whether every pipeline is busy is an operand (log entry 168). -/
def Obligations.SelectionsAndEncryption : Prop :=
  (∀ (s : State) (ch : Fin 8), InPath s ch → Changes (.tick1us (some ch)) s ch fun c d => ∀ k : Nat, k < 4 →
    lget 0 d.sch.classB k = min ((c.clsBurst k * 32768 : Nat) : Int) (lget 0 c.sch.classB k + (c.sch.rline * 1000 * c.clsPeak k / 256 : Nat))
    ∧ d.sch.tickRline = c.sch.rline)
  ∧ (∀ (s : State) (ch : Fin 8), InPath s ch → FifoServes s ch)
  ∧ (∀ (s : State) (ch : Fin 8) (parity : Bool), InPath s ch → (s.chan ch).line.state ≠ .up → (s.chan ch).sch.open3 = none →
    Changes (.schedulerSelect ch parity) s ch fun c d => d = c)
  ∧ (∀ (s : State) (ch : Fin 8) (t : Tu) (rest : List Tu), InPath s ch → (s.chan ch).line.state = .up → (s.chan ch).mayEncrypt = true →
    (s.chan ch).sch.open3 = none → (s.chan ch).clsOpen 0 = true → (s.chan ch).sch.sysFifo = t :: rest →
    ((s.chan ch).rtxBlocked (16 + tuLen t) = false → Changes (.schedulerSelect ch false) s ch fun c d =>
      d.sch.toCipher = c.sch.toCipher ++ [{ tu := some t, susp := none }] ∧ d.sch.sysFifo = rest ∧ d.sch.flows = c.sch.flows
      ∧ d.sch.classB = c.sch.classB.set 0 (lget 0 c.sch.classB 0 - 8 * (t.bytes : Int))
      ∧ d.reg 0x700040 = satAdd (c.reg 0x700040) 1 ∧ Kept [.sch, .regs, .line] c d)
    ∧ ((s.chan ch).rtxBlocked (16 + tuLen t) = true → Changes (.schedulerSelect ch false) s ch fun c d =>
      d.sch = c.sch ∧ d.line = { c.line with rtxFull := true, rtxNeed := 16 + tuLen t } ∧ d.regs = c.regs
      ∧ d.evr.input = (if c.line.rtxFull then c.evr.input else c.evr.input ++ [{ ev := .memRtxFull }]) ∧ Kept [.line, .evr] c d))
  ∧ (∀ (s : State) (ch : Fin 8) (k cls : Nat), InPath s ch → (s.chan ch).sch.open3 = none → (s.chan ch).pick 4 = some (.flow k cls) →
    let c := s.chan ch
    k < 16 ∧ cls < 4 ∧ c.eligible k cls = true ∧ c.clsOpen cls = true
    ∧ (∀ j : Nat, j < 16 → c.eligible j cls = true → (c.flow k cls).tag ≤ (c.flow j cls).tag
        ∧ ((c.flow j cls).tag = (c.flow k cls).tag → k ≤ j))
    ∧ (c.rtxBlocked (16 + 12 + (tuBody cls (nextObjs cls (c.flow k cls).objs)).length) = false →
      Changes (.schedulerSelect ch false) s ch fun c d =>
        (∃ t : Tu, d.sch.toCipher = c.sch.toCipher ++ [{ tu := some t, susp := none }] ∧ t.tc = cls ∧ t.slot = k ∧ t.sys = false
          ∧ t.body = tuBody cls (nextObjs cls (c.flow k cls).objs))
        ∧ nextObjs cls (c.flow k cls).objs ++ (d.flow k cls).objs = (c.flow k cls).objs
        ∧ (∀ j l : Nat, 4 * j + l ≠ 4 * k + cls → d.flow j l = c.flow j l)
        ∧ d.reg 0x700040 = satAdd (c.reg 0x700040) 1 ∧ Kept [.sch, .regs, .line] c d))
  ∧ (∀ (s : State) (ch : Fin 8) (k cls : Nat) (o : LineObj) (rest : List LineObj) (b : Buf), InPath s ch → (s.chan ch).sch.open3 = none →
    (s.chan ch).pick 4 = some (.flow k cls) → (s.chan ch).storeFull (.flow k cls) = false → ((s.chan ch).flow k cls).objs = o :: rest →
    o.buf = some b → b.pool < 4 →
    Changes (.schedulerSelect ch true) s ch fun c d =>
      (d.flow k cls).objs = rest ∧ Withdrawn b c d ∧ d.sch.toCipher = c.sch.toCipher ∧ CtxsKept c d
      ∧ Kept [.sch, .mem, .line, .col, .regs, .evr] c d)
  ∧ (∀ (s : State) (ch : Fin 8) (o : Open3) (parity : Bool), InPath s ch → (s.chan ch).sch.open3 = some o → (s.chan ch).pick 2 = none →
    Changes (.schedulerSelect ch parity) s ch fun c d =>
      d = { c with sch := { c.sch with
              open3 := if o.at_ + 1 < o.sections then some { o with at_ := o.at_ + 1, suspended := false } else none } })
  ∧ (∀ (s : State) (ch : Fin 8) (o : Open3) (t : Tu) (rest : List Tu), InPath s ch → (s.chan ch).sch.open3 = some o →
    (s.chan ch).pick 2 = some .sys → (s.chan ch).sch.sysFifo = t :: rest →
    ((s.chan ch).rtxBlocked (16 + tuLen t) = false → Changes (.schedulerSelect ch false) s ch fun c d =>
      d.sch.open3 = some { o with suspended := true } ∧ d.sch.toCipher = c.sch.toCipher ++ [{ tu := some t, susp := some o.at_ }]
      ∧ d.sch.sysFifo = rest ∧ d.reg 0x700048 = (if o.suspended then c.reg 0x700048 else satAdd (c.reg 0x700048) 1)
      ∧ Kept [.sch, .regs, .evr, .line] c d)
    ∧ ((s.chan ch).rtxBlocked (16 + tuLen t) = true → Changes (.schedulerSelect ch false) s ch fun c d =>
      d.sch = { c.sch with open3 := if o.at_ + 1 < o.sections then some { o with at_ := o.at_ + 1, suspended := false } else none }
      ∧ Kept [.sch, .evr, .line] c d))
  ∧ (∀ (s : State) (ch : Fin 8) (busy : Bool) (x : Selected) (rest : List Selected) (t : Tu) (ep : Epoch), InPath s ch →
    (s.chan ch).mayEncrypt = true → (s.chan ch).sch.toCipher = x :: rest → x.tu = some t → (s.chan ch).sec.cur = some ep →
    (busy = false ∨ (t.tc < 2 ∧ (s.chan ch).line.elem3 ≠ none) → Changes (.tuEncrypt ch busy) s ch fun c d =>
      d.sch.toCipher = rest ∧ d.line.tseq = (c.line.tseq + 1) % tsMod ∧ d.sec.txBytes = c.sec.txBytes + tuLen t
      ∧ (∃ r ∈ d.line.rtx, r.first = c.line.tseq ∧ r.latest = c.line.tseq ∧ r.kepoch = ep.num ∧ r.tu = { t with buf := [] }
          ∧ r.sentUs = c.line.upUs ∧ r.size = 16 + tuLen t)
      ∧ (∀ b ∈ t.buf, b.pool < 4 → cget? (d.pool b.pool).bufs b.idx = none)
      ∧ (∀ a : Nat, d.reg a = if busy ∧ a = 0xA000A0 then satAdd (c.reg a) 1 else c.reg a)
      ∧ CtxsKept c d ∧ Kept [.sch, .line, .sec, .mem, .col, .regs] c d)
    ∧ (2 ≤ t.tc ∨ (s.chan ch).line.elem3 = none → Changes (.tuEncrypt ch true) s ch fun c d => d = c))

/-! ### The line -/

/-- A sealed message on a tributary is accepted: the key it names is held, its tag is sound, and its MSEQ is not below the next one expected
(R385). -/
def Sys2Proof.Safety.Opens (c : Chan) (trib : Nat) (h : SealHdr) : Prop :=
  secHolds c.sec h = true ∧ h.tagOk = true ∧ cget 0 c.sec.mseqRx (mseqKey h.ksel.toNat h.kepoch.toNat trib) ≤ h.mseq.toNat

/-- No lane's receiver but `l`'s has changed. -/
def Sys2Proof.Safety.OtherLanesKept (l : Nat) (c d : Chan) : Prop := ∀ j : Nat, j ≠ l → vget d.line.lanes j = vget c.line.lanes j

/-- Relay signalling of the channel's own receive direction goes out, with the peer's SITE where it begins now (R313). -/
def Sys2Proof.Safety.Indicates (c d : Chan) : Prop :=
  (∃ x ∈ d.line.aisTx, x.1 = 0) ∧ ((∀ x ∈ c.line.aisTx, x.1 ≠ 0) → (0, c.cfg.peerSite) ∈ d.line.aisTx)

/-- No map change of the receive side waits for a superframe boundary. -/
def Sys2Proof.Safety.RxQuiet (c : Chan) : Prop :=
  (∀ o ∈ c.opt.rxOps, ∀ t : Instant, o.stage ≠ .due t) ∧ ∀ m : MapArmed, c.opt.rxPend = some m → m.due = false

/-- Lane alignment and line states: a FAS match takes a lane in HUNT to PRESYNC and, the sealed number of times, to SYNC; misses or loss of
light take it back (R304–R306); after each lane unit the receiver is out of frame exactly where its lanes are not aligned (R307); a unit with
the complemented pattern makes its lane a test lane, and does not reach the framer (R356); the first of an OOK pair's two halves waits for
the other (R304; log entry 165). LOS, LOF_SET and LOF_CLR move the receive direction (R308), and leaving UP stalls every occupied slot
(R310, R473). Which lane a decoded LID names is read as in log entry 42. -/
def Obligations.LanesAndLineStates : Prop :=
  (∀ (s : State) (ch : Fin 8) (phys : Fin 36) (fasRaw : BitVec 48) (lid mfas : BitVec 8) (skew : BitVec 16) (l : Nat), InLife s ch →
    (s.chan ch).lineRuns = true → fasFits fasRaw (~~~ BitVec.ofNat 48 fas) = false →
    ((s.chan ch).line.state ≠ .downLof ∧ logicalOf (s.chan ch).opt.rxMap phys = some l)
      ∨ ((s.chan ch).line.state = .downLof ∧ l = lid.toNat / 8 ∧ phys.val ∈ entLanes (vget (s.chan ch).opt.rxMap l)) →
    ((vget (s.chan ch).opt.rxMap l).pair = 0x3F → (vget (s.chan ch).line.lanes l).dark = false →
    Changes (.laneUnitReceive ch phys fasRaw lid mfas skew) s ch fun c d =>
      let x := vget c.line.lanes l
      let y := vget d.line.lanes l
      let fit := popcount (fasRaw ^^^ BitVec.ofNat 48 fas) 48 ≤ 6
      let mine := lid.toNat / 8 = l
      let n := fld (c.reg 0x800008) 31 28
      let m := fld (c.reg 0x800008) 27 24
      l < 32 ∧ y.mfas = mfas ∧ y.skewNs = skew.toNat ∧ y.dark = false ∧ OtherLanesKept l c d
      ∧ (x.align = .hunt → y.align = if fit then .presync else .hunt)
      ∧ (x.align = .presync → y.align = if fit then (if n ≤ x.good + 1 then .sync else .presync) else .hunt)
      ∧ (x.align = .sync → fit → mine → y.align = .sync ∧ y.bad = 0)
      ∧ (x.align = .sync → ¬(fit ∧ mine) → y.align = (if m ≤ x.bad + 1 then .hunt else .sync))
      ∧ (x.align = .sync → ¬mine → d.reg 0x800140 = satAdd (c.reg 0x800140) 1)
      ∧ (d.line.oof = !d.aligned mfas) ∧ d.line.state = c.line.state
      ∧ (RxQuiet c ∨ mfas ≠ 0 → Kept [.line, .opt, .time, .boot, .regs, .evr] c d))
    ∧ ((vget (s.chan ch).opt.rxMap l).pair ≠ 0x3F → (vget (s.chan ch).line.lanes l).half = none →
      Changes (.laneUnitReceive ch phys fasRaw lid mfas skew) s ch fun c d =>
        vget d.line.lanes l = { (vget c.line.lanes l) with
          half := some (decide (phys.val = (vget c.opt.rxMap l).phys.toNat), fasRaw.setWidth 24) }
        ∧ OtherLanesKept l c d ∧ d.line.oof = c.line.oof ∧ d.regs = c.regs ∧ Kept [.line, .opt, .boot] c d))
  ∧ (∀ (s : State) (ch : Fin 8) (phys : Fin 36) (fasRaw : BitVec 48) (lid mfas : BitVec 8) (skew : BitVec 16), InLife s ch →
    (s.chan ch).lineRuns = true → fasFits fasRaw (~~~ BitVec.ofNat 48 fas) = true → logicalOf (s.chan ch).opt.rxMap phys = none →
    Changes (.laneUnitReceive ch phys fasRaw lid mfas skew) s ch fun c d =>
      (vget d.opt.rx phys.val).test = true ∧ d.line = c.line ∧ Kept [.opt, .boot] c d)
  ∧ (∀ (s : State) (ch : Fin 8) (l : Fin 32), InLife s ch →
    Changes (.lossOfLight ch l) s ch (fun c d =>
      (vget d.line.lanes l).align = .hunt ∧ (vget d.line.lanes l).dark = true ∧ d.line.oof = true ∧ OtherLanesKept l c d
      ∧ d.line.state = c.line.state ∧ Kept [.line, .regs, .evr] c d)
    ∧ Changes (.lightReturn ch l) s ch (fun c d =>
      (vget d.line.lanes l).dark = false ∧ (vget d.line.lanes l).align = (vget c.line.lanes l).align ∧ OtherLanesKept l c d
      ∧ (c.line.state ≠ .downLos → d.line.state = c.line.state ∧ Kept [.line] c d)
      ∧ (c.line.state = .downLos → d.line.state = if d.los then .downLos else .downLof)))
  ∧ (∀ (s : State) (ch : Fin 8), InLife s ch →
    ((s.chan ch).los = false ∨ (s.chan ch).line.state = .downLos → Changes (.losDetect ch) s ch fun c d => d = c)
    ∧ ((s.chan ch).los = true → (s.chan ch).line.state ≠ .downLos → Changes (.losDetect ch) s ch fun c d =>
      d.line.state = .downLos ∧ d.reg 0x800108 = satAdd (c.reg 0x800108) 1 ∧ ({ ev := .lineLos } : Raised) ∈ d.evr.input
      ∧ Indicates c d ∧ d.line.lanes = c.line.lanes
      ∧ (c.line.state = .up → ({ ev := .lineDown } : Raised) ∈ d.evr.input
          ∧ ∀ k : Nat, k < 16 → (c.slot k).mode ≠ .free → (d.slot k).stall = true)
      ∧ d.sec.cur = c.sec.cur ∧ d.cfg = c.cfg ∧ MemoryKept c d))
  ∧ (∀ (s : State) (ch : Fin 8), InLife s ch → (s.chan ch).line.state = .downLof → (s.chan ch).line.oof = false →
    (s.chan ch).line.inUs + 10 * fld ((s.chan ch).reg 0x800008) 11 0 < (s.chan ch).us →
    Changes (.lofClrExpire ch) s ch fun c d =>
      d.line.state = .rxUp ∧ d.line.capSentMs = c.ms ∧ d.line.capDue = false ∧ (∀ x ∈ d.line.aisTx, x.1 ≠ 0)
      ∧ Kept [.line, .sec, .fab, .mem, .regs, .evr] c d)
  ∧ ∀ (s : State) (ch : Fin 8), InLife s ch → (s.chan ch).line.state = .rxUp ∨ (s.chan ch).line.state = .up → (s.chan ch).line.oof = true →
    (s.chan ch).line.oofUs + 10 * fld ((s.chan ch).reg 0x800008) 23 12 < (s.chan ch).us →
    Changes (.lofSetExpire ch) s ch fun c d =>
      d.line.state = .downLof ∧ d.reg 0x800104 = satAdd (c.reg 0x800104) 1 ∧ ({ ev := .lineLof } : Raised) ∈ d.evr.input
      ∧ Indicates c d ∧ d.sec.cur = c.sec.cur ∧ d.cfg = c.cfg ∧ MemoryKept c d

/-- FRAME_SEND sends the next frame of the superframe, whatever the line's state, but none below Active (R293, R297, R542); up to six NAK
ranges and one GONE range go in it, and the stream waits while the line is not UP (R310, R323). FRAME_DECODE takes nothing out of frame;
a frame joins the decoding window of eight blocks, and the oldest leaves it (R302); one whose parity fails then is counted and
resynchronises (R303, R324); a sound one brings MFAS, RACK and SLOT_MODE, and eight frames with BDI clear, or set, bring the line up, or
down (R308). CAP follows a change of LINE_NET, and sets R_line at the receiver (R35, R267, R320). Relay signalling is taken only from a
sealed upstream coordinate, an AIS TU leaves once a superframe while the line is UP, and a channel whose receive direction is down signals
it every 1 ms (R313–R316). What a reserved STATE of LINE_AIS does is the model's (log entry 161), and so is what the decoder makes of a
block that fails (log entry 43); the MFAS shown is that of the last sound frame (log entry 41). -/
def Obligations.FramesAndRelaySignalling : Prop :=
  (∀ (s : State) (ch : Fin 8), InLife s ch →
    ((s.chan ch).boot.pst ≠ 0 → Changes (.frameSend ch) s ch fun c d => d = c)
    ∧ ((s.chan ch).boot.pst = 0 → (s.chan ch).lineRuns = true → Changes (.frameSend ch) s ch fun c d =>
      d.line.mfasTx = c.line.mfasTx + 1 ∧ d.line.txFrames = c.line.txFrames + 1 ∧ d.line.lastTx.length = 32 ∧ d.line.txUnits.length = 32
      ∧ d.line.txPhys.length = 36 ∧ (c.opt.laserOn = false → ∀ p ∈ d.line.txPhys, p = .dark)
      ∧ d.line.naks = c.line.naks.drop 6 ∧ d.line.gone = c.line.gone.drop 1 ∧ d.line.state = c.line.state
      ∧ d.reg 0x800120 = satAdd (c.reg 0x800120) (min 6 c.line.naks.length)
      ∧ (c.line.state ≠ .up → d.line.stream = c.line.stream ∧ d.line.ended = c.line.ended)
      ∧ d.line.rtx = c.line.rtx ∧ d.line.tseq = c.line.tseq ∧ d.line.holes = c.line.holes
      ∧ Kept [.line, .opt, .time, .sec, .sch, .boot, .regs] c d))
  ∧ (∀ (s : State) (ch : Fin 8) (b : BlockIn), InLife s ch → (s.chan ch).lineRuns = true →
    let c := s.chan ch
    let new := (rxBlockOf b.raw).1
    (c.line.oof = true → Changes (.frameDecode ch b) s ch fun c d => d = c)
    ∧ (c.line.oof = false → c.line.window.length < 8 → Changes (.frameDecode ch b) s ch fun c d =>
      d.line.window = c.line.window ++ [new] ∧ d.line.state = c.line.state ∧ d.line.mfasRx = c.line.mfasRx ∧ d.line.rxq = c.line.rxq
      ∧ d.line.bdiRun = c.line.bdiRun ∧ Kept [.line, .regs] c d)
    ∧ ∀ (o : RxBlock) (rest : List RxBlock), c.line.oof = false → c.line.window = o :: rest → rest.length = 7 →
      let prev := c.line.lastRx.getD zeroBlock
      let x := decodeOldest prev o (rest ++ [new])
      let plain := x.lanes.zipIdx.map fun (p : List Byte × Nat) => scramble p.2 p.1
      let coh := cohOf (plain.flatMap fun l => (l.drop 10).take 6)
      (staircaseOk prev o.lanes o.parity = true → x = o)
      ∧ (staircaseOk prev x.lanes x.parity = false → Changes (.frameDecode ch b) s ch fun c d =>
        d.line.window = rest ++ [new]
        ∧ d.reg 0x80010C = satAdd (c.reg 0x80010C) 1 ∧ ({ ev := .lineUncorr } : Raised) ∈ d.evr.input ∧ d.line.bipRx = none
        ∧ d.line.parser = { skip := true } ∧ d.line.state = c.line.state ∧ d.line.mfasRx = c.line.mfasRx ∧ d.line.rxq = c.line.rxq
        ∧ Kept [.line, .regs, .evr] c d)
      ∧ (staircaseOk prev x.lanes x.parity = true → Changes (.frameDecode ch b) s ch fun c d =>
        d.line.window = rest ++ [new] ∧ d.line.mfasRx = lget 0 (lget [] plain 0) 7 ∧ d.line.peerRack = coh.rack
        ∧ d.line.peerModes = coh.modes ∧ d.line.lastRx = some x.lanes
        ∧ (c.boot.phase ≠ 8 → c.line.state = .rxUp → c.line.bdiRun = 7 → coh.bdi = false → d.line.state = .up)
        ∧ (c.boot.phase ≠ 8 → c.line.state = .up → c.line.bdiRun = 7 → coh.bdi = true → d.line.state = .rxUp)
        ∧ (c.boot.phase ≠ 8 → c.line.bdiRun < 7 → d.line.state = c.line.state)))
  ∧ (∀ (s : State) (ch : Fin 8) (h : SealHdr) (net : BitVec 16), InPath s ch →
    (Opens (s.chan ch) 4 h → Changes (.cap ch h net) s ch fun c d =>
      d.sch.peerNet = net.toNat ∧ d.sch.rline = min (fld (c.reg 0x44) 31 20) net.toNat ∧ d.sch.flows = c.sch.flows ∧ d.regs = c.regs
      ∧ cget 0 d.sec.mseqRx (mseqKey h.ksel.toNat h.kepoch.toNat 4) = h.mseq.toNat + 1 ∧ Kept [.sch, .sec, .line, .evr] c d)
    ∧ (¬Opens (s.chan ch) 4 h → Changes (.cap ch h net) s ch fun c d =>
      d.sch = c.sch ∧ d.sec = c.sec ∧ d.reg 0xA00088 = satAdd (c.reg 0xA00088) 1 ∧ Kept [.line, .regs, .evr] c d))
  ∧ (∀ (s : State) (ch : Fin 8) (e : Epoch), InLife s ch → (s.chan ch).line.capDue = true → (s.chan ch).sec.cur = some e →
    Changes (.capSendPeriodic ch) s ch fun c d =>
      d.line.capDue = false ∧ d.line.capSentMs = c.ms ∧ (vget d.line.tribs 4).tx.length = (vget c.line.tribs 4).tx.length + 1
      ∧ Kept [.line, .sec] c d)
  ∧ (∀ (s : State) (ch : Fin 8) (src : Coord) (site state : BitVec 8), InPath s ch → (s.chan ch).hubLost = false →
    ((∀ j : Nat, j < 4 → (s.chan ch).legCoord 0x800020 j ≠ some src) → Changes (.lineAis ch src site state) s ch fun c d =>
      d.reg 0x800144 = satAdd (c.reg 0x800144) 1 ∧ d.line.legs = c.line.legs ∧ d.viols.length = c.viols.length + 1
      ∧ Kept [.ctrl, .regs, .evr, .viols] c d)
    ∧ ∀ j : Nat, j < 4 → (s.chan ch).legCoord 0x800020 j = some src →
      (∀ i : Nat, i < j → (s.chan ch).legCoord 0x800020 i ≠ some src) →
      (state = 0 ∨ state = 1 → Changes (.lineAis ch src site state) s ch fun c d =>
        (vget d.line.legs j).inAis = decide (state = 1) ∧ (vget d.line.legs j).site = site
        ∧ (state = 1 → (vget d.line.legs j).lastUs = c.us) ∧ Kept [.ctrl, .line] c d)
      ∧ (1 < state.toNat → Changes (.lineAis ch src site state) s ch fun c d => d.line = c.line ∧ Kept [.ctrl] c d))
  ∧ (∀ (s : State) (ch : Fin 8) (j : Fin 4), InPath s ch → (vget (s.chan ch).line.legs j).inAis = true →
    ((vget (s.chan ch).line.legs j).lastUs + 10000 < (s.chan ch).us → Changes (.aisLegTimeout ch j) s ch fun c d =>
      (vget d.line.legs j).inAis = false ∧ (vget d.line.legs j).site = (vget c.line.legs j).site ∧ Kept [.line] c d)
    ∧ ((s.chan ch).line.state = .up → (s.chan ch).mayEncrypt = true →
      (vget (s.chan ch).line.legs j).tuSuper ≠ some (s.chan ch).line.txSuper → (s.chan ch).sch.stalled = [] → (s.chan ch).sch.sysFifo.length < 64 →
      Changes (.aisTuSend ch j) s ch fun c d => ∃ t : Tu, d.sch = { c.sch with sysFifo := c.sch.sysFifo ++ [t] }
        ∧ t.sys = true ∧ t.tc = 0 ∧ t.slot = j ∧ t.body = List.replicate 52 0xFF
        ∧ d.line = { c.line with legs := vset c.line.legs j { (vget c.line.legs j) with tuSuper := some c.line.txSuper } } ∧ Kept [.sch, .line] c d)
    ∧ ((s.chan ch).line.state ≠ .up ∨ (vget (s.chan ch).line.legs j).tuSuper = some (s.chan ch).line.txSuper →
      Changes (.aisTuSend ch j) s ch fun c d => d = c))
  ∧ ∀ (s : State) (ch : Fin 8) (x : Coord) (port : Nat), InLife s ch → (s.chan ch).line.aisMs < (s.chan ch).ms →
    (s.chan ch).legCoord 0x800040 0 = some x →
    (∀ j : Nat, 0 < j → j < 4 → (s.chan ch).legCoord 0x800040 j = none) → (s.chan ch).freePort = some port → port < 4 →
    let sent (site : BitVec 8) (c d : Chan) : Prop := ∃ p : Packet, (d.port port).txq = (c.port port).txq ++ [p] ∧ p.kind = 1 ∧ p.dest = x
      ∧ p.src = c.cfg.coord ∧ p.payload = beBytes 2 0x0300 ++ beBytes 6 0 ++ [site, 1, 0, 0]
    (∀ site : BitVec 8, (s.chan ch).line.aisTx = [(0, site)] → Changes (.lineAisSend ch) s ch fun c d =>
      d.line = { c.line with aisMs := c.ms } ∧ sent site c d ∧ Kept [.line, .fab, .regs] c d)
    ∧ ((s.chan ch).line.aisTx = [] → (s.chan ch).line.state = .downLos ∨ (s.chan ch).line.state = .downLof →
      Changes (.lineAisSend ch) s ch fun c d =>
        d.line = { c.line with aisMs := c.ms, aisTx := [(0, c.cfg.peerSite)] } ∧ sent c.cfg.peerSite c d ∧ Kept [.line, .fab, .regs, .evr] c d)

/-- Selective repeat: TU_RECEIVE discards an element of an epoch not held, or with a bad tag, and counts it (R390, R394); a TU that fills a hole, or comes next,
waits for its turn in a buffer (R326, R327, R329); a duplicate is counted and leaves nothing (R326). TU_DELIVER hands on the first TU
whose turn has come (R327, R622); where its buffer mismatches, the buffer is withdrawn and the TU is gone (R110). NAK_REPORT_TIMER reports due holes again, up to NAK_MAX times, and HOLE_WINDOW_EXPIRE resolves holes older
than RTX_WIN (R330). -/
def Obligations.SelectiveRepeat : Prop :=
  (∀ (s : State) (ch : Fin 8) (e : Element) (rest : List Element), InPath s ch → (s.chan ch).line.rxq = e :: rest →
    let c := s.chan ch
    (c.epochKey e.kepoch = none → Changes (.tuReceive ch) s ch fun c d =>
      d.line.rxq = rest ∧ d.reg 0xA00084 = satAdd (c.reg 0xA00084) 1 ∧ d.line.waiting = c.line.waiting ∧ d.line.highest = c.line.highest
      ∧ d.sec = c.sec ∧ Kept [.line, .regs, .evr] c d)
    ∧ ∀ k : EpochKeys, c.epochKey e.kepoch = some k →
      (c.openTu k e = none → Changes (.tuReceive ch) s ch fun c d =>
        d.line.rxq = rest ∧ d.reg 0xA00080 = satAdd (c.reg 0xA00080) 1 ∧ d.line.waiting = c.line.waiting ∧ d.line.highest = c.line.highest
        ∧ d.sec = c.sec ∧ Kept [.line, .regs, .evr] c d)
      ∧ ∀ body : List Byte, c.openTu k e = some body → c.line.awaited = [] → e.rsnd = false →
        (c.openSeq e.tseq = false → tsAfter e.tseq c.line.highest = false → Changes (.tuReceive ch) s ch fun c d =>
          d.line.rxq = rest ∧ d.reg 0x800138 = satAdd (c.reg 0x800138) 1 ∧ d.line.waiting = c.line.waiting
          ∧ d.line.highest = c.line.highest ∧ d.sec.rxBytes = c.sec.rxBytes + e.len ∧ Kept [.line, .sec, .regs] c d)
        ∧ ∀ (own : Nat) (b : Buf), e.sys = false → c.ownSlot e.slot.toNat = some own → e.tc = 1 → (objectsOf body.length body).isSome = true →
          body.all (fun b => b = 0xFF) = false → c.spilling own 1 false = false → (c.alloc (.slot own) body.length).1 = some b →
          (∃ h ∈ c.line.holes, h.tseq = e.tseq) ∧ tsAfter e.tseq c.line.highest = false
            ∨ (e.tseq = (c.line.highest + 1) % tsMod ∧ c.line.highest < tsMod ∧ ∀ h ∈ c.line.holes, h.tseq ≠ e.tseq) →
          Changes (.tuReceive ch) s ch fun c d =>
            (∃ t : RxTu, d.line.waiting = c.line.waiting ++ [t] ∧ t.first = e.tseq ∧ t.tseq = e.tseq ∧ t.prev = e.prev ∧ t.tc = 1 ∧ t.slot = own
              ∧ t.sys = false ∧ t.body = body ∧ t.buf = some b)
            ∧ d.line.rxq = rest ∧ (∀ h ∈ d.line.holes, h.tseq ≠ e.tseq) ∧ d.sec.rxBytes = c.sec.rxBytes + e.len
            ∧ cget? (d.pool b.pool).bufs b.idx = some (.slot own) ∧ Kept [.line, .sec, .mem] c d)
  ∧ (∀ (s : State) (ch : Fin 8) (parity : Bool), InPath s ch → (s.chan ch).line.waiting.find? (s.chan ch).ready = none →
    Changes (.tuDeliver ch parity) s ch fun c d => d = c)
  ∧ (∀ (s : State) (ch : Fin 8) (t : RxTu), InPath s ch → (s.chan ch).line.waiting.find? (s.chan ch).ready = some t →
    (∀ bs : List Byte, t.sys = true → objectsOf t.body.length t.body = some [(3, bs)] → Changes (.tuDeliver ch false) s ch fun c d =>
      d.ctrl = { c.ctrl with peerIn := c.ctrl.peerIn ++ [⟨0, bs, c.ctrl.arrived⟩], arrived := c.ctrl.arrived + 1 }
      ∧ d.line.waiting = eraseFirst (fun w => decide (w = t)) c.line.waiting ∧ d.regs = c.regs ∧ CtxsKept c d
      ∧ (∀ b : Buf, t.buf = some b → b.pool < 4 → cget? (d.pool b.pool).bufs b.idx = none) ∧ Kept [.ctrl, .line, .mem, .col] c d)
    ∧ (∀ b : Buf, t.buf = some b → b.pool < 4 → Changes (.tuDeliver ch true) s ch fun c d =>
      Withdrawn b c d ∧ d.line.waiting = eraseFirst (fun w => decide (w = t)) c.line.waiting ∧ CtxsKept c d
      ∧ Kept [.line, .mem, .col, .regs, .evr] c d)
    ∧ (t.sys = false → t.tc = 2 → t.slot < 16 → (s.chan ch).col.ctxs = [] → (s.chan ch).codec.expQ = [] → t.buf ≠ none →
      (s.chan ch).col.comms = [] → beAt t.body 0 1 = 1 → Changes (.tuDeliver ch false) s ch fun c d =>
        (∃ q : ColIn, d.col = { c.col with inq := c.col.inq ++ [q] } ∧ q.msg.slot.val = t.slot ∧ q.msg.line = true ∧ q.buf = t.buf
          ∧ q.msg.hdr = colHdrOf t.body ∧ q.first = t.first)
        ∧ d.line.waiting = eraseFirst (fun w => decide (w = t)) c.line.waiting ∧ Kept [.col, .line] c d))
  ∧ (∀ (s : State) (ch : Fin 8), InPath s ch → (s.chan ch).line.state ≠ .up → Changes (.nakReportTimer ch) s ch fun c d => d = c)
  ∧ (∀ (s : State) (ch : Fin 8), InPath s ch → (s.chan ch).line.state = .up → (s.chan ch).line.awaited = [] →
    ((s.chan ch).line.holes.map Hole.tseq).Nodup →
    Changes (.nakReportTimer ch) s ch fun c d =>
      (d.line.holes = c.line.holes.map fun h =>
        if h.lastUs + c.nakGap < c.line.upUs ∧ h.reports < c.nakMax then { h with lastUs := c.line.upUs, reports := h.reports + 1 } else h)
      ∧ ((∀ h ∈ c.line.holes, c.line.upUs ≤ h.lastUs + c.nakGap ∨ c.nakMax ≤ h.reports) → d.line.naks = c.line.naks)
      ∧ d.regs = c.regs ∧ Kept [.line] c d)
  ∧ ∀ (s : State) (ch : Fin 8), InPath s ch → ((s.chan ch).line.holes.map Hole.tseq).Nodup →
    Changes (.holeWindowExpire ch) s ch fun c d =>
      d.line.holes = c.line.holes.filter (fun h => decide (c.line.upUs ≤ h.foundUs + c.rtxWin))
      ∧ d.reg 0x800134 = satAdd (c.reg 0x800134) (c.line.holes.filter fun h => decide (h.foundUs + c.rtxWin < c.line.upUs)).length
      ∧ d.line.naks = c.line.naks ∧ Kept [.line, .regs, .evr] c d

/-! ### Optics -/

/-- A message went onto tributary `n`'s queue. -/
def Sys2Proof.Safety.Sent (n : Nat) (c d : Chan) : Prop := (vget d.line.tribs n).tx.length = (vget c.line.tribs n).tx.length + 1

/-- No receive lane but `p`, or no transmit lane but `p`, has changed. -/
def Sys2Proof.Safety.OtherRxKept (p : Nat) (c d : Chan) : Prop := ∀ q : Nat, q ≠ p → vget d.opt.rx q = vget c.opt.rx q
def Sys2Proof.Safety.OtherTxKept (p : Nat) (c d : Chan) : Prop := ∀ q : Nat, q ≠ p → vget d.opt.tx q = vget c.opt.tx q

/-- Margins, calibration and safety. MARGIN_ESTIMATE stores each measured lane's margin and counts the estimates below SPARE_TH (R348); a
third one in a row opens a spare-in onto the best SPARE lane (R362). A ring that hears a stronger neighbour, or not its own tone,
unlocks, steps away from the tone it heard, and seeks (R344); one whose trim is out of range seeks from its table (R352). A sample of the engine's temperature sets the rings' and the combs' set-points from their tables (R351); temperature, age and trim queue
calibration actions on trigger slot 5 (R353); an action outside the plan or above +4.0 dBm is refused and logged (R371). A safety trip and
LASER_EN_N take the light away and keep tuning and maps (R369, R370). The roundings of margins are the model's (log entry 25). -/
def Obligations.MarginsCalibrationAndSafety : Prop :=
  (∀ (s : State) (ch : Fin 8) (m : LaneMeas), InLife s ch →
    ((s.chan ch).due 4 = false → Changes (.marginEstimate ch [m]) s ch fun c d => d = c)
    ∧ ((s.chan ch).due 4 = true → m.phys.toNat < 36 → (vget (s.chan ch).opt.rx m.phys.toNat).st = .mapped → (s.chan ch).opt.rxOps = [] →
      (s.chan ch).opt.mt ≠ .running →
      ((s.chan ch).line.state ≠ .up ∨ ∀ q : Nat, q < 36 → (vget (s.chan ch).opt.rx q).low < 2) →
      Changes (.marginEstimate ch [m]) s ch fun c d =>
        let p := m.phys.toNat
        let l := vget c.opt.rx p
        let e := marginOf l.ook m
        vget d.opt.rx p = { l with margin := e, known := true, pwr := m.rxPwr.toInt, low := if e < c.spareTh then min 4 (l.low + 1) else 0 }
        ∧ vget d.opt.tx p = { (vget c.opt.tx p) with pwr := m.txPwr.toInt } ∧ OtherRxKept p c d ∧ OtherTxKept p c d
        ∧ d.opt.rxMap = c.opt.rxMap ∧ d.opt.txMap = c.opt.txMap ∧ d.opt.rxOps = [] ∧ d.opt.txOps = c.opt.txOps
        ∧ (vget d.time.slots 4).fired = true ∧ Kept [.opt, .time, .regs, .evr] c d)
    ∧ ∀ (l q : Nat) (r : List Nat) (e : Epoch), (s.chan ch).due 4 = true → m.phys.toNat < 36 → (s.chan ch).opt.rxOps = [] →
      (s.chan ch).opt.mt ≠ .running → (s.chan ch).line.state = .up → (s.chan ch).sec.cur = some e →
      let x := vget (s.chan ch).opt.rx m.phys.toNat
      x.st = .mapped → x.low = 2 → marginOf x.ook m < (s.chan ch).spareTh →
      (∀ k : Nat, k < 36 → k ≠ m.phys.toNat → (vget (s.chan ch).opt.rx k).low < 2) →
      logicalOf (s.chan ch).opt.rxMap m.phys.toNat = some l → (s.chan ch).spares x.tried = q :: r →
      (s.chan ch).spareTh + 20 ≤ (vget (s.chan ch).opt.rx q).margin →
      Changes (.marginEstimate ch [m]) s ch fun c d =>
        (∃ o : OptOp, d.opt.rxOps = [o] ∧ o.req = ⟨c.opt.nextOp, BitVec.ofNat 8 l, 1, BitVec.ofNat 8 q, 0xFF, 0⟩ ∧ o.stage = .requested
          ∧ o.burst = false ∧ o.startUs = c.us ∧ o.old = vget c.opt.rxMap l)
        ∧ d.opt.rxMap = c.opt.rxMap ∧ d.opt.txMap = c.opt.txMap ∧ Sent 4 c d ∧ Kept [.opt, .time, .line, .sec, .regs, .evr] c d)
  ∧ (∀ (s : State) (ch : Fin 8) (ob : RingObs), InLife s ch → ob.ring.toNat < 76 → (vget (s.chan ch).opt.rings ob.ring.toNat).locked = true →
    let k := ob.ring.toNat
    let r := vget (s.chan ch).opt.rings k
    let wrong := ob.below = true ∨ ob.own < ob.prev ∨ ob.own < ob.next
    (wrong → Changes (.wrongLockCheck ch [ob]) s ch fun c d =>
      (∃ away : Int, d.opt = { c.opt with rings := vset c.opt.rings k { r with locked := false, seeking := true, stepped := r.stepped + away } }
        ∧ (ob.own < ob.prev → ob.next ≤ ob.prev → away = 1) ∧ (ob.own < ob.next → ob.prev < ob.next → away = -1)
        ∧ (ob.prev ≤ ob.own → ob.next ≤ ob.own → away = 0))
      ∧ d.reg 0x90004C = satAdd (c.reg 0x90004C) 1 ∧ d.evr.input = c.evr.input ++ [{ ev := .optWrongLock, value := k, unit := k }]
      ∧ Kept [.opt, .regs, .evr] c d)
    ∧ (¬wrong → 256 ≤ ob.trim.natAbs → Changes (.wrongLockCheck ch [ob]) s ch fun c d =>
      d = { c with opt := { c.opt with rings := vset c.opt.rings k { r with locked := false, seeking := true, trim := 0 } } })
    ∧ (¬wrong → ob.trim.natAbs < 192 → Changes (.wrongLockCheck ch [ob]) s ch fun c d =>
      d = { c with opt := { c.opt with rings := vset c.opt.rings k { r with trim := ob.trim } } })
    ∧ (¬wrong → 192 ≤ ob.trim.natAbs → ob.trim.natAbs < 256 → r.trim.natAbs < 192 → Changes (.wrongLockCheck ch [ob]) s ch fun c d =>
      d.opt.rings = vset c.opt.rings k { r with trim := ob.trim } ∧ 100 + k ∈ d.opt.calQ ∧ (vget d.time.slots 5).armed = true
      ∧ Kept [.opt, .time] c d))
  ∧ (∀ (s : State) (ch : Fin 8) (k : Fin 76), InLife s ch → (s.chan ch).opt.txOps = [] →
    Changes (.ringLocked ch k) s ch fun c d =>
      d = { c with opt := { c.opt with rings := vset c.opt.rings k { (vget c.opt.rings k) with locked := true, seeking := false, stepped := 0 } } })
  ∧ (∀ (s : State) (ch : Fin 8) (t : Int), InLife s ch →
    Changes (.engineTempSample ch t) s ch fun c d =>
      d.opt.temp = t ∧ d.opt.setPts = c.opt.combTables.map (fun x => ringTarget x t) ∧ d.opt.rings = c.opt.rings.map (fun r => { r with target := ringTarget r.codes t })
      ∧ d.opt.recalTemp = (if (t - c.opt.recalTemp).natAbs < 100 then c.opt.recalTemp else t)
      ∧ ((t - c.opt.recalTemp).natAbs < 100 → Kept [.opt] c d ∧ d.opt.calQ = c.opt.calQ)
      ∧ (100 ≤ (t - c.opt.recalTemp).natAbs → 1 ∈ d.opt.calQ ∧ (vget d.time.slots 5).armed = true)
      ∧ d.opt.rx = c.opt.rx ∧ d.opt.tx = c.opt.tx ∧ Kept [.opt, .time] c d)
  ∧ (∀ (s : State) (ch : Fin 8), InLife s ch →
    let due := (s.chan ch).opt.fullRecalMs + fld ((s.chan ch).reg 0x900004) 7 3 * 3600000 ≤ (s.chan ch).ms
    (¬due → Changes (.recalTimer ch) s ch fun c d => d = c)
    ∧ (due → Changes (.recalTimer ch) s ch fun c d => 2 ∈ d.opt.calQ ∧ (vget d.time.slots 5).armed = true
        ∧ d.opt.rings = c.opt.rings ∧ d.opt.rx = c.opt.rx ∧ Kept [.opt, .time] c d))
  ∧ (∀ (s : State) (ch : Fin 8), InLife s ch → (s.chan ch).due 5 = true →
    (∀ (p : BitVec 6) (w : BitVec 10), (s.chan ch).hubLost = false → (s.chan ch).allowed p.toNat = false ∨ 40 < w.toInt →
      Changes (.calibrationAction ch (some (p, w))) s ch fun c d =>
        d.opt = c.opt ∧ d.reg 0x900064 = satAdd (c.reg 0x900064) 1
        ∧ (∃ v : Viol, d.viols = c.viols ++ [v] ∧ v.source = .trigger ∧ v.kind = .outsidePlan ∧ v.addr = 5)
        ∧ ({ ev := .optPlanBlock, plane := .management, value := 5 } : Raised) ∈ d.evr.input ∧ Kept [.time, .regs, .evr, .viols] c d)
    ∧ (∀ (p : BitVec 6) (w : BitVec 10), (s.chan ch).allowed p.toNat = true → w.toInt ≤ 40 → (vget (s.chan ch).opt.tx p.toNat).st ≠ .mapped →
      Changes (.calibrationAction ch (some (p, w))) s ch fun c d =>
        d.opt = { c.opt with tx := vset c.opt.tx p.toNat { (vget c.opt.tx p.toNat) with st := .shadow } } ∧ Kept [.time, .opt] c d)
    ∧ ∀ a : Nat, (s.chan ch).opt.calQ = [a] → Changes (.calibrationAction ch none) s ch fun c d =>
      d.opt.calQ = [] ∧ d.reg 0x900050 = satAdd (c.reg 0x900050) 1
      ∧ ({ ev := .optRecal, plane := .management, value := a } : Raised) ∈ d.evr.input
      ∧ (∀ k : Nat, k < 76 → (a < 100 ∨ k = a - 100) → (vget d.opt.rings k).trim = 0)
      ∧ (∀ k : Nat, k < 76 → 100 ≤ a → k ≠ a - 100 → vget d.opt.rings k = vget c.opt.rings k)
      ∧ d.opt.fullRecalMs = (if a = 2 then c.ms else c.opt.fullRecalMs) ∧ d.opt.rxMap = c.opt.rxMap ∧ d.opt.txMap = c.opt.txMap)
  ∧ (∀ (s : State) (ch : Fin 8) (h : SealHdr) (ms : List Byte), InLife s ch → ms.length = 36 → Opens (s.chan ch) 4 h →
    Changes (.margin ch h ms) s ch fun c d =>
      (∀ p : Nat, p < 36 → vget d.opt.tx p = { (vget c.opt.tx p) with
        peer := if lget 0 ms p = 0x80 then none else some (BitVec.toInt (lget 0 ms p)) })
      ∧ d.opt.rx = c.opt.rx ∧ d.opt.txMap = c.opt.txMap ∧ Kept [.opt, .line, .sec] c d)
  ∧ (∀ (s : State) (ch : Fin 8) (e : Epoch), InLife s ch → (s.chan ch).sec.cur = some e →
    ((s.chan ch).ms < (s.chan ch).opt.marginMs + 1000 → Changes (.marginReportSend ch) s ch fun c d => d = c)
    ∧ ((s.chan ch).opt.marginMs + 1000 ≤ (s.chan ch).ms → Changes (.marginReportSend ch) s ch fun c d =>
        d.opt = { c.opt with marginMs := c.ms } ∧ Sent 4 c d ∧ Kept [.opt, .line, .sec] c d))
  ∧ (∀ (s : State) (ch : Fin 8), InLife s ch →
    Changes (.safetyTrip ch) s ch fun c d =>
      d.opt.safeTrip = true ∧ d.opt.laserOn = false ∧ d.opt.tlTx = false
      ∧ (∀ k : Nat, (vget d.opt.combs k).st ≠ .serving ∧ (vget d.opt.combs k).st ≠ .locked ∧ (vget d.opt.combs k).st ≠ .warming)
      ∧ d.opt.rings = c.opt.rings ∧ d.opt.rxMap = c.opt.rxMap ∧ d.opt.txMap = c.opt.txMap
      ∧ d.reg 0x900060 = satAdd (c.reg 0x900060) 1 ∧ ({ ev := .optSafetyTrip } : Raised) ∈ d.evr.input ∧ Kept [.opt, .regs, .evr] c d)
  ∧ ∀ (s : State) (high : Bool), ∃ t, exec (.laserEnNChange high) s = .next t ∧ t.hub.pwr.laserEnN = high ∧ t.pending = s.pending
    ∧ t.hub.regs = s.hub.regs ∧ ∀ n : Fin 8,
      (s.present n = false ∨ (s.chan n).boot.phase = 0 → t.chan n = s.chan n)
      ∧ (s.present n = true → (s.chan n).boot.phase ≠ 0 → high = true →
        (t.chan n).opt.laserOn = false ∧ (t.chan n).opt.rings = (s.chan n).opt.rings ∧ (t.chan n).opt.txMap = (s.chan n).opt.txMap
        ∧ (t.chan n).opt.rxMap = (s.chan n).opt.rxMap ∧ Kept [.opt, .evr] (s.chan n) (t.chan n))
      ∧ (InLife s n → 5 ≤ (s.chan n).boot.phase → (s.chan n).opt.safeTrip = false → high = false →
        (t.chan n).opt.laserOn = true ∧ (t.chan n).opt.rings = (s.chan n).opt.rings ∧ (t.chan n).opt.txMap = (s.chan n).opt.txMap
        ∧ (t.chan n).opt.rxMap = (s.chan n).opt.rxMap ∧ Kept [.opt] (s.chan n) (t.chan n))
      ∧ (s.present n = true → (s.chan n).boot.phase = 4 → high = false →
        (t.chan n).boot.phase = 5 ∧ (t.chan n).opt.mt = .running ∧ Kept [.opt, .boot] (s.chan n) (t.chan n))

/-- Bursts and the margin test. A burst lights one SPARE or RETIRED lane in SHADOW, steps TRIAL and the lane's filter every 20 ms, and ends with the lane
SPARE where its best margin is at least MT_PASS, RETIRED otherwise (R354); the refit follows the last burst (R355). The margin test notes
the best trial of every lane, then takes trial 16 and the provisional map; once in frame it sends MT_RESULT and PRECOMP, and goes on when
the peer's fit has come (R357; what a missed bound of these two steps does is the model's, log entry 167). MAP arms a transmit map at
its instant (R357, R360); the trigger fires when the instant comes, and the maps and lane states change at each end's next superframe boundary (R358,
R362, R458). A failed test repeats after 60 s (R359). -/
def Obligations.BurstsAndMarginTest : Prop :=
  (∀ (s : State) (ch : Fin 8) (h : SealHdr) (n phys : BitVec 8), InLife s ch → Opens (s.chan ch) 4 h →
    (∀ o ∈ (s.chan ch).opt.txOps, o.req.op ≠ n) →
    let st := (vget (s.chan ch).opt.tx phys.toNat).st
    let free := (st = .spare ∨ st = .retired) ∧ (s.chan ch).opt.txOps.length < 4 ∧ inOps (s.chan ch).opt.txOps phys.toNat = false
    ((s.chan ch).allowed phys.toNat = true → free → Changes (.burstReq ch h n phys) s ch fun c d =>
      (∃ o : OptOp, d.opt = { c.opt with
          txOps := c.opt.txOps ++ [o], filt := vset c.opt.filt phys.toNat (c.dispSeal - 16 * c.trialStep), tx := vset c.opt.tx phys.toNat { (vget c.opt.tx phys.toNat) with st := .shadow, ook := false } }
        ∧ o.burst = true ∧ o.req.op = n ∧ o.req.phys = phys ∧ o.stage = .burst 0 ∧ o.startUs = c.us ∧ o.was = st)
      ∧ Kept [.opt, .line, .sec] c d)
    ∧ ∀ e : Epoch, (s.chan ch).sec.cur = some e →
      ((s.chan ch).allowed phys.toNat = true → ¬free → Changes (.burstReq ch h n phys) s ch fun c d =>
        Sent 4 c d ∧ Kept [.line, .sec] c d)
      ∧ ((s.chan ch).allowed phys.toNat = false → (s.chan ch).hubLost = false → Changes (.burstReq ch h n phys) s ch fun c d =>
        Sent 4 c d ∧ d.reg 0x900064 = satAdd (c.reg 0x900064) 1 ∧ d.viols.length = c.viols.length + 1
        ∧ Kept [.line, .sec, .regs, .evr, .viols] c d))
  ∧ (∀ (s : State) (ch : Fin 8) (n : BitVec 8) (o : OptOp) (k : Nat), InLife s ch →
    ((s.chan ch).opt.txOps.find? fun o => decide (o.req.op = n) && o.burst) = some o → o.stage = .burst k →
    ((s.chan ch).us ≤ o.startUs + 20000 * (k + 1) → Changes (.burstTrialStep ch n none) s ch fun c d => d = c)
    ∧ (o.startUs + 20000 * (k + 1) < (s.chan ch).us → k < 32 → Changes (.burstTrialStep ch n none) s ch fun c d =>
      d = { c with opt := { c.opt with
        txOps := setOp c.opt.txOps { o with stage := .burst (k + 1) }
        filt := vset c.opt.filt o.req.phys.toNat (c.dispSeal + ((k : Int) + 1 - 16) * c.trialStep) } })
    ∧ (o.startUs + 20000 * (k + 1) < (s.chan ch).us → 32 ≤ k → Changes (.burstTrialStep ch n none) s ch fun c d =>
      d.opt.txOps = dropOp c.opt.txOps n ∧ (o.req.phys.toNat < 36 → newOnly o = [o.req.phys.toNat] →
        (vget d.opt.tx o.req.phys.toNat).st = o.was) ∧ d.opt.rx = c.opt.rx ∧ d.opt.txMap = c.opt.txMap ∧ Kept [.opt] c d))
  ∧ (∀ (s : State) (ch : Fin 8) (n : BitVec 8) (o : OptOp) (m : LaneMeas), InLife s ch →
    ((s.chan ch).opt.rxOps.find? fun o => decide (o.req.op = n) && o.burst) = some o →
    (o.stage = .requested → Changes (.burstTrialStep ch n (some m)) s ch fun c d =>
      ∃ b : Option (Nat × Int), d = { c with opt := { c.opt with
        rxOps := setOp c.opt.rxOps { o with stage := .burst 1, startUs := c.us, best := b } } })
    ∧ (∀ k : Nat, o.stage = .burst k → (s.chan ch).us ≤ o.startUs + 20000 * k → Changes (.burstTrialStep ch n (some m)) s ch fun c d => d = c)
    ∧ (∀ (k b : Nat) (q : Int), o.stage = .burst k → o.startUs + 20000 * k < (s.chan ch).us → k < 32 → o.best = some (b, q) →
      Changes (.burstTrialStep ch n (some m)) s ch fun c d => d = { c with opt := { c.opt with
        rxOps := setOp c.opt.rxOps { o with
          stage := .burst (k + 1), best := some (if q < marginOf false m then (k, marginOf false m) else (b, q)) } } })
    ∧ ∀ (b : Nat) (q : Int) (e : Epoch), o.stage = .burst 32 → o.startUs + 20000 * 32 < (s.chan ch).us → o.best = some (b, q) →
      marginOf false m ≤ q → o.req.phys.toNat < 36 → (s.chan ch).opt.rxOps = [o] → (s.chan ch).opt.burstQ = [] → (s.chan ch).sec.cur = some e →
      Changes (.burstTrialStep ch n (some m)) s ch fun c d =>
        let p := o.req.phys.toNat
        let l := vget d.opt.rx p
        l.st = (if c.mtPass ≤ q then .spare else .retired) ∧ l.margin = q ∧ l.known = true ∧ l.ook = false
        ∧ (∀ j : Nat, j < 36 → j ≠ p → (vget d.opt.rx j).st = (vget c.opt.rx j).st)
        ∧ d.opt.rxOps = [] ∧ d.reg 0x900054 = satAdd (c.reg 0x900054) 1 ∧ d.opt.rxMap = c.opt.rxMap
        ∧ (c.opt.refit = false → Sent 4 c d ∧ d.opt.fitted = cput c.opt.fitted p (c.dispSeal + ((b : Int) - 16) * c.trialStep)
            ∧ d.reg 0x900010 = c.reg 0x900010)
        ∧ (c.opt.refit = true → d.opt.refit = false ∧ d.opt.fitted = []
            ∧ (d.opt.d0, d.opt.slope) = fitLine (cput c.opt.fitted p (c.dispSeal + ((b : Int) - 16) * c.trialStep)))
        ∧ Kept [.opt, .line, .sec, .regs] c d)
  ∧ (∀ (s : State) (ch : Fin 8) (h : SealHdr) (d0 slope : BitVec 16), InLife s ch → Opens (s.chan ch) 4 h →
    Changes (.precomp ch h d0 slope) s ch fun c d =>
      d.opt.txD0 = d0.toInt ∧ d.opt.txSlope = slope.toInt
      ∧ (c.opt.mt ≠ .running → d.opt = { c.opt with txD0 := d0.toInt, txSlope := slope.toInt })
      ∧ (c.opt.mt = .running → (∀ p : Nat, p < 36 → vget d.opt.filt p = d0.toInt + slope.toInt * ((p : Int) - 18) / 100)
          ∧ d.opt.mtRun = c.opt.mtRun.map fun r => { r with peerFit := true })
      ∧ d.opt.rx = c.opt.rx ∧ d.opt.tx = c.opt.tx ∧ d.opt.txMap = c.opt.txMap ∧ Kept [.opt, .line, .sec] c d)
  ∧ (∀ (s : State) (ch : Fin 8) (m : LaneMeas) (r : MtRun), InLife s ch → (s.chan ch).opt.mtRun = some r → r.step = 2 →
    let best := cput r.best m.phys.toNat (r.trial, (marginOf false m + 512).toNat)
    ((s.chan ch).us ≤ r.sinceUs + 20000 * (r.trial + 1) → Changes (.marginTestTrialStep ch [m]) s ch fun c d => d = c)
    ∧ (r.sinceUs + 20000 * (r.trial + 1) < (s.chan ch).us → r.trial < 32 → cget? r.best m.phys.toNat = none →
      Changes (.marginTestTrialStep ch [m]) s ch fun c d => d = { c with opt := { c.opt with
        mtRun := some { r with trial := r.trial + 1, best := best }, filt := c.trialFilters (r.trial + 1) } })
    ∧ (r.sinceUs + 20000 * (r.trial + 1) < (s.chan ch).us → 32 ≤ r.trial → cget? r.best m.phys.toNat = none →
      Changes (.marginTestTrialStep ch [m]) s ch fun c d =>
        d.opt.mtRun = some { r with step := 3, sinceUs := c.us, trial := 16, best := best } ∧ d.opt.filt = c.trialFilters 16
        ∧ (∀ l : Nat, l < 32 → vget d.opt.txMap l = lget {} c.provisionalMap l) ∧ d.opt.rxMap = c.opt.rxMap ∧ d.opt.rx = c.opt.rx
        ∧ d.opt.tx = c.opt.tx ∧ Kept [.opt] c d))
  ∧ (∀ (s : State) (ch : Fin 8) (r : MtRun), InLife s ch → (s.chan ch).due 4 = true → (s.chan ch).opt.rxOps = [] →
    (s.chan ch).opt.mt = .running → (s.chan ch).opt.mtRun = some r →
    (r.step = 3 → (s.chan ch).line.oof = false ∨ r.sinceUs + 50000 < (s.chan ch).us → r.best ≠ [] → (s.chan ch).sec.cur = none →
      (s.chan ch).sec.hs = none → Changes (.marginEstimate ch []) s ch fun c d =>
        d.opt.mtRun = some { r with step := 4, sinceUs := c.us, sent := true }
        ∧ (d.opt.d0, d.opt.slope) = fitLine (r.best.map fun e => (e.1, c.dispSeal + ((e.2.1 : Int) - 16) * c.trialStep))
        ∧ d.sec.held.length = c.sec.held.length + 2 ∧ d.opt.rxMap = c.opt.rxMap ∧ d.opt.txMap = c.opt.txMap
        ∧ Kept [.opt, .time, .sec, .regs] c d)
    ∧ (r.step = 3 → (s.chan ch).line.oof = true → (s.chan ch).us ≤ r.sinceUs + 50000 → Changes (.marginEstimate ch []) s ch fun c d =>
        d.opt = c.opt ∧ Kept [.time] c d)
    ∧ (r.step = 4 → r.peerFit = true ∨ r.sinceUs + 20000 + (s.chan ch).rttUs < (s.chan ch).us →
      Changes (.marginEstimate ch []) s ch fun c d =>
        d.opt = { c.opt with mtRun := some { r with step := 5, sinceUs := c.us } } ∧ Kept [.time, .opt] c d)
    ∧ (r.step = 5 → r.sinceUs + 500000 < (s.chan ch).us →
      ∀ es : List MapEnt, 32 ≤ ((s.chan ch).plan.filter fun p => decide ((s.chan ch).mtPass ≤ (vget (s.chan ch).opt.rx p).margin)).length →
      chooseMap (s.chan ch).mtPass ((s.chan ch).plan.map fun p => (p, (vget (s.chan ch).opt.rx p).margin, -512)) = some es →
      Changes (.marginEstimate ch []) s ch fun c d =>
        d.opt.mt = .passed ∧ d.opt.rxPend = some { at_ := c.now + 2 * c.rttNs, ents := es } ∧ d.opt.rxMap = c.opt.rxMap
        ∧ (vget d.time.slots 6).armed = true ∧ (vget d.time.slots 6).at_ = c.now + 2 * c.rttNs
        ∧ ({ ev := .optMtPass } : Raised) ∈ d.evr.input ∧ Kept [.opt, .time, .sec, .line, .regs, .evr] c d))
  ∧ (∀ (s : State) (ch : Fin 8) (h : SealHdr) (p t q : BitVec 8), InLife s ch → Opens (s.chan ch) 4 h → p.toNat < 36 →
    let found := (s.chan ch).opt.txOps.find? fun o => o.burst && decide (o.req.phys = p)
    (found = none → Changes (.mtResult ch h [(p, t, q)]) s ch fun c d =>
      d.opt = { c.opt with tx := vset c.opt.tx p.toNat { (vget c.opt.tx p.toNat) with peer := some q.toInt } } ∧ Kept [.opt, .line, .sec] c d)
    ∧ ∀ o : OptOp, found = some o → Changes (.mtResult ch h [(p, t, q)]) s ch fun c d =>
      d.opt = { c.opt with
        txOps := dropOp c.opt.txOps o.req.op, tx := vset c.opt.tx p.toNat { (vget c.opt.tx p.toNat) with
          peer := some q.toInt, st := if c.mtPass ≤ q.toInt * 2 then .spare else .retired, ook := false } }
      ∧ Kept [.opt, .line, .sec] c d)
  ∧ (∀ (s : State) (ch : Fin 8) (h : SealHdr) (sec : BitVec 48) (ns : BitVec 32) (es : List MapEnt), InLife s ch → Opens (s.chan ch) 4 h →
    (instantOf sec ns = none → Changes (.map ch h sec ns es) s ch fun c d => Kept [.line, .sec] c d)
    ∧ ∀ t : Instant, instantOf sec ns = some t → Changes (.map ch h sec ns es) s ch fun c d =>
      let at_ := if c.isAligned then t else c.now + 10000000
      d.opt = { c.opt with txPend := some { at_ := at_, ents := es } } ∧ (vget d.time.slots 10).armed = true ∧ (vget d.time.slots 10).at_ = at_
      ∧ Kept [.opt, .time, .line, .sec, .regs, .evr] c d)
  ∧ (∀ (s : State) (ch : Fin 8) (m : MapArmed), InLife s ch → s.hub.boot.sealed = true → 7 ≤ (s.chan ch).boot.phase →
    (s.chan ch).opt.rxOps = [] → (s.chan ch).opt.txOps = [] → m.at_ ≤ (s.chan ch).now → m.due = false →
    (∀ j : Nat, j < 6 → (vget (s.chan ch).time.slots j).armed = false) →
    let rxTakes (c d : Chan) : Prop := (∀ l : Nat, l < 32 → vget d.opt.rxMap l = lget {} m.ents l) ∧ d.opt.rxPend = none ∧ d.opt.mtRun = none
      ∧ d.opt.txMap = c.opt.txMap ∧ d.opt.rx = mapStates c.plan m.ents c.opt.rx ∧ d.opt.tx = c.opt.tx
    ((s.chan ch).opt.rxPend = some m → (s.chan ch).opt.txPend = none →
      ((s.chan ch).line.oof = true → Changes (.mapChangeInstant ch) s ch fun c d =>
        rxTakes c d ∧ (vget d.time.slots 6).fired = true ∧ Kept [.opt, .time] c d)
      ∧ ((s.chan ch).line.oof = false → Changes (.mapChangeInstant ch) s ch fun c d =>
        d.opt = { c.opt with rxPend := some { m with due := true } } ∧ (vget d.time.slots 6).fired = true ∧ Kept [.opt, .time] c d))
    ∧ ((s.chan ch).opt.rxPend = none → (s.chan ch).opt.txPend = some m →
      ((∀ e ∈ m.ents, ∀ p ∈ entLanes e, (s.chan ch).allowed p = true) → Changes (.mapChangeInstant ch) s ch fun c d =>
        d.opt = { c.opt with txPend := some { m with due := true } } ∧ (vget d.time.slots 10).fired = true ∧ Kept [.opt, .time] c d)
      ∧ ((∃ e ∈ m.ents, ∃ p ∈ entLanes e, (s.chan ch).allowed p = false) → (s.chan ch).hubLost = false →
        Changes (.mapChangeInstant ch) s ch fun c d =>
        d.opt = { c.opt with txPend := none } ∧ d.reg 0x900064 = satAdd (c.reg 0x900064) 1 ∧ d.viols.length = c.viols.length + 1
        ∧ Kept [.opt, .time, .regs, .evr, .viols] c d)))
  ∧ (∀ (s : State) (ch : Fin 8) (m : MapArmed), InLife s ch → m.due = true →
    (∀ (phys : Fin 36) (fasRaw : BitVec 48) (lid : BitVec 8) (skew : BitVec 16) (l : Nat), (s.chan ch).lineRuns = true →
      (s.chan ch).opt.rxOps = [] → (s.chan ch).opt.rxPend = some m → fasFits fasRaw (BitVec.ofNat 48 fas) = true →
      fasFits fasRaw (~~~ BitVec.ofNat 48 fas) = false → (s.chan ch).line.state ≠ .downLof → logicalOf (s.chan ch).opt.rxMap phys = some l → lid.toNat / 8 = l →
      (vget (s.chan ch).opt.rxMap l).pair = 0x3F → (vget (s.chan ch).line.lanes l).dark = false →
      (vget (s.chan ch).line.lanes l).align = .sync → Changes (.laneUnitReceive ch phys fasRaw lid 0 skew) s ch fun c d =>
        (∀ k : Nat, k < 32 → vget d.opt.rxMap k = lget {} m.ents k) ∧ d.opt.rxPend = none ∧ d.opt.mtRun = none
        ∧ d.opt.txMap = c.opt.txMap ∧ d.opt.tx = c.opt.tx ∧ Kept [.line, .opt, .time, .boot, .regs, .evr] c d)
    ∧ ((s.chan ch).boot.pst = 0 → (s.chan ch).lineRuns = true → (s.chan ch).opt.txOps = [] → (s.chan ch).opt.txPend = some m →
      (s.chan ch).line.mfasTx = 0 → Changes (.frameSend ch) s ch fun c d =>
        (∀ k : Nat, k < 32 → vget d.opt.txMap k = lget {} m.ents k) ∧ d.opt.txPend = none ∧ d.opt.rxMap = c.opt.rxMap
        ∧ d.opt.tx = mapStates c.plan m.ents c.opt.tx ∧ d.opt.rx = c.opt.rx ∧ Kept [.line, .opt, .time, .sec, .sch, .boot, .regs] c d))
  ∧ ∀ (s : State) (ch : Fin 8), InLife s ch →
    let due := (s.chan ch).opt.mt = .failed ∧ (s.chan ch).opt.mtFailMs + 60000 < (s.chan ch).ms
    (¬due → Changes (.marginTestRetry ch) s ch fun c d => d = c)
    ∧ (due → Changes (.marginTestRetry ch) s ch fun c d =>
      d.opt.mt = .running ∧ d.opt.mtRun = some { step := 2, sinceUs := c.us } ∧ d.opt.filt = c.trialFilters 0
      ∧ (∀ p : Nat, p < 36 → (vget d.opt.rx p).st = (if c.allowed p then .shadow else .outside)
          ∧ (vget d.opt.tx p).st = (if c.allowed p then .shadow else .outside))
      ∧ d.opt.rxMap = c.opt.rxMap ∧ d.opt.txMap = c.opt.txMap ∧ Kept [.opt] c d)

/-- Spare-ins and comb take-overs. A sealed HLTH message that is not accepted changes nothing but the counts (R385). SPARE_REQ is answered
by its STATUS, a repeat by the same one (R361, R371); mirroring begins once the rings are locked, with the new lanes' filters loaded (R362). The map entry changes at each end's
first superframe boundary past the instant SPARE_SWITCH named, and the old lane is RETIRED 2 × RTT after that instant, at the transmitting
end once SPARE_DONE has come (R362); an operation that ends before its switch darkens its new lanes (R363). A comb that fades is replaced by moves of kind 3, or by a
cold switch (R367, R368). Answers that no rule gives are the model's (log entry 110). -/
def Obligations.SparesAndCombs : Prop :=
  (∀ (s : State) (ch : Fin 8) (h : SealHdr) (i : Instr) (n p st : BitVec 8) (d0 slope : BitVec 16) (sec : BitVec 48) (ns : BitVec 32)
      (es : List MapEnt) (rs : List (BitVec 8 × BitVec 8 × BitVec 8)) (r : SpareReq) (ms : List Byte),
    InLife s ch → ¬Opens (s.chan ch) 4 h →
    i ∈ [.burstReq ch h n p, .precomp ch h d0 slope, .mtResult ch h rs, .map ch h sec ns es, .spareReq ch h r, .spareAck ch h n st,
      .spareSwitch ch h n sec ns, .spareDone ch h n, .spareAbort ch h n, .margin ch h ms, .combReq ch h] →
    Changes i s ch fun c d => d.reg 0xA00088 = satAdd (c.reg 0xA00088) 1 ∧ ({ ev := .secSealFail, plane := .control, value := 4 } : Raised) ∈ d.evr.input
      ∧ Kept [.line, .regs, .evr] c d)
  ∧ (∀ (s : State) (ch : Fin 8) (h : SealHdr) (r : SpareReq) (e : Epoch), InLife s ch → Opens (s.chan ch) 4 h → (s.chan ch).sec.cur = some e →
    let known := (s.chan ch).opt.answered.find? fun a => decide (a.1 = r)
    (known ≠ none → Changes (.spareReq ch h r) s ch fun c d => Sent 4 c d ∧ Kept [.line, .sec] c d)
    ∧ (known = none → (s.chan ch).opt.txOps = [] → (s.chan ch).spareStatus r ≠ 0 → (s.chan ch).spareStatus r ≠ 1 →
      Changes (.spareReq ch h r) s ch fun c d => Sent 4 c d ∧ d.opt.tx = c.opt.tx ∧ d.opt.txMap = c.opt.txMap ∧ d.opt.txOps = []
        ∧ (r, BitVec.ofNat 8 (c.spareStatus r)) ∈ d.opt.answered ∧ Kept [.opt, .line, .sec] c d)
    ∧ (known = none → (s.chan ch).opt.txOps = [] → (s.chan ch).spareStatus r = 1 → (s.chan ch).hubLost = false →
      Changes (.spareReq ch h r) s ch fun c d => Sent 4 c d ∧ d.opt.tx = c.opt.tx ∧ d.opt.txOps = []
        ∧ d.reg 0x900064 = satAdd (c.reg 0x900064) 1 ∧ d.viols.length = c.viols.length + 1 ∧ Kept [.opt, .line, .sec, .regs, .evr, .viols] c d)
    ∧ (known = none → (s.chan ch).opt.txOps = [] → (s.chan ch).spareStatus r = 0 → Changes (.spareReq ch h r) s ch fun c d =>
      let locked := ∀ p ∈ SpareReqLanes r, (vget c.opt.rings p).locked = true
      ∃ o : OptOp, d.opt.txOps = [o] ∧ o.req = r ∧ o.old = vget c.opt.txMap r.lane.toNat
        ∧ (locked → o.stage = .mirroring ∧ Sent 4 c d
            ∧ ∀ p ∈ newOnly o, p < 36 → vget d.opt.filt p = c.opt.txD0 + c.opt.txSlope * ((p : Int) - 18) / 100) ∧ (¬locked → o.stage = .requested ∧ d.line.tribs = (c.takeTrib 4 2).line.tribs)
        ∧ (∀ p ∈ newOnly o, p < 36 → (vget d.opt.tx p).st = .shadow)
        ∧ (∀ p : Nat, p ∉ newOnly o → vget d.opt.tx p = vget c.opt.tx p)
        ∧ d.opt.txMap = c.opt.txMap ∧ d.opt.rx = c.opt.rx ∧ Kept [.opt, .line, .sec] c d))
  ∧ (∀ (s : State) (ch : Fin 8) (h : SealHdr) (n : BitVec 8) (o : OptOp), InLife s ch → Opens (s.chan ch) 4 h →
    ((s.chan ch).opt.rxOps.find? fun o => decide (o.req.op = n) && !o.burst && decide (o.stage = .requested)) = some o →
    Changes (.spareAck ch h n 0) s ch fun c d =>
      d.opt = { c.opt with rxOps := setOp c.opt.rxOps { o with stage := .syncing, ackUs := c.us } } ∧ Kept [.opt, .line, .sec] c d)
  ∧ (∀ (s : State) (ch : Fin 8) (h : SealHdr) (o : OptOp) (st : BitVec 8) (e : Epoch), InLife s ch → (s.chan ch).opt.rxOps = [o] → o.burst = false →
    o.stage = .requested → o.req.kind = 3 ∨ (o.cold = false ∧ ∀ p ∈ entLanes o.old, (vget (s.chan ch).opt.rx p).low < 3) →
    (s.chan ch).sec.cur = some e →
    let aborts (c d : Chan) : Prop := d.opt.rxOps = [] ∧ d.opt.rxMap = c.opt.rxMap ∧ Sent 4 c d
      ∧ (∀ p ∈ newOnly o, p < 36 → (vget d.opt.rx p).st = o.was) ∧ (∀ p : Nat, p ∉ newOnly o → vget d.opt.rx p = vget c.opt.rx p)
      ∧ d.reg 0x900044 = satAdd (c.reg 0x900044) 1 ∧ Kept [.opt, .line, .sec, .regs, .evr] c d
    (Opens (s.chan ch) 4 h → st ≠ 0 → Changes (.spareAck ch h o.req.op st) s ch aborts)
    ∧ (o.startUs + 50000 + (s.chan ch).rttUs < (s.chan ch).us → Changes (.spareAckTimeout ch o.req.op) s ch aborts)
    ∧ ((s.chan ch).us ≤ o.startUs + 50000 + (s.chan ch).rttUs → Changes (.spareAckTimeout ch o.req.op) s ch fun c d => d = c))
  ∧ (∀ (s : State) (ch : Fin 8) (h : SealHdr) (n : BitVec 8) (sec : BitVec 48) (ns : BitVec 32) (o : OptOp) (t : Instant), InLife s ch →
    Opens (s.chan ch) 4 h → ((s.chan ch).opt.txOps.find? fun o => decide (o.req.op = n) && decide (o.stage = .mirroring)) = some o →
    instantOf sec ns = some t → (s.chan ch).isAligned = true →
    Changes (.spareSwitch ch h n sec ns) s ch fun c d => ∃ j : Nat, 10 ≤ j ∧ j ≤ 13 ∧
      d.opt = { c.opt with txOps := setOp c.opt.txOps { o with stage := .armed t, slot := j, cold := decide (t ≤ c.now) } }
      ∧ (vget d.time.slots j).armed = true ∧ (vget d.time.slots j).at_ = t ∧ Kept [.opt, .time, .line, .sec, .regs, .evr] c d)
  ∧ (∀ (s : State) (ch : Fin 8) (h : SealHdr) (n : BitVec 8), InLife s ch → Opens (s.chan ch) 4 h →
    Changes (.spareDone ch h n) s ch fun c d =>
      d.opt = { c.opt with txOps := c.opt.txOps.map fun x => if x.req.op = n then { x with doneIn := true } else x } ∧ Kept [.opt, .line, .sec] c d)
  ∧ (∀ (s : State) (ch : Fin 8) (h : SealHdr) (n : BitVec 8) (o : OptOp), InLife s ch → Opens (s.chan ch) 4 h → o.burst = false →
    ((s.chan ch).opt.txOps.find? fun o => decide (o.req.op = n) && beforeSwitch o) = some o →
    Changes (.spareAbort ch h n) s ch fun c d =>
      d.opt.txOps = dropOp c.opt.txOps n ∧ d.opt.txMap = c.opt.txMap ∧ (∀ p ∈ newOnly o, p < 36 → (vget d.opt.tx p).st = o.was)
      ∧ (∀ p : Nat, p ∉ newOnly o → vget d.opt.tx p = vget c.opt.tx p) ∧ d.opt.rx = c.opt.rx ∧ Kept [.opt, .line, .sec] c d)
  ∧ (∀ (s : State) (ch : Fin 8) (o : OptOp) (t : Instant), InLife s ch → s.hub.boot.sealed = true → 7 ≤ (s.chan ch).boot.phase →
    (s.chan ch).opt.rxPend = none → (s.chan ch).opt.txPend = none → o.stage = .armed t → (s.chan ch).mapDue t = true →
    ((s.chan ch).opt.rxOps = [o] → (s.chan ch).opt.txOps = [] → (s.chan ch).line.oof = false → Changes (.mapChangeInstant ch) s ch fun c d =>
      d.opt = { c.opt with rxOps := [{ o with stage := .due t }] } ∧ (o.slot < 16 → (vget d.time.slots o.slot).fired = true)
      ∧ Kept [.opt, .time] c d)
    ∧ ((s.chan ch).opt.txOps = [o] → (s.chan ch).opt.rxOps = [] → Changes (.mapChangeInstant ch) s ch fun c d =>
      d.opt = { c.opt with txOps := [{ o with stage := .due t }] } ∧ (o.slot < 16 → (vget d.time.slots o.slot).fired = true)
      ∧ Kept [.opt, .time] c d))
  ∧ (∀ (s : State) (ch : Fin 8) (o : OptOp) (t : Instant), InLife s ch → (s.chan ch).lineRuns = true → o.stage = .due t → o.cold = false →
    o.req.lane.toNat < 32 → o.req.kind = 1 → (s.chan ch).opt.rxPend = none → (s.chan ch).opt.txPend = none →
    (∀ (phys : Fin 36) (fasRaw : BitVec 48) (lid : BitVec 8) (skew : BitVec 16) (l : Nat) (e : Epoch),
      (s.chan ch).opt.rxOps = [o] → (s.chan ch).opt.txOps = [] → (s.chan ch).sec.cur = some e →
      fasFits fasRaw (BitVec.ofNat 48 fas) = true → fasFits fasRaw (~~~ BitVec.ofNat 48 fas) = false →
      (s.chan ch).line.state ≠ .downLof → logicalOf (s.chan ch).opt.rxMap phys = some l → lid.toNat / 8 = l →
      (vget (s.chan ch).opt.rxMap l).pair = 0x3F → (vget (s.chan ch).line.lanes l).dark = false →
      (vget (s.chan ch).line.lanes l).align = .sync → Changes (.laneUnitReceive ch phys fasRaw lid 0 skew) s ch fun c d =>
        d.opt.rxMap = vset c.opt.rxMap o.req.lane.toNat (reqEnt o.req) ∧ d.opt.rxOps = [{ o with stage := .copying t }]
        ∧ (∀ p ∈ SpareReqLanes o.req, p < 36 → (vget d.opt.rx p).st = .mapped) ∧ d.reg 0x900040 = satAdd (c.reg 0x900040) 1
        ∧ d.opt.txMap = c.opt.txMap ∧ d.opt.tx = c.opt.tx ∧ Sent 4 c d ∧ Kept [.opt, .time, .line, .sec, .regs, .evr] c d)
    ∧ ((s.chan ch).boot.pst = 0 → (s.chan ch).opt.txOps = [o] → (s.chan ch).opt.rxOps = [] → (s.chan ch).line.mfasTx = 0 →
      Changes (.frameSend ch) s ch fun c d =>
        d.opt.txMap = vset c.opt.txMap o.req.lane.toNat (reqEnt o.req) ∧ d.opt.txOps = [{ o with stage := .copying t }]
        ∧ (∀ p ∈ SpareReqLanes o.req, p < 36 → (vget d.opt.tx p).st = .mapped) ∧ d.opt.rxMap = c.opt.rxMap ∧ d.opt.rx = c.opt.rx))
  ∧ (∀ (s : State) (ch : Fin 8) (o : OptOp) (t : Instant), InLife s ch → (s.chan ch).opt.takeover = false → o.stage = .copying t → o.req.kind ≠ 3 →
    let past := t + 2 * (s.chan ch).rttNs ≤ (s.chan ch).now
    ((s.chan ch).opt.rxOps = [o] → (s.chan ch).opt.txOps = [] → (s.chan ch).opt.burstQ = [] → past → Changes (.spareCopyEnd ch) s ch fun c d =>
      d.opt.rxOps = [] ∧ d.opt.rxMap = c.opt.rxMap ∧ (∀ p ∈ oldOnly o, p < 36 → (vget d.opt.rx p).st = .retired)
      ∧ (∀ p : Nat, p ∉ oldOnly o → vget d.opt.rx p = vget c.opt.rx p) ∧ d.opt.tx = c.opt.tx ∧ Kept [.opt, .hlth, .time, .regs, .evr] c d)
    ∧ ((s.chan ch).opt.txOps = [o] → (s.chan ch).opt.rxOps = [] → past → o.doneIn = true → Changes (.spareCopyEnd ch) s ch fun c d =>
      d.opt.txOps = [] ∧ d.opt.txMap = c.opt.txMap ∧ (∀ p ∈ oldOnly o, p < 36 → (vget d.opt.tx p).st = .retired)
      ∧ (∀ p : Nat, p ∉ oldOnly o → vget d.opt.tx p = vget c.opt.tx p) ∧ d.opt.rx = c.opt.rx ∧ Kept [.opt] c d)
    ∧ ((s.chan ch).opt.txOps = [o] → (s.chan ch).opt.rxOps = [] → ¬past ∨ o.doneIn = false → Changes (.spareCopyEnd ch) s ch fun c d => d = c))
  ∧ (∀ (s : State) (ch : Fin 8), InLife s ch → (s.chan ch).opt.rxOps = [] → (s.chan ch).opt.txOps = [] → (s.chan ch).opt.takeover = true →
    (∀ p : Nat, p < 36 → (vget (s.chan ch).opt.tx p).st = .mapped → (vget (s.chan ch).opt.tx p).comb ≠ (s.chan ch).opt.combSel) →
    Changes (.spareCopyEnd ch) s ch fun c d =>
      d.opt.takeover = false ∧ d.opt.combSel = !c.opt.combSel ∧ (vget d.opt.combs c.opt.combSel.toNat).st = .faded
      ∧ (vget d.opt.combs (!c.opt.combSel).toNat).st = .serving ∧ d.opt.tx = c.opt.tx ∧ d.opt.txMap = c.opt.txMap
      ∧ ({ ev := .optCombTakeover } : Raised) ∈ d.evr.input ∧ Kept [.opt, .evr] c d)
  ∧ (∀ (s : State) (ch : Fin 8) (h : SealHdr), InLife s ch → Opens (s.chan ch) 4 h →
    ((s.chan ch).opt.moveQ ≠ [] ∨ (∃ o ∈ (s.chan ch).opt.rxOps, o.req.kind = 3) → Changes (.combReq ch h) s ch fun c d => Kept [.line, .sec] c d)
    ∧ ((s.chan ch).opt.moveQ = [] → (s.chan ch).opt.rxOps = [] → (s.chan ch).spares [] = [] → Changes (.combReq ch h) s ch fun c d =>
      d.opt = { c.opt with moveQ := List.range 32 } ∧ Kept [.opt, .line, .sec] c d)
    ∧ ∀ (q : Nat) (e : Epoch), (s.chan ch).opt.moveQ = [] → (s.chan ch).opt.rxOps = [] → (s.chan ch).spares [] = [q] →
      (s.chan ch).sec.cur = some e → Changes (.combReq ch h) s ch fun c d =>
        (∃ o : OptOp, d.opt.rxOps = [o] ∧ o.req = ⟨c.opt.nextOp, 0, 3, BitVec.ofNat 8 q, 0xFF, 1⟩ ∧ o.stage = .requested)
        ∧ d.opt.moveQ = (List.range 32).tail ∧ Sent 4 c d ∧ d.opt.rxMap = c.opt.rxMap ∧ Kept [.opt, .line, .sec] c d)
  ∧ (∀ (s : State) (ch : Fin 8) (o : OptOp) (e : Epoch), InLife s ch → (s.chan ch).opt.rxOps = [o] → (s.chan ch).opt.combReq = false →
    (s.chan ch).sec.cur = some e →
    (o.stage = .requested → o.sentUs + 5000 < (s.chan ch).us → Changes (.hlthRequestRepeat ch) s ch fun c d =>
      d.opt = { c.opt with rxOps := [{ o with sentUs := c.us }] } ∧ Sent 4 c d ∧ Kept [.opt, .line, .sec] c d)
    ∧ (o.stage ≠ .requested ∨ (s.chan ch).us ≤ o.sentUs + 5000 → Changes (.hlthRequestRepeat ch) s ch fun c d => d = c))
  ∧ (∀ (s : State) (ch : Fin 8) (l : Fin 32), InLife s ch → (s.chan ch).opt.rxOps = [] →
    let x := vget (s.chan ch).line.lanes l
    let p := (vget (s.chan ch).opt.rxMap l).phys.toNat
    let lost := ((x.dark = true ∧ x.darkUs + 100000 < (s.chan ch).us) ∨ (x.align ≠ .sync ∧ x.outUs + 100000 < (s.chan ch).us))
      ∧ (s.chan ch).line.state = .downLof
    (¬lost → Changes (.coldSpareIn ch l) s ch fun c d => d = c)
    ∧ ∀ (q : Nat) (r : List Nat) (e : Epoch), lost → logicalOf (s.chan ch).opt.rxMap p = some l.val →
      (s.chan ch).spares (vget (s.chan ch).opt.rx p).tried = q :: r → (s.chan ch).sec.cur = some e →
      Changes (.coldSpareIn ch l) s ch fun c d =>
        (∃ o : OptOp, d.opt.rxOps = [o] ∧ o.req = ⟨c.opt.nextOp, BitVec.ofNat 8 l, 1, BitVec.ofNat 8 q, 0xFF, 0⟩ ∧ o.stage = .requested ∧ o.cold = true)
        ∧ d.opt.rxMap = c.opt.rxMap ∧ Sent 4 c d ∧ Kept [.opt, .line, .sec] c d)
  ∧ (∀ (s : State) (ch : Fin 8) (mean : BitVec 10) (atLimit : Bool), InLife s ch →
    let k := (s.chan ch).opt.combSel.toNat
    let x := vget (s.chan ch).opt.combs k
    let y := vget (s.chan ch).opt.combs (1 - k)
    let fades := atLimit = true ∨ (fld ((s.chan ch).reg 0x900004) 15 8 : Int) ≤ x.ref - mean.toInt
    let start := (∃ p : Nat, p < 36 ∧ (vget (s.chan ch).opt.tx p).st = .spare) ∧ y.st = .off
    ((s.chan ch).opt.takeover = true ∨ ¬fades → Changes (.combTakeoverStart ch mean atLimit) s ch fun c d =>
      d = { c with opt := { c.opt with combs := vset c.opt.combs k { x with mean := mean.toInt } } })
    ∧ ((s.chan ch).opt.takeover = false → fades → Changes (.combTakeoverStart ch mean atLimit) s ch fun c d =>
      d.evr.input = c.evr.input ++ [{ ev := .optCombFade }] ∧ Kept [.opt, .evr] c d
      ∧ (¬start → d.opt = { c.opt with combs := vset c.opt.combs k { x with mean := mean.toInt } })
      ∧ (start → d.opt = { c.opt with
          takeover := true, combs := vset (vset c.opt.combs k { x with mean := mean.toInt }) (1 - k) { y with st := .warming } })))
  ∧ (∀ (s : State) (ch : Fin 8) (ok : Bool) (e : Epoch), InLife s ch → (s.chan ch).sec.cur = some e →
    let k := 1 - (s.chan ch).opt.combSel.toNat
    let y := vget (s.chan ch).opt.combs k
    (y.st ≠ .warming → Changes (.combWarmLocked ch ok) s ch fun c d => d = c)
    ∧ (y.st = .warming → ok = true → Changes (.combWarmLocked ch ok) s ch fun c d =>
      d.opt = { c.opt with combs := vset c.opt.combs k { y with st := .locked }, combReq := true, combReqUs := c.us } ∧ Sent 4 c d
      ∧ Kept [.opt, .line, .sec] c d)
    ∧ (y.st = .warming → ok = false → Changes (.combWarmLocked ch ok) s ch fun c d =>
      d.opt = { c.opt with combs := vset c.opt.combs k { y with st := .failed }, takeover := false }
      ∧ d.evr.input = c.evr.input ++ [{ ev := .optCombFail }] ∧ Kept [.opt, .evr] c d))
  ∧ ∀ (s : State) (ch : Fin 8) (died : Bool), InLife s ch →
    let k := (s.chan ch).opt.combSel.toNat
    let x := vget (s.chan ch).opt.combs k
    let y := vget (s.chan ch).opt.combs (1 - k)
    (y.st = .faded ∨ y.st = .failed ∨ y.st = .serving ∨ (died = false ∧ y.st ≠ .locked) → Changes (.coldCombSwitch ch died) s ch fun c d => d = c)
    ∧ (y.st = .locked → died = true ∨ (∀ p : Nat, p < 36 → (vget (s.chan ch).opt.tx p).st = .mapped →
        ∃ m : Int, (vget (s.chan ch).opt.tx p).peer = some m ∧ m * 2 < (s.chan ch).spareTh) →
      Changes (.coldCombSwitch ch died) s ch fun c d =>
        d.opt = { c.opt with
          combSel := !c.opt.combSel, takeover := false, combReq := false, combs := vset (vset c.opt.combs k { x with st := if died then .failed else .faded }) (1 - k) { y with st := .serving },
          tx := c.opt.tx.map fun l => { l with comb := !c.opt.combSel } } ∧ Kept [.opt] c d)

/-! ### Keys -/

/-- What ends an agreement or a resume with a KA_ABORT of reason `r` sent or received: nothing of it is left, trigger slot 0 is disarmed, and A waits 60 s
after reasons 0x02–0x07, 1 s otherwise (R387). The current epoch stays. -/
def Sys2Proof.Safety.AgreementEnds (r : Nat) (c d : Chan) : Prop :=
  d.sec.phase = .failed ∧ d.sec.hs = none ∧ d.sec.next = none ∧ d.sec.rekey = none ∧ d.sec.repeating = none ∧ d.sec.resumeUs = none
  ∧ d.sec.startedUs = none ∧ d.sec.cur = c.sec.cur ∧ d.sec.prev = c.sec.prev ∧ (vget d.time.slots 0).armed = false
  ∧ d.sec.holdUs = some (c.us + if 2 ≤ r ∧ r ≤ 7 then 60000000 else 1000000)
  ∧ d.reg 0xA00094 = satAdd (c.reg 0xA00094) 1 ∧ Kept [.sec, .time, .line, .regs, .evr] c d

/-- The full key agreement. A starts it in frame, after its delay, with a point of free value; each HELLO is checked in the order of R384,
and K_HS and TH follow from the two points and the two bodies (R380, R387). KA_FINISH and KA_START, sealed under the handshake key, arm
the first epoch at T0 at both ends; a repeat gets the same answer (R387). An abort, received or after 1 s, leaves nothing of the
agreement (R384, R387). At its instant the confirmed epoch becomes the current one, its counters start at 0, and the window opens for
the previous one, of which only the keys stay (R381), and those go when the window closes (R390). The curve, the certificates' contents, and
that the ciphers and hashes are opaque functions of their inputs, are the model's (log entry 21). -/
def Obligations.KeyAgreement : Prop :=
  (∀ (s : State) (ch : Fin 8), InLife s ch →
    let c := s.chan ch
    let ready := c.isA = true ∧ (c.sec.phase = .none ∨ c.sec.phase = .failed) ∧ (∀ t : Nat, c.sec.holdUs = some t → t < c.us)
      ∧ (c.line.state = .rxUp ∨ c.line.state = .up)
    (¬ready → ChangesFree (.kaRestart ch) s ch 1 fun c d => d = c)
    ∧ (ready → ChangesFree (.kaRestart ch) s ch 1 fun c d =>
      let pt := Config.freeBits s.free 512
      d.sec.phase = .hello ∧ d.sec.ownPoint = pt ∧ d.sec.helloA = c.ownHello pt none ∧ d.sec.repeating = some (1, c.ownHello pt none)
      ∧ d.sec.startedUs = some c.us ∧ d.sec.cur = c.sec.cur ∧ d.sec.mseqTx = c.sec.mseqTx ∧ Sent 2 c d ∧ Kept [.sec, .time, .line] c d))
  ∧ (∀ (s : State) (ch : Fin 8) (b : HelloBody), InLife s ch →
    ((s.chan ch).isA = true → ChangesFree (.kaHelloA ch b) s ch 1 fun c d => Kept [.line] c d ∧ (vget d.line.tribs 2).tx = (vget c.line.tribs 2).tx)
    ∧ ((s.chan ch).isA = false → (s.chan ch).sec.answer = none →
      (∀ r : Nat, (s.chan ch).helloFail b none = some r → ChangesFree (.kaHelloA ch b) s ch 1 fun c d => AgreementEnds r c d ∧ Sent 2 c d)
      ∧ ((s.chan ch).helloFail b none = none → (s.chan ch).sec.held = [] → ChangesFree (.kaHelloA ch b) s ch 1 fun c d =>
        let pt := Config.freeBits s.free 512
        let body := c.ownHello pt (some (Config.sm2Conf b.point pt false))
        d.sec.phase = .handshake ∧ d.sec.hs = some (Config.sm2Key b.point pt, Config.sm3 (helloBytes b false ++ body))
        ∧ d.sec.answer = some (2, body) ∧ d.sec.ownPoint = pt ∧ d.sec.peerCert = Config.sm3 b.device.der ∧ d.sec.cur = c.sec.cur
        ∧ d.reg 0xA000AC = (if c.time.unit.state = .locked then c.reg 0xA000AC else satAdd (c.reg 0xA000AC) (if b.owner.isSome then 3 else 2))
        ∧ Sent 2 c d ∧ Kept [.sec, .line, .regs] c d))
    ∧ ∀ body : List Byte, (s.chan ch).isA = false → (s.chan ch).sec.phase = .handshake → (s.chan ch).sec.helloA = helloBytes b false →
      (s.chan ch).sec.answer = some (2, body) → ChangesFree (.kaHelloA ch b) s ch 1 fun c d => Sent 2 c d ∧ Kept [.line] c d)
  ∧ (∀ (s : State) (ch : Fin 8) (b : HelloBody), InLife s ch →
    let fails := (s.chan ch).helloFail b (some (decide (b.conf = Config.sm2Conf (s.chan ch).sec.ownPoint b.point false)))
    ((s.chan ch).isA = false ∨ (s.chan ch).sec.phase ≠ .hello → Changes (.kaHelloB ch b) s ch fun c d =>
      Kept [.line] c d ∧ (vget d.line.tribs 2).tx = (vget c.line.tribs 2).tx)
    ∧ ((s.chan ch).isA = true → (s.chan ch).sec.phase = .hello →
      (∀ r : Nat, fails = some r → Changes (.kaHelloB ch b) s ch fun c d => AgreementEnds r c d ∧ Sent 2 c d)
      ∧ (fails = none → (s.chan ch).sec.held = [] → Changes (.kaHelloB ch b) s ch fun c d =>
        let t0 := c.now + max (2 * c.rttNs) 10000000
        d.sec.phase = .handshake ∧ d.sec.t0 = t0 ∧ d.sec.peerCert = Config.sm3 b.device.der
        ∧ d.sec.hs = some (Config.sm2Key c.sec.ownPoint b.point, Config.sm3 (c.sec.helloA ++ helloBytes b true))
        ∧ d.sec.repeating = some (3, beBytes 32 (Config.sm2Conf c.sec.ownPoint b.point true).toNat ++ stampBytes t0)
        ∧ d.sec.cur = c.sec.cur ∧ Sent 2 c d ∧ Kept [.sec, .line, .regs] c d)))
  ∧ (∀ (s : State) (ch : Fin 8) (h : SealHdr) (sA : BitVec 256) (sec : BitVec 48) (ns : BitVec 32) (hk : BitVec 256 × BitVec 256), InLife s ch →
    Opens (s.chan ch) 2 h → (s.chan ch).isA = false → (s.chan ch).sec.phase = .handshake → (s.chan ch).sec.hs = some hk →
    let sound := sA = Config.sm2Conf (BitVec.ofNat 512 (beAt (s.chan ch).sec.helloA 4 64)) (s.chan ch).sec.ownPoint true
    (∀ (t : Instant) (body : List Byte), (s.chan ch).sec.answer = some (2, body) → sound → instantOf sec ns = some t →
      Changes (.kaFinish ch h sA sec ns) s ch fun c d =>
        let at_ := if c.isAligned then t else c.now + 10000000
        d.sec.next = some ⟨firstNum c.sec, firstSecret hk, at_⟩ ∧ (vget d.time.slots 0).armed = true ∧ (vget d.time.slots 0).at_ = at_
        ∧ d.sec.answer = some (4, stampBytes t) ∧ d.sec.cur = c.sec.cur ∧ Sent 2 c d ∧ Kept [.sec, .time, .line, .regs, .evr] c d)
    ∧ (∀ body : List Byte, (s.chan ch).sec.answer = some (2, body) → ¬sound →
      Changes (.kaFinish ch h sA sec ns) s ch fun c d => AgreementEnds 9 c d ∧ Sent 2 c d)
    ∧ (∀ body : List Byte, (s.chan ch).sec.answer = some (4, body) →
      Changes (.kaFinish ch h sA sec ns) s ch fun c d => d.sec.next = c.sec.next ∧ Sent 2 c d ∧ Kept [.sec, .line] c d))
  ∧ (∀ (s : State) (ch : Fin 8) (h : SealHdr) (sec : BitVec 48) (ns : BitVec 32) (hk : BitVec 256 × BitVec 256) (body : List Byte), InLife s ch →
    Opens (s.chan ch) 2 h → (s.chan ch).isA = true → (s.chan ch).sec.hs = some hk → (s.chan ch).sec.repeating = some (3, body) →
    (instantOf sec ns = some (s.chan ch).sec.t0 → Changes (.kaStart ch h sec ns) s ch fun c d =>
      d.sec.next = some ⟨firstNum c.sec, firstSecret hk, c.sec.t0⟩ ∧ d.sec.repeating = none ∧ (vget d.time.slots 0).armed = true
      ∧ (vget d.time.slots 0).at_ = c.sec.t0 ∧ d.sec.cur = c.sec.cur ∧ Kept [.sec, .time, .line, .regs, .evr] c d)
    ∧ (instantOf sec ns ≠ some (s.chan ch).sec.t0 → Changes (.kaStart ch h sec ns) s ch fun c d =>
      d.sec.next = c.sec.next ∧ d.sec.repeating = c.sec.repeating ∧ d.time = c.time ∧ Kept [.sec, .line] c d))
  ∧ (∀ (s : State) (ch : Fin 8) (r : BitVec 8), InLife s ch →
    ((s.chan ch).sec.rekey = none → (s.chan ch).sec.resumeUs = none → (s.chan ch).sec.phase ≠ .service →
      Changes (.kaAbort ch r) s ch fun c d => AgreementEnds r.toNat c d ∧ (vget d.line.tribs 2).tx = (vget c.line.tribs 2).tx)
    ∧ ((s.chan ch).sec.rekey = none → (s.chan ch).sec.resumeUs = none → (s.chan ch).sec.phase = .service → r ≠ 0x0A →
      Changes (.kaAbort ch r) s ch fun c d => d.reg 0xA00094 = satAdd (c.reg 0xA00094) 1 ∧ Kept [.line, .regs] c d)
    ∧ ((s.chan ch).sec.rekey = none → (s.chan ch).sec.resumeUs ≠ none →
      Changes (.kaAbort ch r) s ch fun c d => AgreementEnds r.toNat c d ∧ ({ ev := .secResumeFail, plane := .control } : Raised) ∈ d.evr.input)
    ∧ ((s.chan ch).sec.rekey ≠ none → Changes (.kaAbort ch r) s ch fun c d =>
      d.sec.rekey = none ∧ d.sec.next = none ∧ d.sec.cur = c.sec.cur ∧ d.sec.rekeyFails = c.sec.rekeyFails + 1
      ∧ d.sec.phase = (if 3 ≤ c.sec.rekeyFails + 1 then .failed else .service) ∧ (vget d.time.slots 0).armed = false
      ∧ d.reg 0xA00090 = satAdd (c.reg 0xA00090) 1 ∧ d.reg 0xA00094 = satAdd (c.reg 0xA00094) 1 ∧ Kept [.sec, .time, .line, .regs, .evr] c d))
  ∧ (∀ (s : State) (ch : Fin 8), InLife s ch →
    ((∀ t : Nat, (s.chan ch).sec.startedUs = some t → (s.chan ch).us ≤ t + 1000000) → Changes (.kaTimeout ch) s ch fun c d => d = c)
    ∧ ∀ t : Nat, (s.chan ch).sec.startedUs = some t → t + 1000000 < (s.chan ch).us →
      Changes (.kaTimeout ch) s ch fun c d => AgreementEnds 0x0A c d ∧ Sent 2 c d)
  ∧ (∀ (s : State) (ch : Fin 8), InLife s ch →
    ((s.chan ch).sec.repeating = none ∨ (s.chan ch).us ≤ (s.chan ch).sec.repeatUs + 5000 → Changes (.kaRepeat ch) s ch fun c d => d = c)
    ∧ ∀ (t : Nat) (body : List Byte), (s.chan ch).sec.repeating = some (t, body) → (s.chan ch).sec.repeatUs + 5000 < (s.chan ch).us →
      kaSeal t = none ∨ (kaSeal t = some true ∧ (s.chan ch).sec.hs ≠ none) ∨ (kaSeal t = some false ∧ (s.chan ch).sec.cur ≠ none) →
      Changes (.kaRepeat ch) s ch fun c d => d.sec.repeatUs = c.us ∧ d.sec.repeating = c.sec.repeating ∧ d.sec.phase = c.sec.phase ∧ Sent 2 c d
        ∧ Kept [.sec, .line] c d)
  ∧ (∀ (s : State) (ch : Fin 8) (n : NextEpoch), InLife s ch → s.hub.boot.sealed = true → (s.chan ch).boot.phase = 7 → (s.chan ch).boot.recov = none →
    (s.chan ch).sec.next = some n →
    (n.at_ ≤ (s.chan ch).now → ChangesFree (.keyRolloverInstant ch) s ch 1 fun c d =>
      d.sec.cur = some ⟨n.num, n.secret⟩ ∧ d.sec.prev = c.sec.cur.map c.keysOf ∧ d.sec.hs = none ∧ d.sec.next = none ∧ d.sec.rekey = none
      ∧ d.sec.txBytes = 0 ∧ d.sec.rxBytes = 0 ∧ d.sec.stop = false ∧ d.sec.changeAt = n.at_ ∧ d.sec.actMs = c.ms
      ∧ d.sec.saddle = (if c.sec.cur.isSome then some (c.us + max (fld (c.reg 0xA00004) 15 0) (2 * c.rttUs)) else none)
      ∧ (∀ t : Nat, 1 ≤ t → t ≤ 4 → cget 0 d.sec.mseqTx (mseqKey 0 n.num.toNat t) = 0 ∧ cget 0 d.sec.mseqRx (mseqKey 0 n.num.toNat t) = 0)
      ∧ (vget d.time.slots 0).fired = true ∧ d.reg 0xA0008C = satAdd (c.reg 0xA0008C) 1
      ∧ ({ ev := .secRekey, plane := .control, value := n.num.toNat } : Raised) ∈ d.evr.input
      ∧ (c.line.state = .up → ∀ k : Nat, k < 16 → (c.slot k).mode ≠ .free → (d.slot k).stall = false)
      ∧ Kept [.sec, .time, .regs, .evr, .ctrl] c d)
    ∧ ((s.chan ch).now < n.at_ → (s.chan ch).line.state ≠ .up → ChangesFree (.keyRolloverInstant ch) s ch 1 fun c d => d = c))
  ∧ ∀ (s : State) (ch : Fin 8), s.present ch = true →
    ((∀ t : Nat, (s.chan ch).sec.saddle = some t → (s.chan ch).us ≤ t) → Changes (.keySaddleClose ch) s ch fun c d => d = c)
    ∧ ∀ t : Nat, (s.chan ch).sec.saddle = some t → t < (s.chan ch).us → Changes (.keySaddleClose ch) s ch fun c d =>
      d = { c with sec := { c.sec with prev := none, saddle := none, mgmtRxPrev := 0 } }

/-- Rekeys, the stops of the cipher, and the resume. A starts a rekey when age or bytes call for it and the line is in frame, with an instant 4 × RTT + 20 ms
ahead;
B answers; each end arms the instant once it has confirmed the secret (R389). An exchange not complete at its instant is counted and
started again at once (R389). Byte and time limits, and a noise source that has failed for 1 s, stop encryption (R391, R402). KA_RESUME
is answered when it names the current epoch, unanswered when it names the previous one, and otherwise fails (R404). A message that does
not open changes nothing but the counts (R385). The ciphers and hashes are opaque functions of their inputs (log entry 21). -/
def Obligations.RekeysStopsAndResume : Prop :=
  (∀ (s : State) (ch : Fin 8) (h : SealHdr) (i : Instr) (num : BitVec 8) (p : BitVec 512) (x : BitVec 256) (sec : BitVec 48) (ns : BitVec 32),
    InLife s ch → ¬Opens (s.chan ch) 2 h →
    i ∈ [.kaFinish ch h x sec ns, .kaStart ch h sec ns, .kaRekeyB ch h num p x, .kaRekeyFin ch h num x] →
    Changes i s ch fun c d => d.reg 0xA00088 = satAdd (c.reg 0xA00088) 1 ∧ ({ ev := .secSealFail, plane := .control, value := 2 } : Raised) ∈ d.evr.input
      ∧ Kept [.line, .regs, .evr] c d)
  ∧ (∀ (s : State) (ch : Fin 8) (e : Epoch), InLife s ch → (s.chan ch).sec.cur = some e →
    let c := s.chan ch
    let ready := c.isA = true ∧ c.sec.phase = .service ∧ c.sec.saddle = none ∧ (∀ t : Nat, c.sec.holdUs = some t → t < c.us)
      ∧ (c.line.state = .rxUp ∨ c.line.state = .up) ∧ c.rekeyDue = true
    (¬ready → ChangesFree (.rekeyStart ch) s ch 1 fun c d => d = c)
    ∧ (ready → ChangesFree (.rekeyStart ch) s ch 1 fun c d =>
      let t := c.now + 4 * c.rttNs + 20000000
      d.sec.phase = .rekeying ∧ d.sec.rekey = some { num := e.num + 1, rA := Config.freeBits s.free 512, at_ := t } ∧ d.sec.next = none
      ∧ d.sec.repeating = some (0x10, [e.num + 1] ++ beBytes 64 (Config.freeBits s.free 512).toNat ++ stampBytes t)
      ∧ d.sec.cur = c.sec.cur ∧ d.sec.prev = c.sec.prev ∧ Sent 2 c d ∧ Kept [.sec, .line] c d))
  ∧ (∀ (s : State) (ch : Fin 8) (h : SealHdr) (num : BitVec 8) (rA : BitVec 512) (sec : BitVec 48) (ns : BitVec 32) (e : Epoch) (t : Instant),
    InLife s ch → Opens (s.chan ch) 2 h → (s.chan ch).isA = false → (s.chan ch).sec.cur = some e → instantOf sec ns = some t →
    (num ≠ e.num + 1 → ChangesFree (.kaRekey ch h num rA sec ns) s ch 1 fun c d => d.sec.rekey = c.sec.rekey ∧ d.sec.next = c.sec.next
      ∧ Kept [.sec, .line] c d)
    ∧ (num = e.num + 1 → (s.chan ch).sec.rekey = none → ChangesFree (.kaRekey ch h num rA sec ns) s ch 1 fun c d =>
      let rB := Config.freeBits s.free 512
      let at_ := if c.isAligned then t else c.now + 10000000
      d.sec.rekey = some ⟨num, rA, rB, at_, 2⟩ ∧ d.sec.next = none ∧ d.sec.phase = .rekeying ∧ d.sec.cur = c.sec.cur
      ∧ d.sec.answer = some (0x11, [num] ++ beBytes 64 rB.toNat ++ beBytes 32 (Config.sm2Conf rA rB false).toNat)
      ∧ (vget d.time.slots 0).armed = false ∧ Sent 2 c d ∧ Kept [.sec, .line, .time, .regs] c d)
    ∧ ∀ (r : Rekey) (body : List Byte), num = e.num + 1 → (s.chan ch).sec.rekey = some r → r.rA = rA → (s.chan ch).sec.answer = some (0x11, body) →
      ChangesFree (.kaRekey ch h num rA sec ns) s ch 1 fun c d => d.sec.rekey = c.sec.rekey ∧ Sent 2 c d ∧ Kept [.sec, .line] c d)
  ∧ (∀ (s : State) (ch : Fin 8) (h : SealHdr) (p : BitVec 512) (x : BitVec 256) (e : Epoch) (r : Rekey), InLife s ch →
    Opens (s.chan ch) 2 h → (s.chan ch).isA = true → (s.chan ch).sec.cur = some e → (s.chan ch).sec.rekey = some r → r.stage = 1 →
    (x = Config.sm2Conf r.rA p false → Changes (.kaRekeyB ch h r.num p x) s ch fun c d =>
      d.sec.next = some ⟨r.num, nextSecret e (Config.sm2Key r.rA p), r.at_⟩ ∧ d.sec.rekey = some { r with rB := p, stage := 2 }
      ∧ d.sec.repeating = some (0x12, [r.num] ++ beBytes 32 (Config.sm2Conf r.rA p true).toNat) ∧ d.sec.cur = c.sec.cur
      ∧ (vget d.time.slots 0).armed = true ∧ (vget d.time.slots 0).at_ = r.at_ ∧ Sent 2 c d ∧ Kept [.sec, .line, .time, .regs, .evr] c d)
    ∧ (x ≠ Config.sm2Conf r.rA p false → Changes (.kaRekeyB ch h r.num p x) s ch fun c d =>
      d.sec.rekey = none ∧ d.sec.next = none ∧ d.sec.cur = c.sec.cur ∧ d.sec.holdUs = some (c.us + 1000000) ∧ Sent 2 c d
      ∧ d.reg 0xA00090 = satAdd (c.reg 0xA00090) 1 ∧ d.reg 0xA00094 = satAdd (c.reg 0xA00094) 1 ∧ Kept [.sec, .line, .time, .regs, .evr] c d))
  ∧ (∀ (s : State) (ch : Fin 8) (h : SealHdr) (x : BitVec 256) (e : Epoch) (r : Rekey), InLife s ch → Opens (s.chan ch) 2 h →
    (s.chan ch).isA = false → (s.chan ch).sec.cur = some e → (s.chan ch).sec.rekey = some r → (s.chan ch).sec.next = none →
    (x = Config.sm2Conf r.rA r.rB true → Changes (.kaRekeyFin ch h r.num x) s ch fun c d =>
      d.sec.next = some ⟨r.num, nextSecret e (Config.sm2Key r.rA r.rB), r.at_⟩ ∧ d.sec.cur = c.sec.cur
      ∧ (vget d.time.slots 0).armed = true ∧ (vget d.time.slots 0).at_ = r.at_ ∧ Kept [.sec, .line, .time, .regs, .evr] c d)
    ∧ (x ≠ Config.sm2Conf r.rA r.rB true → Changes (.kaRekeyFin ch h r.num x) s ch fun c d =>
      d.sec.rekey = none ∧ d.sec.next = none ∧ d.sec.cur = c.sec.cur ∧ Sent 2 c d ∧ d.reg 0xA00090 = satAdd (c.reg 0xA00090) 1
      ∧ d.reg 0xA00094 = satAdd (c.reg 0xA00094) 1 ∧ Kept [.sec, .line, .time, .regs, .evr] c d))
  ∧ (∀ (s : State) (ch : Fin 8) (e : Epoch) (r : Rekey), InLife s ch → s.hub.boot.sealed = true → (s.chan ch).boot.phase = 7 →
    (s.chan ch).boot.recov = none → (s.chan ch).isA = true → (s.chan ch).sec.cur = some e → (s.chan ch).sec.next = none →
    (s.chan ch).sec.rekey = some r → r.at_ ≤ (s.chan ch).now → (s.chan ch).sec.rekeyFails < 2 → (s.chan ch).line.state ≠ .up →
    ChangesFree (.keyRolloverInstant ch) s ch 1 fun c d =>
      d.sec.rekey = some { num := e.num + 1, rA := Config.freeBits s.free 512, at_ := c.now + 4 * c.rttNs + 20000000 }
      ∧ d.sec.phase = .rekeying ∧ d.sec.rekeyFails = c.sec.rekeyFails + 1 ∧ d.sec.cur = c.sec.cur ∧ d.sec.next = none
      ∧ d.reg 0xA00090 = satAdd (c.reg 0xA00090) 1 ∧ (vget d.line.tribs 2).tx.length = (vget c.line.tribs 2).tx.length + 2
      ∧ ({ ev := .secRekeyFail, plane := .control } : Raised) ∈ d.evr.input ∧ Kept [.sec, .line, .time, .regs, .evr] c d)
  ∧ (∀ (s : State) (ch : Fin 8), InLife s ch →
    let c := s.chan ch
    let stops := c.sec.cur.isSome = true ∧ c.sec.stop = false
      ∧ (2 ^ c.rollLog ≤ c.sec.txBytes ∨ fld (c.reg 0xA00004) 29 22 * 60000 + 60000 ≤ c.ms - c.sec.actMs)
    (¬stops → Changes (.rollLimitStop ch) s ch fun c d => d = c)
    ∧ (stops → Changes (.rollLimitStop ch) s ch fun c d =>
      d.sec = { c.sec with stop := true } ∧ d.mayEncrypt = false ∧ d.reg 0xA000A4 = satAdd (c.reg 0xA000A4) 1
      ∧ d.evr.input = c.evr.input ++ [{ ev := .secLimitStop, plane := .control }] ∧ Kept [.sec, .regs, .evr] c d))
  ∧ (∀ (s : State) (ch : Fin 8), InLife s ch →
    Changes (.rngTestFail ch) s ch (fun c d =>
      d.sec = { c.sec with rngOk := false, rngFailUs := some c.us } ∧ d.reg 0xA000A8 = satAdd (c.reg 0xA000A8) 1
      ∧ d.evr.input = c.evr.input ++ [{ ev := .secRngFail, plane := .control }] ∧ Kept [.sec, .regs, .evr] c d)
    ∧ Changes (.rngTestPass ch) s ch (fun c d => d = { c with sec := { c.sec with rngOk := true, rngFailUs := none, rngStop := false } })
    ∧ ((∀ t : Nat, (s.chan ch).sec.rngFailUs = some t → (s.chan ch).us ≤ t + 1000000) → Changes (.rngMaskExpire ch) s ch fun c d => d = c)
    ∧ ∀ t : Nat, (s.chan ch).sec.rngFailUs = some t → t + 1000000 < (s.chan ch).us →
      Changes (.rngMaskExpire ch) s ch fun c d => d = { c with sec := { c.sec with rngStop := true } } ∧ d.mayEncrypt = false)
  ∧ (∀ (s : State) (ch : Fin 8) (h : SealHdr) (num : BitVec 8) (txseq : BitVec 48) (e : Epoch), InLife s ch → (s.chan ch).sec.cur = some e →
    tsAfter ((txseq.toNat + tsMod - 1) % tsMod) (s.chan ch).line.highest = false →
    (Opens (s.chan ch) 2 h → num = e.num → Changes (.kaResume ch h num txseq) s ch fun c d => Sent 2 c d ∧ d.sec.cur = c.sec.cur
      ∧ d.sec.phase = c.sec.phase ∧ Kept [.sec, .line] c d)
    ∧ (Opens (s.chan ch) 2 h → num ≠ e.num → (∃ p : EpochKeys, (s.chan ch).sec.prev = some p ∧ p.num = num) →
      Changes (.kaResume ch h num txseq) s ch fun c d => (vget d.line.tribs 2).tx = (vget c.line.tribs 2).tx ∧ d.sec.cur = c.sec.cur
        ∧ Kept [.sec, .line] c d)
    ∧ (secHolds (s.chan ch).sec h = false ∨ h.tagOk = false → Changes (.kaResume ch h num txseq) s ch fun c d =>
      AgreementEnds 0x0A c d ∧ Sent 2 c d ∧ ({ ev := .secResumeFail, plane := .control } : Raised) ∈ d.evr.input))
  ∧ (∀ (s : State) (ch : Fin 8) (h : SealHdr) (num : BitVec 8) (txseq : BitVec 48) (e : Epoch) (t : Nat), InLife s ch → Opens (s.chan ch) 2 h →
    (s.chan ch).sec.resumeUs = some t → (s.chan ch).sec.cur = some e → tsAfter ((txseq.toNat + tsMod - 1) % tsMod) (s.chan ch).line.highest = false →
    (num = e.num → (s.chan ch).boot.recov = none → Changes (.kaResumeAck ch h num txseq) s ch fun c d =>
      d.sec.resumeUs = none ∧ d.sec.cur = c.sec.cur ∧ d.sec.phase = (if c.sec.rekey.isSome then .rekeying else .service)
      ∧ ({ ev := .secResume, plane := .control } : Raised) ∈ d.evr.input ∧ Kept [.sec, .line, .evr] c d)
    ∧ (num = e.num → (s.chan ch).boot.phase = 8 → (s.chan ch).sec.rekey = none → ∀ r, (s.chan ch).boot.recov = some r → r.step = 9 →
      Changes (.kaResumeAck ch h num txseq) s ch fun c d => d.sec.resumeUs = none ∧ d.boot.phase = 7 ∧ d.boot.recov = none ∧ d.sec.cur = c.sec.cur)
    ∧ (num ≠ e.num → Changes (.kaResumeAck ch h num txseq) s ch fun c d => d.sec.resumeUs = some t ∧ d.boot = c.boot ∧ Kept [.sec, .line] c d))
  ∧ ∀ (s : State) (ch : Fin 8), InLife s ch →
    ((∀ t : Nat, (s.chan ch).sec.resumeUs = some t → (s.chan ch).us ≤ t + 2 * (s.chan ch).rttUs + 100000) →
      Changes (.resumeTimeout ch) s ch fun c d => d = c)
    ∧ ∀ t : Nat, (s.chan ch).sec.resumeUs = some t → t + 2 * (s.chan ch).rttUs + 100000 < (s.chan ch).us →
      Changes (.resumeTimeout ch) s ch fun c d => AgreementEnds 0x0A c d ∧ Sent 2 c d
        ∧ ({ ev := .secResumeFail, plane := .control } : Raised) ∈ d.evr.input

/-! ### Provenance and attestation -/

/-- There is room for a record in the provenance store without an overrun (R423, R424). -/
def Sys2Proof.Safety.RoomForRecord (c : Chan) : Prop := 0 < c.provCap ∧ c.prov.wr < c.prov.rel + c.provCap

/-- The next record of the provenance store is `bs` (R422, R423). -/
def Sys2Proof.Safety.Recorded (bs : List Byte) (c d : Chan) : Prop :=
  d.prov.wr = c.prov.wr + 1 ∧ d.prov.rel = c.prov.rel ∧ cget? d.prov.store (c.prov.wr % c.provCap) = some bs
  ∧ ∀ k : Nat, k ≠ c.prov.wr % c.provCap → cget? d.prov.store k = cget? c.prov.store k

/-- The provenance chain: CAIRN_WRITE appends the oldest queued cairn, with its INDEX and the digest of the cairn before it, and moves the
chain's head on; a COMMIT or VOID moves the span digest on too (R410–R413). An OPEN begins a chain anew; a record that the chain before still waits for is
written ahead of it (the model's order, log entry 170). A chain whose oldest unsigned cairn is SIGN_S old asks for a record (R414); the record has R415's layout, a zero signature where the domain cannot sign (R416), and covers up to the trigger.
SPAN_HEAD is compared as R420 orders; a verified SIG_HEAD is stored (R419); a pending head older than PEND_S is dropped (R420). REL_CNT
moves only up, to WR_CNT at most (R428). The domain can sign while its noise source is sound (log entry 32); the digest and the
signature are opaque functions (log entry 21). -/
def Obligations.ProvenanceChain : Prop :=
  (∀ (s : State) (ch : Fin 8), InPath s ch →
    ((s.chan ch).memUp = false ∨ (s.chan ch).prov.queue = [] → Changes (.cairnWrite ch) s ch fun c d => d = c)
    ∧ ∀ (x : Cairn) (rest : List Cairn) (h : Chain), (s.chan ch).memUp = true → (s.chan ch).prov.queue = x :: rest → (s.chan ch).prov.backlog = [] →
      (s.chan ch).prov.pending = [] → RoomForRecord (s.chan ch) → cget? (s.chan ch).prov.chains x.slot = some h → h.unsigned < 1023 →
      let drift := (cget? (s.chan ch).part.drifts x.slot).isSome
      (x.kind ∈ [1, 2, 3, 7] → Changes (.cairnWrite ch) s ch fun c d =>
        let bs := cairnBytes x drift h.next h.head
        d.prov.queue = rest ∧ Recorded bs c d ∧ d.reg 0xB00040 = satAdd (c.reg 0xB00040) 1
        ∧ cget? d.prov.chains x.slot = some { h with
            next := h.next + 1, head := sm3Bytes bs, unsigned := h.unsigned + 1, oldestMs := if h.unsigned = 0 then c.ms else h.oldestMs
            laterMs := if h.trig ≠ 0 ∧ h.next ≠ h.trigLast + 1 then h.laterMs else c.ms }
        ∧ (∀ k : Nat, k ≠ x.slot → cget? d.prov.chains k = cget? c.prov.chains k)
        ∧ (x.kind = 3 ∨ x.kind = 7 → d.prov.spans = c.prov.spans)
        ∧ (∀ sp : Span, x.kind = 1 ∨ x.kind = 2 → (c.prov.spans.find? fun p => p.slot == x.slot && p.comm == x.comm) = some sp →
            (d.prov.spans.find? fun p => p.slot == x.slot && p.comm == x.comm).map Span.digest = some (spanNext sp.digest bs))
        ∧ Kept [.prov, .regs, .line, .sec, .evr] c d)
      ∧ (x.kind = 5 →
        let bs := cairnBytes x drift 0 (List.replicate 32 0)
        let opened (d : Chan) : Prop := ∃ y : Chain, cget? d.prov.chains x.slot = some y ∧ y.next = 1 ∧ y.head = sm3Bytes bs ∧ y.job = x.job
        (h.trig = 0 → Changes (.cairnWrite ch) s ch fun c d =>
          Recorded bs c d ∧ opened d ∧ d.prov.spans = c.prov.spans ∧ Kept [.prov, .regs] c d)
        ∧ (h.trig ≠ 0 → (s.chan ch).prov.wr + 1 < (s.chan ch).prov.rel + (s.chan ch).provCap → Changes (.cairnWrite ch) s ch fun c d =>
          opened d ∧ d.prov.wr = c.prov.wr + 2 ∧ cget? d.prov.store ((c.prov.wr + 1) % c.provCap) = some bs
          ∧ d.reg 0xB00040 = satAdd (c.reg 0xB00040) 1 ∧ d.reg 0xB00044 = satAdd (c.reg 0xB00044) 1
          ∧ d.prov.spans = c.prov.spans ∧ Kept [.prov, .regs, .line, .sec, .evr] c d))
      ∧ (x.kind = 6 → Changes (.cairnWrite ch) s ch fun c d =>
        let bs := cairnBytes { x with data := h.head } drift h.next h.head
        Recorded bs c d ∧ (∃ y : Chain, cget? d.prov.chains x.slot = some y ∧ y.head = sm3Bytes bs ∧ bitOf y.trig 4 = true ∧ y.trigLast = h.next)
        ∧ Kept [.prov, .regs] c d))
  ∧ (∀ (s : State) (ch : Fin 8) (k : Nat) (h : Chain), InPath s ch → (s.chan ch).prov.chains = [(k, h)] →
    let due := h.unsigned ≠ 0 ∧ bitOf h.trig 1 = false ∧ h.oldestMs + fld ((s.chan ch).reg 0xB00004) 31 24 * 1000 < (s.chan ch).ms
    (¬due → Changes (.signAgeExpire ch) s ch fun c d => d = c)
    ∧ (due → h.next ≠ 0 → Changes (.signAgeExpire ch) s ch fun c d =>
      d = { c with prov := { c.prov with chains := [(k, { h with trig := putBit h.trig 1 true, trigLast := h.next - 1, trigHead := h.head })] } }))
  ∧ (∀ (s : State) (ch : Fin 8) (k : Fin 16), InPath s ch →
    ((s.chan ch).memUp = false ∨ (∀ h : Chain, cget? (s.chan ch).prov.chains k = some h → h.trig = 0) →
      Changes (.signatureRecordWrite ch k) s ch fun c d => d = c)
    ∧ ∀ (h : Chain) (e : Epoch), (s.chan ch).memUp = true → cget? (s.chan ch).prov.chains k = some h → h.trig ≠ 0 → RoomForRecord (s.chan ch) →
      (s.chan ch).line.state = .up → (s.chan ch).sec.cur = some e →
      Changes (.signatureRecordWrite ch k) s ch fun c d =>
        let body := [c.cfg.site, h.trig] ++ beBytes 4 h.job ++ beBytes 4 h.first ++ beBytes 4 h.trigLast ++ stampBytes c.now ++ beBytes 6 0 ++ h.trigHead
        let sig := if c.sec.rngOk then beBytes 64 (Config.sm2Sign c.cfg.coord.toNat (ascii "SZ8-CAIRN" ++ body)).toNat else List.replicate 64 0
        let bs := beBytes 1 0x10 ++ beBytes 1 k ++ body ++ sig
        let closed := bitOf h.trig 4 = true ∧ h.next = h.trigLast + 1
        Recorded bs c d ∧ d.prov.lastSig = bs ∧ d.reg 0xB00044 = satAdd (c.reg 0xB00044) 1 ∧ Sent 3 c d
        ∧ (¬closed → h.trigLast < h.next → ∃ y : Chain, cget? d.prov.chains k = some y ∧ y.trig = 0 ∧ y.lastSigned = h.trigLast ∧ y.next = h.next ∧ y.oldestMs = h.laterMs
            ∧ y.head = h.head ∧ y.unsigned = h.next - (h.trigLast + 1) ∧ y.first = if c.sec.rngOk then h.trigLast + 1 else h.first)
        ∧ (closed → cget? d.prov.chains k = none)
        ∧ (c.sec.rngOk = false → ({ ev := .provSignFail, slot := k.val } : Raised) ∈ d.evr.input)
        ∧ Kept [.prov, .regs, .line, .sec, .evr] c d)
  ∧ (∀ (s : State) (ch : Fin 8) (h : SealHdr) (b : SpanHead) (bs : List Byte), InPath s ch → ¬Opens (s.chan ch) 3 h →
    Changes (.spanHead ch h b) s ch (fun c d => d.reg 0xA00088 = satAdd (c.reg 0xA00088) 1 ∧ Kept [.line, .regs, .evr] c d)
    ∧ Changes (.sigHead ch h bs) s ch (fun c d => d.reg 0xA00088 = satAdd (c.reg 0xA00088) 1 ∧ Kept [.line, .regs, .evr] c d))
  ∧ (∀ (s : State) (ch : Fin 8) (h : SealHdr) (b : SpanHead), InPath s ch → Opens (s.chan ch) 3 h →
    ((s.chan ch).slotOfJob b.job.toNat = none → Changes (.spanHead ch h b) s ch fun c d =>
      d.reg 0xB00054 = satAdd (c.reg 0xB00054) 1 ∧ Kept [.line, .sec, .regs] c d)
    ∧ ∀ (k : Nat) (sp : Span), (s.chan ch).slotOfJob b.job.toNat = some k →
      ((s.chan ch).prov.spans.find? fun (x : Span) => x.slot == k && x.comm == b.comm.toNat) = some sp →
      (∀ dg : List Byte, sp.pairs.find? (fun p => p.1 == b.seq.toNat) = some (b.seq.toNat, dg) →
        (beBytes 32 b.span.toNat = dg → Changes (.spanHead ch h b) s ch fun c d =>
          d.reg 0xB0004C = satAdd (c.reg 0xB0004C) 1 ∧ Kept [.line, .sec, .regs] c d)
        ∧ (beBytes 32 b.span.toNat ≠ dg → Changes (.spanHead ch h b) s ch fun c d =>
          d.reg 0xB00050 = satAdd (c.reg 0xB00050) 1 ∧ bitOf (d.reg 0xB00000) 30 = true
          ∧ (∃ r ∈ d.evr.input, r.ev = .provDiverge ∧ r.slot = k ∧ r.seq = b.seq.toNat)
          ∧ (∀ y : Chain, cget? c.prov.chains k = some y → y.next ≠ 0 → cget? d.prov.chains k = some { y with
              trig := putBit y.trig 3 true, trigLast := y.next - 1, trigHead := y.head })
          ∧ Kept [.line, .sec, .regs, .evr, .fab, .mem, .hlth, .prov] c d))
      ∧ (sp.pairs.find? (fun p => p.1 == b.seq.toNat) = none → sp.pairs.all (fun p => seqLater b.seq.toNat p.1) = true →
        (s.chan ch).prov.pending.length < 1024 → Changes (.spanHead ch h b) s ch fun c d =>
          d.prov = { c.prov with pending := c.prov.pending ++ [(b, c.ms)] } ∧ Kept [.line, .sec, .prov] c d)
      ∧ (sp.pairs.find? (fun p => p.1 == b.seq.toNat) = none → sp.pairs.all (fun p => seqLater b.seq.toNat p.1) = false →
        Changes (.spanHead ch h b) s ch fun c d => d.reg 0xB00054 = satAdd (c.reg 0xB00054) 1 ∧ d.prov = c.prov
          ∧ (∃ r ∈ d.evr.input, r.ev = .provUnmatched ∧ r.slot = k) ∧ Kept [.line, .sec, .regs, .evr, .fab, .mem, .hlth] c d))
  ∧ (∀ (s : State) (ch : Fin 8) (h : SealHdr) (bs : List Byte), InPath s ch → Opens (s.chan ch) 3 h →
    let good := Config.sm2Verify (s.chan ch).sec.peerCert (ascii "SZ8-CAIRN" ++ bs.take 62) (BitVec.ofNat 512 (beAt bs 62 64))
    (good = false → Changes (.sigHead ch h bs) s ch fun c d => d.evr.input = c.evr.input ++ [{ ev := .provPeerSigBad }] ∧ Kept [.line, .sec, .evr] c d)
    ∧ ∀ k : Nat, good = true → (s.chan ch).slotOfJob (beAt bs 2 4) = some k → RoomForRecord (s.chan ch) →
      Changes (.sigHead ch h bs) s ch fun c d => Recorded (beBytes 1 0x11 ++ beBytes 1 k ++ bs.take 126) c d
        ∧ d.reg 0xB00048 = satAdd (c.reg 0xB00048) 1 ∧ Kept [.line, .sec, .prov, .regs] c d)
  ∧ (∀ (s : State) (ch : Fin 8), InPath s ch →
    let late (e : SpanHead × Nat) : Prop := e.2 + fld ((s.chan ch).reg 0xB00004) 23 16 * 1000 < (s.chan ch).ms
    ((∀ e ∈ (s.chan ch).prov.pending, ¬late e) → Changes (.provPendingExpire ch) s ch fun c d => d = c)
    ∧ ∀ e : SpanHead × Nat, (s.chan ch).prov.pending = [e] → late e → Changes (.provPendingExpire ch) s ch fun c d =>
      d.prov = { c.prov with pending := [] } ∧ d.reg 0xB00054 = satAdd (c.reg 0xB00054) 1
      ∧ (∃ r ∈ d.evr.input, r.ev = .provUnmatched ∧ r.seq = e.1.seq.toNat) ∧ Kept [.prov, .regs, .evr, .fab, .mem, .hlth] c d)
  ∧ ∀ (s : State) (ch : Fin 8) (hi : Word), HostUp s →
    let v := hi.toNat * 4294967296 + ((s.chan ch).reg 0xB00010).toNat
    (s.hasWindow ch = false → ∃ t, exec (.relCntWrite ch hi) s = .next t ∧ HostWriteRefused s t .absentUnit (0x2000000 * ch.val + 0xB00014))
    ∧ (s.hasWindow ch = true → v ≤ (s.chan ch).prov.wr → (s.chan ch).prov.rel ≤ v → Changes (.relCntWrite ch hi) s ch fun c d =>
      d.prov = { c.prov with rel := v, overrun := false } ∧ d.reg 0xB00014 = hi ∧ (∀ a : Nat, a ≠ 0xB00014 → d.reg a = c.reg a) ∧ Kept [.prov, .regs] c d)
    ∧ (s.hasWindow ch = true → ¬(v ≤ (s.chan ch).prov.wr ∧ (s.chan ch).prov.rel ≤ v) →
      ∃ t, exec (.relCntWrite ch hi) s = .next t ∧ HostWriteRefused s t .badValue (0x2000000 * ch.val + 0xB00014))

/-- The command makes the SPDM responder answer `r` and change its state by `f`, and changes nothing else. -/
def Sys2Proof.Safety.Answers (i : Instr) (s : State) (f : Spdm → Spdm) (r : SpdmRsp) : Prop :=
  exec i s = .next { s with hub := { s.hub with spdm := { f s.hub.spdm with rsp := r } } }

/-- The SPDM responder: SPDM 1.2 and 1.3, the algorithms of R425, chains in slots 0 and 1, measurements and challenges signed by the hub identity key over the blocks of R426,
and at most four sessions (R562). A request out of order, for an empty slot or an unknown session, or any other request, is answered by
ERROR; the order and the codes are taken from the standard (log entry 50). With the hub lost, in reset, or the link down, no request arrives. -/
def Obligations.SpdmResponder : Prop :=
  ∀ (s : State),
    (s.hub.failed = true ∨ s.hub.host.mode = .down ∨ s.hub.boot.phase = 0 →
      ∀ (i : Instr) (v : BitVec 8) (b : Bool) (k : Fin 8) (o l : BitVec 16) (n : BitVec 256) (on : Option (BitVec 256)) (x : Nat),
        i ∈ [.getVersion, .getCapabilities v, .negotiateAlgorithms b, .getDigests, .getCertificate k o l, .challenge k n, .getMeasurements v on,
          .keyExchange k, .finish x b, .heartbeat x, .endSession x, .spdmUnsupported] → exec i s = .next s)
    ∧ (s.hub.failed = false → s.hub.host.mode ≠ .down → s.hub.boot.phase ≠ 0 →
      let p := s.hub.spdm
      Answers .getVersion s (fun p => { p with stage := 1 }) (.version [0x12, 0x13])
      ∧ (∀ v : BitVec 8, (p.stage = 0 → Answers (.getCapabilities v) s id (.error spdmUnexpected))
        ∧ (p.stage ≠ 0 → v = 0x12 ∨ v = 0x13 → Answers (.getCapabilities v) s (fun p => { p with stage := 2, ver := v }) .capabilities)
        ∧ (p.stage ≠ 0 → v ≠ 0x12 → v ≠ 0x13 → Answers (.getCapabilities v) s id (.error spdmVersion)))
      ∧ (p.stage < 2 → ∀ b : Bool, Answers (.negotiateAlgorithms b) s id (.error spdmUnexpected))
      ∧ (2 ≤ p.stage → Answers (.negotiateAlgorithms true) s (fun p => { p with stage := 3 }) .algorithms
        ∧ Answers (.negotiateAlgorithms false) s id (.error spdmInvalid))
      ∧ (p.stage ≠ 3 → ∀ (i : Instr) (v : BitVec 8) (k : Fin 8) (o l : BitVec 16) (n : BitVec 256) (on : Option (BitVec 256)),
        i ∈ [.getDigests, .getCertificate k o l, .challenge k n, .getMeasurements v on, .keyExchange k] → Answers i s id (.error spdmUnexpected))
      ∧ (p.stage = 3 →
        Answers .getDigests s id (.digests ((if p.slot0 = [] then [] else [(0, Config.sm3 p.slot0)]) ++ if p.slot1 = [] then [] else [(1, Config.sm3 p.slot1)]))
        ∧ (∀ k : Fin 8, s.hub.slotChain k = none → ∀ (i : Instr) (o l : BitVec 16) (n : BitVec 256),
          i ∈ [.getCertificate k o l, .challenge k n, .keyExchange k] → Answers i s id (.error spdmInvalid))
        ∧ (∀ (k : Fin 8) (xs : List Byte) (o l : BitVec 16) (n : BitVec 256), s.hub.slotChain k = some xs →
          Answers (.getCertificate k o l) s id (.certificate k ((xs.drop o.toNat).take l.toNat))
          ∧ Answers (.challenge k n) s id (.challengeAuth k n (hubSign (beBytes 32 n.toNat ++ blockBytes s.measurements)))
          ∧ (4 ≤ p.openS.length + p.pendingS.length → Answers (.keyExchange k) s id (.error spdmSessions))
          ∧ (p.openS.length + p.pendingS.length < 4 →
            Answers (.keyExchange k) s (fun p => { p with pendingS := p.pendingS ++ [p.nextS], nextS := p.nextS + 1 }) (.keyExchange p.nextS)))
        ∧ (∀ (x : BitVec 8) (on : Option (BitVec 256)),
          let ms := s.measurements.filter fun m => x = 0xFF || m.1 == x.toNat
          (ms = [] → Answers (.getMeasurements x on) s id (.error spdmInvalid))
          ∧ (ms ≠ [] → Answers (.getMeasurements x on) s id (.measurements ms (on.map fun n => hubSign (beBytes 32 n.toNat ++ blockBytes ms))))))
      ∧ (∀ x : Nat,
        (x ∈ p.pendingS →
          Answers (.finish x true) s (fun p => { p with pendingS := p.pendingS.filter (fun y => decide (y ≠ x)), openS := p.openS ++ [x] }) .finish
          ∧ Answers (.finish x false) s (fun p => { p with pendingS := p.pendingS.filter fun y => decide (y ≠ x) }) (.error spdmDecrypt))
        ∧ (x ∉ p.pendingS → ∀ b : Bool, Answers (.finish x b) s id (.error spdmUnexpected))
        ∧ (x ∈ p.openS → Answers (.heartbeat x) s id .heartbeat
          ∧ Answers (.endSession x) s (fun p => { p with openS := p.openS.filter fun y => decide (y ≠ x) }) .endSession)
        ∧ (x ∉ p.openS → Answers (.heartbeat x) s id (.error spdmUnexpected) ∧ Answers (.endSession x) s id (.error spdmUnexpected)))
      ∧ Answers .spdmUnsupported s id (.error spdmUnsupported))

/-! ### Time -/

/-- The time unit of a channel follows MODULE alone, an update of it is due, and neither a peer nor a loop comes into it. -/
def Sys2Proof.Safety.OnModule (s : State) (ch : Fin 8) : Prop :=
  let c := s.chan ch
  s.present ch = true ∧ c.crystal = false ∧ c.timeSrc = .module ∧ c.timeAlt = .none ∧ c.time.pairsX = [] ∧ c.peerSrc ≠ .peer
  ∧ c.time.unit.updMs + 64 ≤ c.ms

/-- Time of a channel. A time frame's mark is kept with its arrival at the pigtail, and gives a provisional alignment by a step before the first LOCKED
(R444, R449; where the sealed delays apply is the model's reading, log entry 173); the stamps of an accepted TS of the mode in use complete
pairs (R445, R446, R450). An update while LOCKED slews a small offset, steps a large forward one, and holds
over at more than 1 s or after three void updates (R439, R440); ACQUIRE ends in LOCKED after 64 small offsets, FREERUN in ACQUIRE after
16 non-void ones (R439). The jump waits for ACCEPT_JUMP, and is a step (R440); in the window of an absent channel
that write is refused (R7). TIME_SYNC goes to the valid subscribers at slot 14, and TIME_DREQ is
answered only for one (R456, R457). Slots and roundings are the model's (log entries 70, 122, 123). -/
def Obligations.ChannelTime : Prop :=
  (∀ (s : State) (ch : Fin 8) (f : TimeFrame), InPath s ch →
    (f.crcOk = false → Changes (.timeFrame ch f) s ch fun c d => d = c)
    ∧ (f.crcOk = true → f.rxStamp = none → Changes (.timeFrame ch f) s ch fun c d =>
      let at_ := c.atPigtail f
      let k := markNo f.mark (at_ / 65536000000)
      d.time.laneUs = c.us ∧ d.time.peerState = c.time.peerState ∧ d.time.unit = c.time.unit
      ∧ d.time.frameMode = (c.time.frameMode && !c.timeEn)
      ∧ (f.pos36 = true → d.time.lane36 = true ∧ d.time.arr36 = keepMarks (cput c.time.arr36 k at_) ∧ d.time.arr37 = c.time.arr37)
      ∧ (f.pos36 = false → d.time.lane37 = true ∧ d.time.arr37 = keepMarks (cput c.time.arr37 k at_) ∧ d.time.arr36 = c.time.arr36)
      ∧ d.time.slots = c.time.slots ∧ Kept [.time] c d)
    ∧ ∀ t3 t4 : Fine, f.crcOk = true → f.pos36 = true → f.rxStamp = some t4 →
      cget? (s.chan ch).time.deps (markNo f.rxMark ((s.chan ch).atPigtail f / 65536000000)) = some t3 →
      (s.chan ch).timeSrc = .peer → (s.chan ch).time.aligned = false → (s.chan ch).time.unit.everLocked = false → (s.chan ch).time.lane37 = true →
      Changes (.timeFrame ch f) s ch fun c d =>
        let th := (pairDiff ⟨markTime f.mark t4, c.atPigtail f, t3, t4⟩ - asymFine c.opt.d0 c.opt.slope) / 2
        d.time.aligned = true ∧ (d.time.unit.now : Int) = max 0 ((c.time.unit.now : Int) - th) ∧ d.time.unit.state = c.time.unit.state
        ∧ Kept [.time, .regs, .evr] c d)
  ∧ (∀ (s : State) (ch : Fin 8), InPath s ch →
    let ms := (s.chan ch).time.unit.now / (1000000 * 65536)
    let ready := (s.chan ch).timeEn = true ∧ (s.chan ch).opt.tlTx = true ∧ (s.chan ch).time.sentMark < ms
    (¬ready → Changes (.timeFrameSend ch) s ch fun c d => d = c)
    ∧ (ready → Changes (.timeFrameSend ch) s ch fun c d => d = { c with time := { c.time with
      sentMark := ms, deps := keepMarks (cput c.time.deps ms (ms * (1000000 * 65536))) } }))
  ∧ (∀ (s : State) (ch : Fin 8) (h : SealHdr) (b : TsBody), InPath s ch →
    (¬Opens (s.chan ch) 1 h → Changes (.ts ch h b) s ch fun c d => d.reg 0xA00088 = satAdd (c.reg 0xA00088) 1 ∧ Kept [.line, .regs, .evr] c d)
    ∧ (Opens (s.chan ch) 1 h → b.count = 0 ∨ 16 < b.count.toNat ∨ b.entries.length ≠ b.count.toNat →
      Changes (.ts ch h b) s ch fun c d => Kept [.line, .sec] c d)
    ∧ (Opens (s.chan ch) 1 h → 1 ≤ b.count.toNat → b.count.toNat ≤ 16 → b.entries.length = b.count.toNat →
      b.mode ≠ (if (s.chan ch).time.frameMode then 2 else 1) → Changes (.ts ch h b) s ch fun c d =>
        d.time = { c.time with peerState := b.state, peerUnc := b.unc } ∧ Kept [.line, .sec, .time] c d)
    ∧ ∀ (e : TsEntry) (t1 t2 t3 t4 : Fine), Opens (s.chan ch) 1 h → b.count = 1 → b.entries = [e] → (s.chan ch).time.aligned = true →
      (s.chan ch).time.frameMode = false → b.mode = 1 → e.dep = some t1 → e.arr37 = some t4 → e.arr36 = none →
      let k := markNo b.firstMark (s.chan ch).markRef
      cget? (s.chan ch).time.arr36 k = some t2 → cget? (s.chan ch).time.deps k = some t3 → Changes (.ts ch h b) s ch fun c d =>
        d.time = { c.time with peerState := b.state, peerUnc := b.unc, pairsX := c.time.pairsX ++ [⟨t1, t2, t3, t4⟩] } ∧ Kept [.line, .sec, .time] c d)
  ∧ (∀ (s : State) (ch : Fin 8) (e : Epoch), InPath s ch → (s.chan ch).sec.cur = some e →
    ((s.chan ch).time.deps = [] ∨ (s.chan ch).ms < (s.chan ch).time.tsMs + 16 → Changes (.tsSend ch) s ch fun c d => d = c)
    ∧ ((s.chan ch).time.deps ≠ [] → (s.chan ch).time.tsMs + 16 ≤ (s.chan ch).ms → Changes (.tsSend ch) s ch fun c d =>
      d.time = { c.time with tsMs := c.ms } ∧ Sent 1 c d ∧ Kept [.line, .sec, .time] c d))
  ∧ (∀ (s : State) (ch : Fin 8) (m : Option Int), s.present ch = true → (s.chan ch).ms < (s.chan ch).time.unit.updMs + 64 →
    Changes (.timeUpdate (some ch) m) s ch fun c d => d = c)
  ∧ (∀ (s : State) (ch : Fin 8) (th : Int), OnModule s ch → (s.chan ch).time.unit.state = .locked → (s.chan ch).time.unit.src = .module →
    (s.chan ch).time.unit.everLocked = true →
    let stepTh : Int := fld ((s.chan ch).reg 0xC00004) 19 8 * 65536000
    (-stepTh ≤ th → th ≤ 65536000000000 → -65536000000000 ≤ th → Changes (.timeUpdate (some ch) (some th)) s ch fun c d =>
      d.time.unit.state = .locked ∧ d.time.unit.slew = th ∧ d.time.unit.offset = th ∧ d.time.unit.now = c.time.unit.now ∧ d.time.unit.voidRun = 0
      ∧ d.time.unit.unc = s.hub.gtime.unit.unc.map (fun n => n + 77) ∧ d.time.slots = c.time.slots ∧ Kept [.time] c d)
    ∧ (th < -stepTh → -65536000000000 ≤ th → th ≤ 65536000000000 → Changes (.timeUpdate (some ch) (some th)) s ch fun c d =>
      d.time.unit.state = .locked ∧ (d.time.unit.now : Int) = c.time.unit.now - th ∧ d.time.unit.slew = 0 ∧ d.reg 0xC00088 = satAdd (c.reg 0xC00088) 1
      ∧ ({ ev := .timeStep, plane := .control } : Raised) ∈ d.evr.input ∧ Kept [.time, .regs, .evr] c d)
    ∧ (65536000000000 < th ∨ th < -65536000000000 → Changes (.timeUpdate (some ch) (some th)) s ch fun c d =>
      d.time.unit.state = .holdover ∧ d.time.unit.jump = some th ∧ d.time.unit.now = c.time.unit.now ∧ d.time.unit.src = .none
      ∧ d.reg 0xC0008C = satAdd (c.reg 0xC0008C) 1 ∧ ({ ev := .timeJump, plane := .control } : Raised) ∈ d.evr.input ∧ Kept [.time, .regs, .evr] c d)
    ∧ ((s.chan ch).time.unit.voidRun < 2 → Changes (.timeUpdate (some ch) none) s ch fun c d =>
      d.time.unit.state = .locked ∧ d.time.unit.voidRun = c.time.unit.voidRun + 1 ∧ d.time.unit.now = c.time.unit.now
      ∧ d.reg 0xC00090 = satAdd (c.reg 0xC00090) 1 ∧ Kept [.time, .regs] c d)
    ∧ (2 ≤ (s.chan ch).time.unit.voidRun → Changes (.timeUpdate (some ch) none) s ch fun c d =>
      d.time.unit.state = .holdover ∧ d.time.unit.now = c.time.unit.now ∧ d.time.unit.holdSinceMs = c.ms
      ∧ d.reg 0xC00090 = satAdd (c.reg 0xC00090) 1 ∧ d.reg 0xC0008C = satAdd (c.reg 0xC0008C) 1
      ∧ ({ ev := .timeHoldover, plane := .control } : Raised) ∈ d.evr.input ∧ Kept [.time, .regs, .evr] c d))
  ∧ (∀ (s : State) (ch : Fin 8) (th : Int), OnModule s ch → (s.chan ch).time.unit.everLocked = false →
    let small := th < fld ((s.chan ch).reg 0xC00004) 27 20 * 65536 / 10 ∧ -(fld ((s.chan ch).reg 0xC00004) 27 20 * 65536 / 10 : Nat) < th
    ((s.chan ch).time.unit.state = .acquire → (s.chan ch).time.unit.src = .module → Changes (.timeUpdate (some ch) (some th)) s ch fun c d =>
      let u := d.time.unit
      (u.now : Int) = max 0 ((c.time.unit.now : Int) - th) ∧ u.src = .module
      ∧ (small → u.lockRun = c.time.unit.lockRun + 1 ∧ (63 ≤ c.time.unit.lockRun → u.state = .locked ∧ u.everLocked = true)
          ∧ (c.time.unit.lockRun < 63 → u.state = .acquire ∧ u.unc = none))
      ∧ (¬small → u.lockRun = 0 ∧ u.state = .acquire ∧ u.unc = none) ∧ Kept [.time, .regs, .evr] c d)
    ∧ ((s.chan ch).time.unit.state = .freerun → Changes (.timeUpdate (some ch) (some th)) s ch fun c d =>
      let u := d.time.unit
      u.primRun = c.time.unit.primRun + 1 ∧ u.everLocked = false ∧ u.unc = none
      ∧ (15 ≤ c.time.unit.primRun → u.state = .acquire ∧ u.src = .module ∧ (u.now : Int) = max 0 ((c.time.unit.now : Int) - th))
      ∧ (c.time.unit.primRun < 15 → u.state = .freerun ∧ u.now = c.time.unit.now) ∧ Kept [.time, .regs, .evr] c d))
  ∧ (∀ (s : State) (ch : Fin 8), InLife s ch →
    let enter := ((s.chan ch).timeEn = false ∨ (s.chan ch).time.laneUs + 1000000 < (s.chan ch).us) ∧ (s.chan ch).time.frameMode = false
    (¬enter → Changes (.frameModeEntry ch) s ch fun c d => d = c)
    ∧ (enter → Changes (.frameModeEntry ch) s ch fun c d => d = { c with time := { c.time with
        frameMode := true, lane36 := false, lane37 := false, deps := [], arr36 := [], arr37 := [], pairsX := [], pairsY := [] } }))
  ∧ (∀ (s : State) (ch : Fin 8), HostUp s → s.hasWindow ch = false →
    ∃ t, exec (.acceptJump ch) s = .next t ∧ HostWriteRefused s t .absentUnit (0x2000000 * ch.val + 0xC00008))
  ∧ (∀ (s : State) (ch : Fin 8), s.hasWindow ch = true →
    ((s.chan ch).boot.phase = 0 ∨ (s.chan ch).time.unit.jump = none → Changes (.acceptJump ch) s ch fun c d => d = c)
    ∧ (∀ th : Int, (s.chan ch).boot.phase ≠ 0 → (s.chan ch).time.unit.jump = some th → Changes (.acceptJump ch) s ch fun c d =>
      (d.time.unit.now : Int) = max 0 ((c.time.unit.now : Int) - th) ∧ d.time.unit.jump = none ∧ d.time.unit.primRun = 0 ∧ d.time.unit.altRun = 0
      ∧ d.reg 0xC00088 = satAdd (c.reg 0xC00088) 1
      ∧ d.time.unit.state = c.time.unit.state ∧ Kept [.time, .regs, .evr] c d)
    ∧ Changes (.nowLatch (some ch)) s ch fun c d => d = { c with time := { c.time with
      latchHi := BitVec.ofNat 16 (c.now / 1000000000 / 4294967296), latchNs := BitVec.ofNat 32 (c.now % 1000000000) } })
  ∧ (∀ (s : State) (ch : Fin 8) (resid : Vector (BitVec 64) 8) (x : Coord) (port : Nat), InPath s ch →
    ((s.chan ch).due 14 = false → Changes (.timeSync ch resid) s ch fun c d => d = c)
    ∧ ((s.chan ch).due 14 = true → (s.chan ch).freePort = some port → port < 4 → (s.chan ch).subscriber 0 = some x →
      (∀ k : Nat, 0 < k → k < 8 → (s.chan ch).subscriber k = none) → Changes (.timeSync ch resid) s ch fun c d =>
      (∃ p : Packet, (d.port port).txq = (c.port port).txq ++ [p] ∧ p.kind = 1 ∧ p.dest = x ∧ p.src = c.cfg.coord
        ∧ p.payload = beBytes 2 0x0500 ++ beBytes 6 0 ++ timeBody c.time.unit c.uncNow c.time.unit.now (corrSum 0 (vget resid 0)))
      ∧ (vget d.time.slots 14).fired = true ∧ Kept [.time, .fab, .regs] c d))
  ∧ ∀ (s : State) (ch : Fin 8) (e : CtlEnv) (corr resid : BitVec 64) (arrival port : Nat), InPath s ch →
    let known := (s.chan ch).cfg.cpList.contains e.src = true ∧ ∃ k : Nat, k < 8 ∧ (s.chan ch).subscriber k = some e.src
    (known → (s.chan ch).freePort = some port → port < 4 → Changes (.timeDreq ch e corr arrival resid) s ch fun c d =>
      (∃ p : Packet, (d.port port).txq = (c.port port).txq ++ [p] ∧ p.kind = 1 ∧ p.dest = e.src
        ∧ p.payload = envBytes 0x0502 e ++ timeBody c.time.unit c.uncNow arrival (corrSum corr resid)) ∧ Kept [.ctrl, .fab, .regs] c d)
    ∧ (¬known → (s.chan ch).hubLost = false → Changes (.timeDreq ch e corr arrival resid) s ch fun c d =>
      (∃ v : Viol, d.viols = c.viols ++ [v] ∧ v.source = .fabric ∧ v.kind = .inbandRule ∧ v.coord = e.src) ∧ Kept [.ctrl, .viols] c d)

/-- Module time and the time pins. Module time follows PPS_IN, or a channel that is LOCKED (R452); the armed second takes effect at the next
edge, and an edge more than 1 µs off is ignored and counted (R453); before the first such second no edge counts (the model's, log entry 171).
PPS_OUT rises once a second (R454); captures are queued, 16 per input, and an edge within 1 µs of the one before is ignored (R455); a global slot is armed from its words, late at once, and drives its pin or raises TIME_GTRIG when it fires (R458, R459,
R462, R467), after the channels' slots and the lower global ones of its instant (R460). Nothing happens once the hub has failed (R21). Module time takes LOCK_TH and STEP_US from the reset value of TIME.CFG (log
entry 24). -/
def Obligations.ModuleTimeAndPins : Prop :=
  (∀ (s : State) (i : Instr) (t : Nat) (hi : BitVec 16) (k : Fin 4) (j : Fin 8) (w : Word) (m : Option Int), s.hub.failed = true →
    i ∈ [.timeUpdate none m, .ppsInEdge t, .ppsInLoss, .todSet hi, .ppsOutEdge, .timeCapEdge k t, .capEntryRemove k, .nowLatch none, .globalSlotArm j w,
      .globalTriggerFire j] → exec i s = .next s)
  ∧ (∀ (s : State), s.hub.failed = false → s.hub.gtime.unit.updMs + 64 ≤ s.hub.ms →
    (fld (s.hub.reg 0x200004) 31 28 = 0 → s.hub.gtime.ppsOk = true → s.hub.gtime.unit.state = .locked → s.hub.gtime.unit.src = .module →
      s.hub.gtime.unit.everLocked = true → s.hub.gtime.ppsOfs.natAbs ≤ 65536000 →
      ∃ t, exec (.timeUpdate none none) s = .next t ∧ t.chans = s.chans ∧ t.hub.gtime.unit.state = .locked ∧ t.hub.gtime.unit.slew = s.hub.gtime.ppsOfs
        ∧ t.hub.gtime.unit.unc = some (fld (s.hub.reg 0x200004) 27 16 * 256) ∧ t.hub.gtime.unit.now = s.hub.gtime.unit.now ∧ t.hub.regs = s.hub.regs)
    ∧ ∀ n : Fin 8, fld (s.hub.reg 0x200004) 31 28 = 8 + n.val → s.present n = true → (s.chan n).time.unit.state ≠ .locked →
      s.hub.gtime.unit.state = .locked →
      ∃ t, exec (.timeUpdate none none) s = .next t ∧ t.chans = s.chans ∧ t.hub.gtime.unit.state = .holdover
        ∧ t.hub.gtime.unit.now = s.hub.gtime.unit.now ∧ t.hub.regs = s.hub.regs)
  ∧ (∀ (s : State), s.hub.failed = false →
    let h := s.hub
    (∀ t : Nat, fld (h.reg 0x200004) 31 28 = 0 →
      let r := t % 65536000000000
      let off : Int := if r * 2 < 65536000000000 then r else (r : Int) - 65536000000000
      (h.gtime.todArmed = true → ∃ x, exec (.ppsInEdge t) s = .next x ∧ x.hub.gtime.todArmed = false ∧ x.hub.gtime.todSet = true ∧ x.hub.gtime.ppsOk = true
        ∧ x.hub.gtime.ppsLastMs = h.ms ∧ x.chans = s.chans ∧ (t ≤ h.gtime.unit.now → (x.hub.gtime.unit.now : Int) = h.gtime.unit.now - t
          + ((h.reg 0x20000C).toNat % 65536 * 4294967296 + (h.reg 0x200008).toNat) * 65536000000000))
      ∧ (h.gtime.todArmed = false → h.gtime.todSet = false → exec (.ppsInEdge t) s = .next s)
      ∧ (h.gtime.todArmed = false → h.gtime.todSet = true → off.natAbs ≤ 65536000 →
        exec (.ppsInEdge t) s = .next { s with hub := { h with gtime := { h.gtime with ppsOk := true, ppsLastMs := h.ms, ppsOfs := off } } })
      ∧ (h.gtime.todArmed = false → h.gtime.todSet = true → 65536000 < off.natAbs → ∃ x, exec (.ppsInEdge t) s = .next x ∧ x.hub.gtime = h.gtime ∧ x.chans = s.chans
        ∧ x.hub.reg 0x200080 = satAdd (h.reg 0x200080) 1 ∧ x.hub.evr.input = h.evr.input ++ [{ ev := .timePpsBad, plane := .control }]))
    ∧ (h.ms ≤ h.gtime.ppsLastMs + 2000 → exec .ppsInLoss s = .next s)
    ∧ (h.gtime.ppsLastMs + 2000 < h.ms → exec .ppsInLoss s = .next { s with hub := { h with gtime := { h.gtime with ppsOk := false } } })
    ∧ (∀ hi : BitVec 16, ∃ x, exec (.todSet hi) s = .next x ∧ x.hub.reg 0x20000C = hi.setWidth 32 ∧ x.hub.gtime = { h.gtime with todArmed := true }
      ∧ x.chans = s.chans ∧ ∀ a : Nat, a ≠ 0x20000C → x.hub.reg a = h.reg a)
    ∧ (let ofs := (BitVec.ofNat 16 (fld (h.reg 0x20001C) 31 16)).toInt
      let sec := ((h.now : Int) - ofs) / 1000000000
      let rises := bitOf (h.reg 0x20001C) 0 = true ∧ h.gtime.unit.state ≠ .freerun ∧ h.gtime.lastPps ≠ some sec
      (¬rises → exec .ppsOutEdge s = .next s)
      ∧ (rises → exec .ppsOutEdge s = .next { s with hub := { h with gtime := { h.gtime with
          ppsOut := true, lastPps := some sec, ppsFall := (sec * 1000000000 + ofs).toNat + fld (h.reg 0x20001C) 15 8 * 1000000 } } }))
    ∧ (∀ (k : Fin 4) (t : Nat),
      let close := ∃ p : Nat, vget h.gtime.lastEdge k = some p ∧ t ≤ p + 256000
      (close → ∃ x, exec (.timeCapEdge k t) s = .next x ∧ x.chans = s.chans ∧ x.hub.evr = h.evr
        ∧ x.hub.gtime = { h.gtime with lastEdge := vset h.gtime.lastEdge k (some t) })
      ∧ (¬close → (vget h.gtime.caps k).length < 16 → ∃ x, exec (.timeCapEdge k t) s = .next x ∧ x.chans = s.chans
        ∧ vget x.hub.gtime.caps k = vget h.gtime.caps k ++ [t] ∧ vget x.hub.gtime.lastEdge k = some t ∧ x.hub.gtime.lost = h.gtime.lost
        ∧ (∀ j : Nat, j ≠ k → vget x.hub.gtime.caps j = vget h.gtime.caps j) ∧ x.hub.evr = h.evr)
      ∧ (¬close → 16 ≤ (vget h.gtime.caps k).length → ∃ x, exec (.timeCapEdge k t) s = .next x ∧ x.chans = s.chans
        ∧ x.hub.gtime.caps = h.gtime.caps ∧ vget x.hub.gtime.lastEdge k = some t ∧ vget x.hub.gtime.lost k = min (vget h.gtime.lost k + 1) 0xFF
        ∧ x.hub.evr.input = h.evr.input ++ [{ ev := .timeCapLost, plane := .control, value := k.val }])
      ∧ ∃ x, exec (.capEntryRemove k) s = .next x ∧ x.chans = s.chans ∧ vget x.hub.gtime.caps k = (vget h.gtime.caps k).drop 1
        ∧ vget x.hub.gtime.lost k = 0 ∧ (∀ j : Nat, j ≠ k → vget x.hub.gtime.caps j = vget h.gtime.caps j) ∧ x.hub.gtime.unit = h.gtime.unit)
    ∧ exec (.nowLatch none) s = .next { s with hub := { h with gtime := { h.gtime with
        latchHi := BitVec.ofNat 16 (h.now / 1000000000 / 4294967296), latchNs := BitVec.ofNat 32 (h.now % 1000000000) } } }
    ∧ ∀ (j : Fin 8) (w : Word),
      let base := 0x200100 + 16 * j.val
      let ns := (h.reg (base + 8)).toNat
      let at_ := (fld w 15 0 * 4294967296 + (h.reg base).toNat) * 1000000000 + ns
      (1000000000 ≤ ns → ∃ x, exec (.globalSlotArm j w) s = .next x ∧ HostWriteRefused s x .badValue (base + 4))
      ∧ (ns < 1000000000 → ∃ x, exec (.globalSlotArm j w) s = .next x ∧ x.chans = s.chans
        ∧ (let y := vget x.hub.gtime.slots j; y.armed = true ∧ y.at_ = at_ ∧ y.period = (h.reg (base + 12)).toNat ∧ y.width = fld w 29 16)
        ∧ (∀ k : Nat, k ≠ j → vget x.hub.gtime.slots k = vget h.gtime.slots k) ∧ x.hub.gtime.unit = h.gtime.unit
        ∧ (at_ < h.now → x.hub.reg 0x200084 = satAdd (h.reg 0x200084) 1)
        ∧ (h.now ≤ at_ → x.hub.reg 0x200084 = h.reg 0x200084 ∧ x.hub.evr = h.evr))
      ∧ (let y := vget h.gtime.slots j
        let chanFirst := ∃ n : Fin 8, s.present n = true ∧ (s.chan n).live = true ∧ y.at_ ≤ (s.chan n).now ∧ (s.chan n).turn 16 y.at_ = false
        let lowerFirst := ∃ i : Nat, i < j ∧ (vget h.gtime.slots i).armed = true ∧ (vget h.gtime.slots i).at_ = y.at_
        (y.armed = false ∨ h.now < y.at_ ∨ chanFirst ∨ lowerFirst → exec (.globalTriggerFire j) s = .next s)
        ∧ (y.armed = true → y.at_ ≤ h.now → ¬chanFirst → ¬lowerFirst → ∃ x, exec (.globalTriggerFire j) s = .next x ∧ x.chans = s.chans ∧ x.hub.gtime.unit = h.gtime.unit
          ∧ vget x.hub.gtime.slots j = { y with fired := true, armed := decide (y.period ≠ 0), at_ := y.at_ + y.period }
          ∧ (j.val < 4 → x.hub.gtime.trigOut.getLsbD j = true ∧ x.hub.evr = h.evr
            ∧ vget x.hub.gtime.trigFall j = y.at_ + if y.period = 0 then y.width * 100 else min (y.width * 100) (y.period - 10))
          ∧ (4 ≤ j.val → x.hub.gtime.trigOut = h.gtime.trigOut
            ∧ x.hub.evr.input = h.evr.input ++ [{ ev := .timeGtrig, plane := .control, value := j.val }]))))

/-! ### Partitions, drift and unit health -/

/-- Epochs, modes, ledgers and drift. PART_EPOCH and PART_MODE arm a change on trigger slot 2 (R491, R493), and are refused for a wrong
epoch, an instant too near, a change already armed, or an interval that a mode change has armed or open (R64); at the instants, in their
order (R460, R461), the slot takes the new epoch (R491) or the new mode (R494), or the
change is missed, counted, and the peer is told (R495), once for each ACT where none was armed, and at REV a missed or reverted change is undone (R496). LEDGER_BIND places an
extent first fit, and LEDGER_UNBIND frees it (R479). The offers of a shard fix its ACTION (R482, R483); PART_RELOADED and
PART_DROP_DRIFT end a shard's drift (R481, R488); RECON_START starts a reconcile instance, and is refused for RELOAD (R485); a package
is written, signed, to region 7 (R507), and one that comes is applied, or refused when it is too short or its signature does not verify
(R508). A notice of the channel's own firmware arms a complete generation switch, and any other is refused under the violation rule (R26); what
bytes it points at, and the KIND logged, are the model's (log entries 152, 153). That PART_RELOADED for a shard that is not awaited is BAD_FIELD is the model's reading (log entry 92). -/
def Obligations.PartitionsAndDrift : Prop :=
  (∀ (s : State) (ch : Fin 8) (e : CtlEnv) (b : EpochBody) (k : Nat), JobIn s ch e k →
    (b.pepoch ≠ ((s.chan ch).slot k).pepoch + 1 → Changes (.partEpoch ch e b) s ch fun c d => d = (c.takeReq 0x0601 e).answer 0x0601 e 0x0A)
    ∧ ∀ t : Instant, b.pepoch = ((s.chan ch).slot k).pepoch + 1 → instantOf b.actS b.actNs = some t → b.rsvd1 = 0 → b.rsvd14 = 0 →
      (t < (s.chan ch).now + 100000 → Changes (.partEpoch ch e b) s ch fun c d => d = (c.takeReq 0x0601 e).answer 0x0601 e 0x03)
      ∧ ((s.chan ch).now + 100000 ≤ t → cget? (s.chan ch).part.epochs k ≠ none →
        Changes (.partEpoch ch e b) s ch fun c d => d = (c.takeReq 0x0601 e).answer 0x0601 e 0x0B)
      ∧ (∀ (m : ModeChange) (i : Instant), (s.chan ch).now + 100000 ≤ t → cget? (s.chan ch).part.modes k = some m → i ∈ modeIntervals m →
        (s.chan ch).overlap t b.windowUs.toNat i m.windowUs = true →
        Changes (.partEpoch ch e b) s ch fun c d => d = (c.takeReq 0x0601 e).answer 0x0601 e 0x0B)
      ∧ ((s.chan ch).now + 100000 ≤ t → cget? (s.chan ch).part.epochs k = none →
        (∀ m : ModeChange, cget? (s.chan ch).part.modes k = some m →
          ∀ i ∈ modeIntervals m, (s.chan ch).overlap t b.windowUs.toNat i m.windowUs = false) →
        Changes (.partEpoch ch e b) s ch fun c d =>
          d.part = { c.part with epochs := cput c.part.epochs k { to_ := b.pepoch, at_ := t, windowUs := b.windowUs.toNat } }
          ∧ (vget d.time.slots 2).armed = true ∧ (vget d.time.slots 2).at_ ≤ t ∧ d.ctrl.slots = c.ctrl.slots
          ∧ Kept [.ctrl, .fab, .mem, .regs, .evr, .part, .time] c d))
  ∧ (∀ (s : State) (ch : Fin 8) (e : CtlEnv) (b : ModeBody) (k : Nat) (t r : Instant), JobIn s ch e k → instantOf b.actS b.actNs = some t →
    instantOf b.revS b.revNs = some r →
    (t < (s.chan ch).now + 100000 →
      Changes (.partMode ch e b) s ch fun c d => d = ((c.takeReq 0x0602 e).partNotice k { what := 6 }).answer 0x0602 e 0xA3)
    ∧ ((s.chan ch).now + 100000 ≤ t → b.mode = (if ((s.chan ch).slot k).mode = .col then 2 else 1) →
      Changes (.partMode ch e b) s ch fun c d => d = ((c.takeReq 0x0602 e).partNotice k { what := 6 }).answer 0x0602 e 0x03)
    ∧ ((s.chan ch).now + 100000 ≤ t → t + (s.chan ch).windowNs b.windowUs.toNat + 1000000 ≤ r → cget? (s.chan ch).part.epochs k = none →
      cget? (s.chan ch).part.modes k = none → (s.chan ch).drifting k = false →
      (b.mode = 2 ∧ b.opts.toNat < 2 ∧ ((s.chan ch).slot k).mode = .stage) ∨ (b.mode = 1 ∧ b.opts.toNat < 8 ∧ ((s.chan ch).slot k).mode = .col) →
      Changes (.partMode ch e b) s ch fun c d =>
        d.part = { c.part with modes := cput c.part.modes k { toCol := decide (b.mode = 2), opts := b.opts, at_ := t, rev := r
                                                              windowUs := b.windowUs.toNat, oldOpts := (c.slot k).opts } }
        ∧ (vget d.time.slots 2).armed = true ∧ (vget d.time.slots 2).at_ ≤ t ∧ d.ctrl.slots = c.ctrl.slots
        ∧ Kept [.ctrl, .fab, .mem, .regs, .evr, .part, .time] c d))
  ∧ (∀ (s : State) (ch : Fin 8) (e : CtlEnv) (k : Nat), JobIn s ch e k →
    (∀ kind : BitVec 8, kind ≠ 1 → kind ≠ 2 → Changes (.partCancel ch e kind 0) s ch fun c d => d = (c.takeReq 0x0603 e).answer 0x0603 e 0x03)
    ∧ (∀ x : EpochChange, (s.chan ch).part.epochs = [(k, x)] → x.saddle = none → (s.chan ch).part.modes = [] →
      Changes (.partCancel ch e 1 0) s ch fun c d => d.part = { c.part with epochs := [] } ∧ (vget d.time.slots 2).armed = false
        ∧ d.ctrl.slots = c.ctrl.slots ∧ Kept [.ctrl, .fab, .mem, .regs, .evr, .part, .time] c d)
    ∧ ∀ m : ModeChange, (s.chan ch).part.modes = [(k, m)] → m.reverted = false →
      (m.acted = false → (s.chan ch).part.epochs = [] →
        Changes (.partCancel ch e 2 0) s ch fun c d => d.part = { c.part with modes := [] } ∧ (vget d.time.slots 2).armed = false
          ∧ d.ctrl.slots = c.ctrl.slots ∧ Kept [.ctrl, .fab, .mem, .regs, .evr, .part, .time] c d)
      ∧ (m.acted = true → Changes (.partCancel ch e 2 0) s ch fun c d => d = (c.takeReq 0x0603 e).answer 0x0603 e 0xA3)
      ∧ Changes (.partRevert ch e) s ch fun c d => d.part = { c.part with modes := [(k, { m with revert := true })] }
          ∧ d.ctrl.slots = c.ctrl.slots ∧ Kept [.ctrl, .fab, .mem, .regs, .evr, .part] c d)
  ∧ (∀ (s : State) (ch : Fin 8) (e : CtlEnv) (b : LedgerBody) (k : Nat) (m : Comm), JobIn s ch e k → (s.chan ch).comm? k b.comm.toNat = some m →
    m.body.algo = 1 → shardRange b.lo.toNat b.cnt.toNat = true → b.cnt = 1 → b.rsvd = 0 → 1 ≤ b.chunks.toNat → b.chunks.toNat ≤ 16777215 →
    (s.chan ch).ledger? k b.comm.toNat b.lo.toNat = none → (s.chan ch).commBusy k b.comm.toNat = false → (s.chan ch).regionSize 4 ≠ 0 →
    let size := ledgerMib m.body.fmt.toNat b.chunks.toNat
    let place := firstFit (s.chan ch).ledgerRuns ((s.chan ch).regionMib 4) size
    let free := lowestFree ((s.chan ch).part.ledgers.map Ledger.idx) 4096
    (∀ i p : Nat, free = some i → place = some p → Changes (.ledgerBind ch e b) s ch fun c d =>
      d.part = { c.part with ledgers := c.part.ledgers ++ [({ idx := i, slot := k, comm := b.comm, shard := b.lo, baseMib := p, sizeMib := size
                                                              chunks := b.chunks.toNat } : Ledger)] }
      ∧ d.ctrl.slots = c.ctrl.slots ∧ Kept [.ctrl, .fab, .mem, .regs, .evr, .part] c d)
    ∧ (free = none ∨ place = none → Changes (.ledgerBind ch e b) s ch fun c d => d = (c.takeReq 0x0605 e).answer 0x0605 e 0xA2))
  ∧ (∀ (s : State) (ch : Fin 8) (e : CtlEnv) (b : UnbindBody) (k : Nat), JobIn s ch e k → (s.chan ch).comm? k b.comm.toNat ≠ none →
    shardRange b.lo.toNat b.cnt.toNat = true → b.rsvd = 0 →
    let drifts := ∃ x ∈ (s.chan ch).part.shards, x.slot = k ∧ inShards b x.comm x.shard = true
    (drifts → Changes (.ledgerUnbind ch e b) s ch fun c d => d = (c.takeReq 0x0606 e).answer 0x0606 e 0xA4)
    ∧ (¬drifts → Changes (.ledgerUnbind ch e b) s ch fun c d =>
      d.part = { c.part with ledgers := c.part.ledgers.filter fun (l : Ledger) => !(l.slot == k && inShards b l.comm l.shard) }
      ∧ d.ctrl.slots = c.ctrl.slots ∧ Kept [.ctrl, .fab, .mem, .regs, .evr, .part] c d))
  ∧ (∀ (s : State) (ch : Fin 8) (e : CtlEnv) (comm : BitVec 16) (k : Nat) (m : Comm), JobIn s ch e k → (s.chan ch).comm? k comm.toNat = some m →
    (∀ seq : BitVec 32, (s.chan ch).commBusy k comm.toNat = false →
      (seqLater seq.toNat m.lastSeq.toNat = false → Changes (.partSeq ch e comm 0 seq) s ch fun c d => d = (c.takeReq 0x0607 e).answer 0x0607 e 0xA5)
      ∧ (seqLater seq.toNat m.lastSeq.toNat = true → Changes (.partSeq ch e comm 0 seq) s ch fun c d =>
        (d.comm? k comm.toNat).map Comm.lastSeq = some seq ∧ d.col.ctxs = c.col.ctxs ∧ d.part = c.part
        ∧ Kept [.ctrl, .fab, .mem, .regs, .evr, .col] c d))
    ∧ ∀ (shard : BitVec 16) (x : DriftShard), (s.chan ch).driftShard k comm.toNat shard.toNat = some x →
      (x.action ≠ some .reload → Changes (.partReloaded ch e comm shard) s ch fun c d => d = (c.takeReq 0x0609 e).answer 0x0609 e 0x03)
      ∧ (x.action = some .reload → (s.chan ch).part.shards = [x] → Changes (.partReloaded ch e comm shard) s ch fun c d =>
        d.part = { c.part with shards := [], drifts := cdel c.part.drifts k } ∧ d.reg 0x94 = satAdd (c.reg 0x94) 1
        ∧ ({ ev := .partReload, slot := k, comm := comm.toNat, shard := shard.toNat } : Raised) ∈ d.evr.input ∧ OtherSlotsKept k c d
        ∧ Kept [.ctrl, .fab, .mem, .regs, .evr, .part] c d))
  ∧ (∀ (s : State) (ch : Fin 8) (e : CtlEnv) (b : StartBody) (k : Nat) (m : Comm) (g : GroupEntry), JobIn s ch e k →
    (s.chan ch).startFields k b = true → b.step = ((s.chan ch).slot k).step ∨ b.step = ((s.chan ch).slot k).step - 1 →
    (s.chan ch).comm? k b.comm.toNat = some m → (s.chan ch).group? k m.body.group.toNat = some g →
    (s.chan ch).commBusy k b.comm.toNat = false → b.seq = m.lastSeq + 1 →
    let p := (s.chan ch).reconPart k m b.shard.toNat
    (p.1 ≠ 0 → Changes (.reconStart ch e b) s ch fun c d => d = (c.takeReq 0x0608 e).answerCol 0x0608 e p.1 0 0xFF)
    ∧ (p.1 = 0 → (codecLossy m.body.codec.toNat = 3 → (s.chan ch).tilesUp ≠ []) → firstGap (s.chan ch).col.ctxs 0 < 64 → 24 ≤ (s.chan ch).ctxRes 2 →
      (s.chan ch).line.state = .up → (s.chan ch).col.pending = [] →
      Changes (.reconStart ch e b) s ch fun c d =>
        let i := firstGap c.col.ctxs 0
        (∃ x : Ctx, d.ctx? i = some x ∧ x.slot = k ∧ x.comm = b.comm ∧ x.seq = b.seq ∧ x.step = b.step ∧ x.shard = b.shard
          ∧ x.chunks = b.chunks.toNat ∧ x.recon = p.2 ∧ x.drift = false ∧ x.live = m.live ∧ x.attempt = 0 ∧ x.accs = [] ∧ x.ending = false)
        ∧ OtherCtxsKept i c d ∧ (d.comm? k b.comm.toNat).map Comm.lastSeq = some b.seq
        ∧ d.reg 0x400340 = satAdd (c.reg 0x400340) 1 ∧ Kept [.ctrl, .fab, .mem, .regs, .evr, .col] c d))
  ∧ (∀ (s : State) (ch : Fin 8) (e : CtlEnv) (k : Nat), JobIn s ch e k →
    Changes (.partDropDrift ch e) s ch (fun c d =>
      d.part.drifts = cdel c.part.drifts k ∧ d.part.shards = c.part.shards.filter (fun x => decide (x.slot ≠ k))
      ∧ d.part.ledgers = c.part.ledgers.map (fun (l : Ledger) => if l.slot = k then { l with sums := [], n := 0, lost := false } else l)
      ∧ d.part.epochs = c.part.epochs ∧ d.part.modes = c.part.modes ∧ d.ctrl.slots = c.ctrl.slots ∧ Kept [.ctrl, .fab, .mem, .regs, .evr, .part] c d)
    ∧ ((s.chan ch).sec.rngOk = false → Changes (.partExport ch e) s ch fun c d => d = c)
    ∧ ((s.chan ch).sec.rngOk = true → (∃ x ∈ (s.chan ch).part.shards, x.slot = k) →
      Changes (.partExport ch e) s ch fun c d => d = (c.takeReq 0x060B e).answer 0x060B e 0xA4)
    ∧ ((s.chan ch).sec.rngOk = true → (∀ x ∈ (s.chan ch).part.shards, x.slot ≠ k) → (s.chan ch).memUp = true →
      ((s.chan ch).package k).length ≤ (s.chan ch).regionSize 7 →
      Changes (.partExport ch e) s ch fun c d =>
        (∀ i : Nat, Memory.read d.mem.region7 i = ((c.package k)[i]?).getD (Memory.read c.mem.region7 i)) ∧ d.ctrl.slots = c.ctrl.slots
        ∧ Kept [.ctrl, .fab, .mem, .regs, .evr] c d))
  ∧ (∀ (s : State) (ch : Fin 8) (k : Nat) (f : Drift), InPath s ch → (s.chan ch).part.drifts = [(k, f)] →
    let due := f.far = true ∧ f.limit = false ∧ f.sinceMs + 1000 * (s.chan ch).driftSecs k < (s.chan ch).ms
    (¬due → Changes (.driftTimeLimit ch) s ch fun c d => d = c)
    ∧ (due → Changes (.driftTimeLimit ch) s ch fun c d => d.part = { c.part with drifts := [(k, { f with limit := true })] }
      ∧ ({ ev := .partDriftLimit, slot := k, job := (c.slot k).body.jobId.toNat, scope := k } : Raised) ∈ d.evr.input
      ∧ Kept [.fab, .mem, .regs, .evr, .part] c d))
  ∧ (∀ (s : State) (ch : Fin 8) (h : SealHdr) (o : OfferBody),  InPath s ch →
    (¬Opens (s.chan ch) 4 h → Changes (.driftOffer ch h o) s ch fun c d => d.reg 0xA00088 = satAdd (c.reg 0xA00088) 1 ∧ Kept [.line, .regs, .evr] c d)
    ∧ ∀ (k : Nat) (m : Comm) (x : DriftShard) (a : OfferBody) (f : Drift) (e : Epoch), Opens (s.chan ch) 4 h → (s.chan ch).holds o.job = some k →
      (s.chan ch).comm? k o.comm.toNat = some m → (s.chan ch).driftShard k o.comm.toNat o.shard.toNat = some x → x.mine = some a → x.peer = none →
      x.acked = false → x.action = none → cget? (s.chan ch).part.drifts k = some f → (s.chan ch).sec.cur = some e →
      Changes (.driftOffer ch h o) s ch fun c d =>
        d.driftShard k o.comm.toNat o.shard.toNat = some { x with peer := some o, action := some (chooseAction a o) }
        ∧ d.part.drifts = cput c.part.drifts k { f with
            step := some (laterOf (laterOf (f.step.getD (c.slot k).step) (c.slot k).step) o.step) }
        ∧ d.part.ledgers = c.part.ledgers ∧ Sent 4 c d ∧ Kept [.line, .sec, .part] c d)
  ∧ (∀ a b : OfferBody, chooseAction a b = if offLedger a = false ∨ offLedger b = false then .reload
      else if offLimit (if offAnchor a then b else a) = true then .anchor else .merge)
  ∧ (∀ (s : State) (ch : Fin 8) (h : SealHdr) (job : BitVec 32) (comm shard : BitVec 16) (k : Nat) (x : DriftShard), InPath s ch →
    Opens (s.chan ch) 4 h → (s.chan ch).holds job = some k → (s.chan ch).part.shards = [x] → x.slot = k → x.comm = comm → x.shard = shard →
    (x.peer = none → Changes (.driftAck ch h job comm shard) s ch fun c d =>
      d.part = { c.part with shards := [{ x with acked := true }] } ∧ Kept [.line, .sec, .part] c d)
    ∧ ∀ (a o : OfferBody) (m : Comm), x.peer = some o → x.mine = some a → o.count = 1 → x.acked = false → x.action = some .merge →
      (s.chan ch).comm? k comm.toNat = some m →
      Changes (.driftAck ch h job comm shard) s ch fun c d =>
        d.part = { c.part with shards := [{ x with acked := true }] }
        ∧ (d.comm? k comm.toNat).map Comm.lastSeq = some (laterOf (laterOf m.lastSeq a.lastSeq) o.lastSeq) ∧ d.col.ctxs = c.col.ctxs
        ∧ Kept [.line, .sec, .part, .col, .fab, .mem, .regs, .evr] c d)
  ∧ (∀ (s : State) (ch : Fin 8) (x : DriftShard) (o : OfferBody) (e : Epoch), InPath s ch → (s.chan ch).part.shards = [x] → x.mine = some o →
    (s.chan ch).sec.cur = some e →
    let due := (s.chan ch).line.state = .up ∧ x.acked = false ∧ x.sentUs + 5000 < (s.chan ch).us
    (¬due → Changes (.driftOfferRepeat ch) s ch fun c d => d = c)
    ∧ (due → Changes (.driftOfferRepeat ch) s ch fun c d =>
      d.part = { c.part with shards := [{ x with sentUs := c.us }] } ∧ Sent 4 c d ∧ Kept [.line, .sec, .part] c d))
  ∧ (∀ (s : State) (ch : Fin 8) (k : Nat) (x : EpochChange), InLife s ch → (s.chan ch).part.epochs = [(k, x)] → k < 16 →
    (x.saddle = none → (s.chan ch).jobDue x.at_ = false → Changes (.epochInstant ch) s ch fun c d => d = c)
    ∧ (x.saddle = none → (s.chan ch).jobDue x.at_ = true → Changes (.epochInstant ch) s ch fun c d =>
      d.slot k = { (c.slot k) with pepoch := x.to_ } ∧ OtherSlotsKept k c d
      ∧ d.part = { c.part with epochs := [(k, { x with saddle := some (c.us + max x.windowUs (2 * c.rttUs)) })] } ∧ Kept [.ctrl, .part, .time] c d)
    ∧ (∀ t : Nat, x.saddle = some t →
      ((s.chan ch).us ≤ t → Changes (.epochSaddleClose ch) s ch fun c d => d = c)
      ∧ (t < (s.chan ch).us → (s.chan ch).col.ctxs = [] → Changes (.epochSaddleClose ch) s ch fun c d =>
        d = { c with part := { c.part with epochs := [] } })
      ∧ ∀ (i : Nat) (y : Ctx), t < (s.chan ch).us → (s.chan ch).col.ctxs = [(i, y)] → y.slot = k → y.ending = false →
        y.pepoch ≠ ((s.chan ch).slot k).pepoch → (s.chan ch).prov.backlog = [] → (s.chan ch).prov.queue.length < 8 →
        Changes (.epochSaddleClose ch) s ch fun c d => FailedEnd i y 0x16 c d ∧ d.part.epochs = []))
  ∧ (∀ (s : State) (ch : Fin 8) (k : Nat) (m : ModeChange), InLife s ch → (s.chan ch).part.modes = [(k, m)] → k < 16 →
    (m.acted = false → (s.chan ch).jobDue m.at_ = false → Changes (.modeActInstant ch) s ch fun c d => d = c)
    ∧ (m.acted = false → (s.chan ch).jobDue m.at_ = true → m.toCol = true → (s.chan ch).bareSlot k = true → ((s.chan ch).slot k).mode = .stage →
      (s.chan ch).prov.backlog = [] → (s.chan ch).prov.queue.length < 8 →
      Changes (.modeActInstant ch) s ch fun c d =>
        d.slot k = { (c.slot k) with mode := .col } ∧ OtherSlotsKept k c d
        ∧ d.part = { c.part with modes := [(k, { m with acted := true, applied := true, saddle := some (c.us + max m.windowUs (2 * c.rttUs)) })] }
        ∧ (∃ q : Cairn, d.prov.queue = c.prov.queue ++ [q] ∧ q.kind = 6 ∧ q.slot = k ∧ q.job = (c.slot k).body.jobId.toNat)
        ∧ Kept [.ctrl, .part, .time, .prov] c d)
    ∧ (m.acted = false → (s.chan ch).jobDue m.at_ = true → m.toCol = false → (s.chan ch).prov.backlog = [] → (s.chan ch).prov.queue.length < 8 →
      Changes (.modeActInstant ch) s ch fun c d =>
        d.slot k = { (c.slot k) with mode := .stage, opts := m.opts } ∧ OtherSlotsKept k c d
        ∧ (∃ q : Cairn, d.prov.queue = c.prov.queue ++ [q] ∧ q.kind = 5 ∧ q.slot = k)
        ∧ (bitOf m.opts 0 ≠ bitOf (c.slot k).opts 0 →
          cget 0 d.codec.flows (4 * k + 1) = (bitOf m.opts 0).toNat ∧ cget 0 d.codec.flows (4 * k + 3) = (bitOf m.opts 0).toNat)
        ∧ Kept [.ctrl, .part, .time, .prov, .codec] c d)
    ∧ (∀ e : Epoch, m.acted = false → (s.chan ch).jobDue m.at_ = true → m.toCol = true → (s.chan ch).bareSlot k = false → m.missed = false → m.reverted = false →
      (s.chan ch).sec.cur = some e →
      Changes (.modeActInstant ch) s ch fun c d =>
        d.part = { c.part with modes := [(k, { m with acted := true, missed := true })] } ∧ d.reg 0x88 = satAdd (c.reg 0x88) 1
        ∧ ({ ev := .partModeMiss, slot := k, job := (c.slot k).body.jobId.toNat, scope := k } : Raised) ∈ d.evr.input ∧ Sent 4 c d
        ∧ Kept [.part, .time, .line, .sec, .fab, .mem, .regs, .evr] c d)
    ∧ (∀ t : Nat, m.saddle = some t →
      ((s.chan ch).us ≤ t → Changes (.modeSaddleClose ch) s ch fun c d => d = c)
      ∧ (t < (s.chan ch).us → Changes (.modeSaddleClose ch) s ch fun c d => d = { c with part := { c.part with modes := [(k, { m with saddle := none })] } }))
    ∧ (m.reverted = false → m.acted = true → (s.chan ch).jobDue m.rev = true →
      (m.applied = true → m.missed = true ∨ m.revert = true → Changes (.modeRevInstant ch) s ch fun c d =>
        d.slot k = { (c.slot k) with mode := (if m.toCol then .stage else .col), opts := m.oldOpts } ∧ OtherSlotsKept k c d
        ∧ d.part = { c.part with modes := [(k, { m with reverted := true, saddle := some (c.us + max m.windowUs (2 * c.rttUs)) })] }
        ∧ Kept [.ctrl, .part, .time, .prov, .codec] c d)
      ∧ (m.applied = false ∨ (m.missed = false ∧ m.revert = false) → Changes (.modeRevInstant ch) s ch fun c d =>
        d.part = { c.part with modes := [(k, { m with reverted := true })] } ∧ Kept [.part, .time] c d)))
  ∧ (∀ (s : State) (ch : Fin 8) (h : SealHdr) (job : BitVec 32) (mode : BitVec 8) (sec : BitVec 48) (ns : BitVec 32) (k : Nat), InPath s ch →
    Opens (s.chan ch) 4 h → (s.chan ch).holds job = some k →
    (∀ e : Epoch, cget? (s.chan ch).part.modes k = none → cget? (s.chan ch).part.unarmed k ≠ some (sec ++ ns) → (s.chan ch).sec.cur = some e →
      Changes (.modeMiss ch h job mode sec ns) s ch fun c d =>
      d.reg 0x88 = satAdd (c.reg 0x88) 1 ∧ ({ ev := .partModeMiss, slot := k, job := job.toNat, scope := k } : Raised) ∈ d.evr.input
      ∧ cget? d.part.unarmed k = some (sec ++ ns) ∧ d.part.modes = c.part.modes ∧ d.ctrl.slots = c.ctrl.slots ∧ Sent 4 c d
      ∧ Kept [.part, .line, .sec, .fab, .mem, .regs, .evr] c d)
    ∧ (cget? (s.chan ch).part.modes k = none → cget? (s.chan ch).part.unarmed k = some (sec ++ ns) →
      Changes (.modeMiss ch h job mode sec ns) s ch fun c d => Kept [.line, .sec] c d ∧ (vget d.line.tribs 4).tx = (vget c.line.tribs 4).tx)
    ∧ ∀ (m : ModeChange) (e : Epoch), (s.chan ch).part.modes = [(k, m)] → m.missed = false → m.reverted = false → (s.chan ch).sec.cur = some e →
      Changes (.modeMiss ch h job mode sec ns) s ch fun c d =>
        d.part = { c.part with modes := [(k, { m with missed := true })] } ∧ d.reg 0x88 = satAdd (c.reg 0x88) 1 ∧ Sent 4 c d
        ∧ ({ ev := .partModeMiss, slot := k, job := (c.slot k).body.jobId.toNat, scope := k } : Raised) ∈ d.evr.input
        ∧ Kept [.line, .sec, .part, .fab, .mem, .regs, .evr] c d)
  ∧ ∀ (s : State) (ch : Fin 8), InPath s ch →
    ((s.chan ch).ctrl.notices = [] → Changes (.sequencerMailboxTake ch) s ch fun c d => d = c)
    ∧ ∀ (j : Nat) (w : Vector Word 4) (rest : List (Nat × Vector Word 4)), (s.chan ch).ctrl.notices = (j, w) :: rest →
      let ptr := (vget w 0).toNat + (vget w 1).toNat * 4294967296
      let n := (vget w 2).toNat
      let lo := ch.val * 8589934592 + 3221225472
      let refused (kind : ViolKind) (c d : Chan) : Prop := d.ctrl = { c.ctrl with notices := rest } ∧ Kept [.ctrl, .viols] c d
        ∧ ∃ v : Viol, d.viols = c.viols ++ [v] ∧ v.source = .chFirmware ∧ v.kind = kind ∧ v.addr = ptr
      ((ptr < ch.val * 8589934592 ∨ (ch.val + 1) * 8589934592 < ptr + n) → (s.chan ch).hubLost = false →
        Changes (.sequencerMailboxTake ch) s ch (refused .outsideDma))
      ∧ (ch.val * 8589934592 ≤ ptr → ptr < lo → ptr + n ≤ (ch.val + 1) * 8589934592 → (s.chan ch).hubLost = false →
        Changes (.sequencerMailboxTake ch) s ch (refused .inbandRule))
      ∧ ∀ off : Nat, ptr = lo + off → off + n ≤ 5368709120 → off + n ≤ (s.chan ch).regionSize 7 → (s.chan ch).memUp = true →
        (beAt ((s.chan ch).readStage off (min n 4)) 0 4 ≠ packMagic → cutReqs 8192 ((s.chan ch).readStage off n) = none →
          (s.chan ch).hubLost = false → Changes (.sequencerMailboxTake ch) s ch (refused .inbandRule))
        ∧ (∀ k : Nat, n = 24 → beAt ((s.chan ch).readStage off 24) 0 2 = 0x0011 → beAt ((s.chan ch).readStage off 4) 0 4 ≠ packMagic →
          (s.chan ch).holds (BitVec.ofNat 32 (beAt ((s.chan ch).readStage off 24) 4 4)) = some k → ((s.chan ch).slot k).mode ≠ .releasing →
          (s.chan ch).stageLost off 24 = false →
          beAt ((s.chan ch).readStage off 24) 22 2 = 0 → (s.chan ch).fab.changes = [] →
          beAt ((s.chan ch).readStage off 24) 14 4 < 1000000000 →
          let t := beAt ((s.chan ch).readStage off 24) 8 6 * 1000000000 + beAt ((s.chan ch).readStage off 24) 14 4
          (s.chan ch).now + 100000 ≤ t →
          Changes (.sequencerMailboxTake ch) s ch fun c d =>
            d.fab.changes = [(k, .armed t (beAt (c.readStage off 24) 18 4))] ∧ (vget d.time.slots 1).armed = true ∧ (vget d.time.slots 1).at_ = t
            ∧ d.ctrl = { c.ctrl with notices := rest } ∧ Kept [.ctrl, .fab, .time] c d)
        ∧ (beAt ((s.chan ch).readStage off (min n 24)) 0 4 = packMagic → n < 128 → Changes (.sequencerMailboxTake ch) s ch fun c d =>
          d.evr.input = c.evr.input ++ [{ ev := .partLoadFail }] ∧ d.ctrl = { c.ctrl with notices := rest } ∧ Kept [.ctrl, .evr] c d)
        ∧ ∀ k : Nat, n = 128 → (s.chan ch).stageLost off 128 = false →
          let bs := (s.chan ch).readStage off 128
          beAt ((s.chan ch).readStage off 4) 0 4 = packMagic → beAt bs 0 4 = packMagic → beAt bs 4 1 = 1 → beAt bs 5 1 = (s.chan ch).peerSite → beAt bs 6 1 = (s.chan ch).ownSite →
          beAt bs 16 8 = 128 → beAt bs 24 4 = 0 → (s.chan ch).holds (BitVec.ofNat 32 (beAt bs 8 4)) = some k → k < 16 →
          ((s.chan ch).slot k).mode ≠ .releasing →
          Changes (.sequencerMailboxTake ch) s ch fun c d =>
            let sound := Config.sm2Verify c.sec.peerCert (ascii "SZ8-STATE" ++ bs.take 64) (BitVec.ofNat 512 (beAt bs 64 64))
            (sound = true → d.slot k = { (c.slot k) with pepoch := BitVec.ofNat 8 (beAt bs 7 1), step := BitVec.ofNat 32 (beAt bs 12 4) }
              ∧ OtherSlotsKept k c d ∧ d.reg 0x98 = satAdd (c.reg 0x98) 1 ∧ Kept [.ctrl, .fab, .mem, .regs, .evr] c d)
            ∧ (sound = false → d.evr.input = c.evr.input ++ [{ ev := .partLoadFail }] ∧ d.ctrl.slots = c.ctrl.slots ∧ Kept [.ctrl, .evr] c d)

/-- Unit health and the sentinel. D halves every DECAY_H hours (R498), rounded as log entry 30 says. A self-test that passes sets D to 450;
one that fails adds 700 and asks for a fence, which the floor rule and the budget may refuse (R499–R501). A fence takes effect at the
next tick, and for good within 24 hours of a readmission (R500, R502); shown for the transmit pipelines: the spare of its class takes
the unit's place (R40, R401; log entry 60), and two passed retests readmit the unit with D = 400 (R502). The sentinel counts every
sample, and a third run decides whom a mismatch charges (R503–R506). -/
def Obligations.UnitHealth : Prop :=
  (∀ (s : State) (ch : Fin 8), InLife s ch →
    ((s.chan ch).ms < ((s.chan ch).hlth.decays + 1) * 60000 → Changes (.demeritDecay ch) s ch fun c d => d = c)
    ∧ ∀ (cls u : Nat) (x : HUnit), ((s.chan ch).hlth.decays + 1) * 60000 ≤ (s.chan ch).ms → (s.chan ch).hlth.units = [(64 * cls + u, x)] → u < 64 →
      x.st = .healthy → 600 ≤ unitScore x →
      Changes (.demeritDecay ch) s ch fun c d =>
        let k := 60 * max 1 (fld (c.reg 0xD00000) 19 15)
        let y := d.unit cls u
        y.st = .healthy ∧ 2 * y.demerit ^ k ≤ x.demerit ^ k ∧ x.demerit ^ k < 2 * (y.demerit + 1) ^ k ∧ d.hlth.decays = c.hlth.decays + 1
        ∧ d.hlth.fences = c.hlth.fences ∧ d.hlth.spare = c.hlth.spare ∧ Kept [.hlth] c d)
  ∧ (∀ (s : State) (ch : Fin 8) (cls u : Nat), InLife s ch →
    let c := s.chan ch
    let x := c.unit cls u
    let others (d : Chan) : Prop := ∀ k : Nat, k ≠ 64 * cls + u → cget {} d.hlth.units k = cget {} c.hlth.units k
    let low := c.standing cls u < c.floor cls
    let spent := fld (c.reg 0xD00000) 31 28 ≤ c.recentFences cls
    (∀ ok : Bool, x.st ≠ .testing → Changes (.targetedSelftestDone ch cls u ok) s ch fun c d => d = c)
    ∧ (x.st = .testing → Changes (.targetedSelftestDone ch cls u true) s ch fun c d =>
      d.unit cls u = { x with st := .suspect, demerit := 450 * 2 ^ 32 } ∧ others d ∧ Kept [.hlth] c d)
    ∧ (x.st = .testing → c.hlth.granted = [] →
      (¬low → ¬spent → Changes (.targetedSelftestDone ch cls u false) s ch fun c d =>
        d.unit cls u = { x with st := .suspect, demerit := x.demerit + 700 * 2 ^ 32, askedMs := c.ms } ∧ d.hlth.granted = [⟨cls, u, c.us⟩]
        ∧ d.reg 0xD00050 = satAdd (c.reg 0xD00050) 1 ∧ others d ∧ Kept [.hlth, .regs] c d)
      ∧ (low ∨ spent → Changes (.targetedSelftestDone ch cls u false) s ch fun c d =>
        d.unit cls u = { x with st := .held, demerit := x.demerit + 700 * 2 ^ 32, refused := true, askedMs := c.ms } ∧ d.hlth.granted = []
        ∧ d.reg 0xD00050 = satAdd (c.reg 0xD00050) 1
        ∧ (low → d.reg 0xD0004C = satAdd (c.reg 0xD0004C) 1 ∧ d.reg 0xD00048 = c.reg 0xD00048)
        ∧ (¬low → d.reg 0xD00048 = satAdd (c.reg 0xD00048) 1 ∧ d.reg 0xD0004C = c.reg 0xD0004C)
        ∧ (x.refused = true → d.evr = c.evr) ∧ others d ∧ Kept [.hlth, .regs, .evr] c d))
    ∧ (x.st ≠ .held ∨ c.ms ≤ x.askedMs + 60000 ∨ 300 ≤ unitScore x → Changes (.heldUnitRetry ch cls u) s ch fun c d => d = c)
    ∧ (x.st = .held → x.askedMs + 60000 < c.ms → unitScore x < 300 → c.hlth.granted = [] → ¬low → ¬spent →
      Changes (.heldUnitRetry ch cls u) s ch fun c d =>
        d.unit cls u = { x with askedMs := c.ms } ∧ d.hlth.granted = [⟨cls, u, c.us⟩] ∧ others d ∧ Kept [.hlth] c d))
  ∧ (∀ (s : State) (ch : Fin 8) (u t0 : Nat), InLife s ch → (s.chan ch).hlth.granted = [⟨1, u, t0⟩] → u < 16 →
    let x := (s.chan ch).unit 1 u
    ((s.chan ch).us ≤ t0 → Changes (.unitFence ch) s ch fun c d => d = c)
    ∧ (t0 < (s.chan ch).us → (∀ v : Nat, v ≠ u → unitOut ((s.chan ch).unit 1 v) = false) → cget? (s.chan ch).hlth.spare 1 = none →
      Changes (.unitFence ch) s ch fun c d =>
        (d.unit 1 u).fencedMs = c.ms ∧ (d.unit 1 u).passes = 0 ∧ d.hlth.granted = [] ∧ d.hlth.fences = c.hlth.fences ++ [(1, c.ms)]
        ∧ ((∀ t : Nat, x.readmitMs = some t → t + 86400000 ≤ c.ms) → (d.unit 1 u).st = .fenced ∧ d.reg 0xD0005C = c.reg 0xD0005C)
        ∧ (∀ t : Nat, x.readmitMs = some t → c.ms < t + 86400000 → (d.unit 1 u).st = .permanent ∧ d.reg 0xD0005C = satAdd (c.reg 0xD0005C) 1)
        ∧ cget? d.hlth.spare 1 = some u ∧ d.reg 0xD00040 = satAdd (c.reg 0xD00040) 1
        ∧ ({ ev := .hlthFence, plane := .management, uclass := 1, unit := u, scope := 64 + u } : Raised) ∈ d.evr.input
        ∧ Kept [.hlth, .regs, .evr, .line, .sch] c d))
  ∧ (∀ (s : State) (ch : Fin 8) (cls : Fin 6) (u : Fin 17), InLife s ch →
    let x := (s.chan ch).unit cls u
    let due := x.st = .fenced ∧ x.fencedMs + 900000 * (x.passes + 1) < (s.chan ch).ms
    (∀ ok : Bool, ¬due → Changes (.fenceRetest ch cls u ok) s ch fun c d => d = c)
    ∧ (due → Changes (.fenceRetest ch cls u false) s ch fun c d =>
      d.unit cls u = { x with fencedMs := c.ms, passes := 0, demerit := x.demerit + 700 * 2 ^ 32 } ∧ d.reg 0xD00050 = satAdd (c.reg 0xD00050) 1
      ∧ d.hlth.spare = c.hlth.spare ∧ Kept [.hlth, .regs] c d)
    ∧ (due → x.passes = 0 → Changes (.fenceRetest ch cls u true) s ch fun c d =>
      d.unit cls u = { x with passes := 1 } ∧ d.hlth.spare = c.hlth.spare ∧ Kept [.hlth] c d)
    ∧ (due → 1 ≤ x.passes → cls = 1 → (∀ v : Nat, v ≠ u.val → unitOut ((s.chan ch).unit 1 v) = false) →
      Changes (.fenceRetest ch cls u true) s ch fun c d =>
        d.unit cls u = { x with st := .healthy, demerit := 400 * 2 ^ 32, passes := 0, readmitMs := some c.ms } ∧ cget? d.hlth.spare 1 = none
        ∧ d.reg 0xD00044 = satAdd (c.reg 0xD00044) 1
        ∧ ({ ev := .hlthReadmit, plane := .management, uclass := 1, unit := u.val, scope := 64 + u.val } : Raised) ∈ d.evr.input
        ∧ Kept [.hlth, .regs, .evr, .line, .sch] c d))
  ∧ (∀ (s : State) (ch : Fin 8) (stream : Fin 4) (u : Fin 17) (a b : List Byte) (t : Int) (occ : Nat), InLife s ch →
    ((s.chan ch).streamOn (s.mtxPresent ch) stream = false → Changes (.sentinelSample ch stream u a b t occ) s ch fun c d => d = c)
    ∧ ((s.chan ch).streamOn (s.mtxPresent ch) stream = true → Changes (.sentinelSample ch stream u a b t occ) s ch fun c d =>
      d.reg 0xD00054 = satAdd (c.reg 0xD00054) 1 ∧ d.hlth.units = c.hlth.units
      ∧ d.hlth.mismatches = c.hlth.mismatches ++ (if a = b then [] else [⟨stream, u, a, b, tempBin t, min 15 occ, c.us⟩]) ∧ Kept [.hlth, .regs] c d))
  ∧ ∀ (s : State) (ch : Fin 8), InLife s ch →
    (∀ third : Option (Fin 17 × List Byte), (s.chan ch).hlth.mismatches = [] → Changes (.sentinelThirdRun ch third) s ch fun c d => d = c)
    ∧ ∀ (m : Mismatch) (rest : List Mismatch), (s.chan ch).hlth.mismatches = m :: rest → m.stream < 4 → m.unit < 17 →
      let orig := if m.stream = 0 then (6, 2) else (lget 0 [0, 0, 1, 2] m.stream, m.unit)
      let spare := (lget 0 [0, 0, 1, 2] m.stream, 16)
      let bin := 0xD01000 + 1024 * m.stream + 4 * (16 * m.temp + m.load)
      let charged (w : Nat × Nat) (c d : Chan) : Prop :=
        d.hlth.mismatches = rest ∧ d.reg 0xD00058 = satAdd (c.reg 0xD00058) 1 ∧ d.reg bin = satAdd (c.reg bin) 1
        ∧ ((c.charges24 (c.unit w.1 w.2)).length < 2 → (d.unit w.1 w.2).demerit = (c.unit w.1 w.2).demerit + 150 * 2 ^ 32)
        ∧ (∀ k : Nat, k ≠ 64 * w.1 + w.2 → cget {} d.hlth.units k = cget {} c.hlth.units k) ∧ Kept [.hlth, .regs, .evr] c d
      (∀ v : Fin 17, Changes (.sentinelThirdRun ch (some (v, m.first))) s ch (charged spare))
      ∧ (∀ v : Fin 17, m.first ≠ m.second → Changes (.sentinelThirdRun ch (some (v, m.second))) s ch (charged orig))
      ∧ (∀ (v : Fin 17) (out : List Byte), out ≠ m.first → out ≠ m.second → Changes (.sentinelThirdRun ch (some (v, out))) s ch fun c d =>
        d.hlth.mismatches = rest ∧ d.reg 0xD00058 = satAdd (satAdd (satAdd (c.reg 0xD00058) 1) 1) 1 ∧ Kept [.hlth, .regs, .evr] c d)
      ∧ (m.us + 1000 < (s.chan ch).us → Changes (.sentinelThirdRun ch none) s ch (charged orig))
      ∧ ((s.chan ch).us ≤ m.us + 1000 → Changes (.sentinelThirdRun ch none) s ch fun c d => d = c)

/-! ### Start-up, recovery and power states -/

/-- A recovery has started (R533, R535): PHASE 8 with its cause, step 1 runs, and the line is not UP; a line that is not held hunts again. Keys, jobs,
collectives and memory are as they were. -/
def Sys2Proof.Safety.RecoveryStarts (cause : Nat) (held : Bool) (c d : Chan) : Prop :=
  d.boot.phase = 8 ∧ d.boot.cause = cause ∧ d.boot.held = held ∧ d.boot.recov = some { stepUs := c.us, startUs := c.us }
  ∧ d.boot.recovs = c.recentRecovs ++ [c.ms] ∧ d.line.state ≠ .up ∧ (held = false → d.line.state = .downLof)
  ∧ (held = true → c.line.state ≠ .up → d.line.state = c.line.state) ∧ d.sec.cur = c.sec.cur
  ∧ (∀ k : Nat, k < 16 → (d.slot k).mode = (c.slot k).mode ∧ (d.slot k).body = (c.slot k).body)
  ∧ (∃ x ∈ d.evr.input, x.ev = .bootRecov ∧ x.value = cause) ∧ Kept [.boot, .line, .opt, .ctrl, .evr, .regs, .time, .sec, .hlth] c d

/-- A cold restart has started (R529, R530): nothing of the channel is kept but its ticks, and the recorder whose pending seal runs first
(R593); COLD_CNT counts it after the clearing. -/
def Sys2Proof.Safety.ColdStarts (cause : Nat) (c d : Chan) : Prop :=
  d.boot.phase = 11 ∧ d.boot.cause = cause ∧ d.us = c.us ∧ d.ms = c.ms ∧ d.sec.cur = none ∧ (∀ k : Nat, k < 16 → (d.slot k).mode = .free)
  ∧ d.col.ctxs = [] ∧ d.oldEvr = c.toSeal ∧ d.reg 0xA4 = satAdd (chanReset 0xA4) 1 ∧ (∀ off : Nat, off ≠ 0xA4 → d.reg off = chanReset off)
  ∧ ({ ev := .bootCold, plane := .management, value := cause } : Raised) ∈ d.evr.input

/-- Start-up. The hub takes the primary image, else the golden one, or none (R521–R523), and every populated channel goes on with it alone
(R525); a strap holds channels until BOOT_REL (R514). A step past twice its bound is repeated once (R527); a fault stops the channel at
its step (R526, R536). The fused SVN advances once every channel has served (R524). A channel that was cleared, or whose cutout is over,
starts again (R20, R529), after the seal that was pending, or 10 s (R593). One command runs steps 2 to 5 with the outcomes of its operand
(log entry 135). -/
def Obligations.StartUp : Prop :=
  (∀ (s : State) (f : StartFacts),
    (s.hub.failed = true ∨ s.hub.pwr.pwrgd = false ∨ s.hub.boot.phase ≠ 0 → exec (.powerGoodStart f) s = .next s)
    ∧ (s.hub.failed = false → s.hub.pwr.pwrgd = true → s.hub.boot.phase = 0 → fld f.straps 1 0 = 0 → f.straps.getLsbD 3 = false →
      (s.imageReason f.primary ≠ 0 → s.imageReason f.golden ≠ 0 → ∃ t, exec (.powerGoodStart f) s = .next t ∧ t.chans = s.chans
        ∧ t.pending = s.pending ∧ t.hub.boot.phase = 3 ∧ t.hub.boot.img = s.hub.boot.img ∧ t.hub.boot.failP = s.imageReason f.primary
        ∧ t.hub.boot.failG = s.imageReason f.golden ∧ t.hub.boot.unowned = s.hub.boot.ownerRoot.isNone
        ∧ ({ ev := .bootFallback, plane := .management } : Raised) ∈ t.hub.evr.input
        ∧ ({ ev := .bootImageFail, plane := .management } : Raised) ∈ t.hub.evr.input)
      ∧ ((∀ n : Fin 8, (vget f.steps n).ends ≤ 1) → regRecords (imgOfType f.primary 0x11) = [] → regRecords (imgOfType f.golden 0x11) = [] →
        let took (t : State) (img : Nat) (i : ImageIn) : Prop :=
          (∀ n : Fin 8, t.chan n = if s.present n then (s.chan n).atPhase 1 else s.chan n) ∧ t.pending = s.pending ∧ t.hub.boot.phase = 2
          ∧ t.hub.boot.img = img ∧ t.hub.boot.imgSvn = imgSvn (i.slot.getD []) ∧ t.hub.boot.unowned = s.hub.boot.ownerRoot.isNone
          ∧ (s.hub.boot.ownerRoot = none → ({ ev := .bootUnowned, plane := .management } : Raised) ∈ t.hub.evr.input)
          ∧ t.hub.boot.chRel.toNat = fld s.hub.caps 15 8 ∧ t.hub.regs = s.hub.regs
        ∃ t, exec (.powerGoodStart f) s = .next t ∧
          if s.imageReason f.primary = 0 then took t 0 f.primary ∧ t.hub.boot.failP = 0
          else if s.imageReason f.golden = 0 then took t 1 f.golden ∧ t.hub.boot.failP = s.imageReason f.primary
            ∧ ({ ev := .bootFallback, plane := .management } : Raised) ∈ t.hub.evr.input
          else t.hub.boot.phase = 3)))
  ∧ (∀ (s : State) (data : Word) (fs : Vector StepFacts 8) (n : Fin 8), s.hub.failed = false → s.present n = true → (s.chan n).boot.hold = true →
    bitOf data n = true → (∀ m : Fin 8, m ≠ n → bitOf data m = false) →
    let f := vget fs n
    let c := s.chan n
    ∃ t, exec (.bootRel data fs) s = .next t ∧ OthersKept n s t ∧ t.pending = s.pending
      ∧ t.hub = { s.hub with boot := { s.hub.boot with chRel := putBit s.hub.boot.chRel n true } }
      ∧ (let d := t.chan n
        d.boot.hold = false
        ∧ (f.ends ≤ 2 → d.boot.phase = 2 ∧ Kept [.boot] c d)
        ∧ (3 ≤ f.ends → c.poolBad = true → d.boot.phase = 9 ∧ ({ ev := .poolShareBad, plane := .management } : Raised) ∈ d.evr.input)
        ∧ (3 ≤ f.ends → c.poolBad = false → f.stagesOk = false → d.boot.phase = 10)
        ∧ (3 ≤ f.ends → c.poolBad = false → f.stagesOk = true → f.core0 = false → f.core1 = false →
          d.boot.phase = 10 ∧ ({ ev := .bootOutOfService, plane := .management } : Raised) ∈ d.evr.input)
        ∧ (4 ≤ f.ends → c.poolBad = false → f.stagesOk = true → f.core0 = true → (c.unit 5 0).st ≠ .permanent → f.badUnits = [] →
          d.boot.core = false ∧ d.sec.rngOk = f.rngOk
          ∧ (c.layoutBad = true → d.boot.phase = 9 ∧ ({ ev := .memLayoutBad, plane := .management } : Raised) ∈ d.evr.input)
          ∧ (c.layoutBad = false → f.trained ≠ BitVec.allOnes 16 → d.boot.phase = 10 ∧ d.mem.phase = .failed ∧ d.mem.chUp = f.trained ∧ ({ ev := .memTrainFail } : Raised) ∈ d.evr.input)
          ∧ (c.layoutBad = false → f.trained = BitVec.allOnes 16 → d.mem.phase = .up ∧ d.mem.chUp = f.trained
            ∧ (f.ends = 4 → d.boot.phase = 4)
            ∧ (5 ≤ f.ends → c.planBad = true → d.boot.phase = 9 ∧ ({ ev := .optPlanBad, plane := .management } : Raised) ∈ d.evr.input)
            ∧ (5 ≤ f.ends → c.planBad = false → d.boot.phase = if s.hub.pwr.laserEnN then 4 else 5)))))
  ∧ (∀ (s : State) (ch : Fin 8) (img : ChanImg) (f : StepFacts),
    let c := s.chan ch
    let running := s.present ch = true ∧ 1 ≤ c.boot.phase ∧ c.boot.phase ≤ 6 ∧ c.boot.hold = false
      ∧ ¬(c.boot.phase = 4 ∧ s.hub.pwr.laserEnN = true) ∧ ¬(c.boot.phase = 5 ∧ c.peerLit = false)
      ∧ c.boot.stepUs + 2 * c.startBound (s.hub.retiredOf ch).length < c.us
    (¬running → exec (.startupStepLate ch img f) s = .next s)
    ∧ (running → c.boot.late = true → Changes (.startupStepLate ch img f) s ch fun c d =>
      d.boot.phase = 9 ∧ d.opt.laserOn = false ∧ ({ ev := .bootStepLate, plane := .management } : Raised) ∈ d.evr.input ∧ Kept [.boot, .opt, .evr] c d)
    ∧ (running → c.boot.late = false → c.boot.phase = 3 → f.ends ≤ 3 → Changes (.startupStepLate ch img f) s ch fun c d =>
      d.boot = { c.boot with late := true, stepUs := c.us } ∧ d.evr.input = c.evr.input ++ [{ ev := .bootStepLate, plane := .management, value := 3 }]
      ∧ Kept [.boot, .evr] c d))
  ∧ (∀ s : State,
    let ready := s.hub.failed = false ∧ (∀ n : Fin 8, s.present n = true → (s.chan n).boot.served = true) ∧ s.hub.boot.advance = true
      ∧ s.hub.boot.phase = 2 ∧ s.hub.boot.fuseSvn < s.hub.boot.imgSvn
    (¬ready → exec .svnFuseAdvance s = .next s)
    ∧ (ready → exec .svnFuseAdvance s
        = .next { s with hub := { s.hub with boot := { s.hub.boot with fuseSvn := s.hub.boot.imgSvn } } }))
  ∧ ∀ (s : State) (ch : Fin 8) (img : ChanImg) (f : StepFacts), s.hub.failed = false → s.hub.boot.phase = 2 → s.present ch = true → f.ends ≤ 1 →
    ((s.chan ch).boot.phase = 11 → (s.chan ch).oldEvr = none → Changes (.coldRestart ch img f) s ch fun c d => d = c.atPhase 1)
    ∧ (∀ o : OldEvr, (s.chan ch).boot.phase = 11 → (s.chan ch).oldEvr = some o →
      ((s.chan ch).ms ≤ o.since + 10000 → exec (.coldRestart ch img f) s = .next s)
      ∧ (o.since + 10000 < (s.chan ch).ms → ∃ t, exec (.coldRestart ch img f) s = .next t ∧ OthersKept ch s t ∧ t.pending = s.pending
        ∧ t.chan ch = { (s.chan ch).atPhase 1 with oldEvr := none } ∧ t.hub.sealing ≠ some ch.val ∧ ch.val ∉ t.hub.sealQ ∧ t.hub.regs = s.hub.regs))
    ∧ ((s.chan ch).boot.phase = 0 → (s.chan ch).boot.cause = 5 → bitOf s.hub.pwr.hot ch = true → exec (.coldRestart ch img f) s = .next s)
    ∧ ((s.chan ch).boot.phase = 0 → (s.chan ch).boot.cause = 5 → bitOf s.hub.pwr.hot ch = false → (s.chan ch).oldEvr = none → Changes (.coldRestart ch img f) s ch fun c d =>
      d.boot.phase = 1 ∧ d.boot.cause = 5 ∧ d.us = c.us ∧ d.sec.cur = none ∧ d.reg 0xA4 = satAdd (chanReset 0xA4) 1)
    ∧ ((s.chan ch).boot.phase ∉ [0, 11] → exec (.coldRestart ch img f) s = .next s)

/-- Recovery, power states and the DMA guard. A detector is counted, and in service it starts a recovery, or ends service after RECOV_MAX of
them in 10 minutes, with LINE_DOWN where the line was UP (R310, R531, R532, R537, R538). A recovery takes its steps in order and reaches
service again (R535, R536); past its limits it becomes a cold restart (R531, R537). A hung core is replaced by the spare, and with no spare
DET 0x14 trips (R539, R540). Both ends' offers agree on a power state and an instant (R543), the entry to Deep waits for the spill queues
(R137), a wake leaves the state (R544), and an access outside every open DMA window is refused (R541). A write to the window of an absent
channel is refused (R7). That the instant is exactly 2
× RTT ahead is the model's choice (log entry 136). -/
def Obligations.RecoveryAndPower : Prop :=
  (∀ (s : State) (ch : Fin 8) (k : Fin 13), s.present ch = true →
    ∀ x ∈ [(Instr.stageHang ch k, k.val + 1, 1), (.sequencerHang ch, 0x10, 1), (.lpddr6Hang ch, 0x11, 1), (.tickMissHang ch, 0x12, 1), (.coresLost ch, 0x14, 4)],
    let max := fld ((s.chan ch).reg 0xC) 7 0
    let tripped (c d : Chan) : Prop := d.boot.det = x.2.1 ∧ d.reg 0xA8 = satAdd (c.reg 0xA8) 1
      ∧ ({ ev := .bootHang, plane := .management, value := x.2.1, unit := x.2.1 } : Raised) ∈ d.evr.input
    ((s.chan ch).boot.phase < 3 ∨ 8 < (s.chan ch).boot.phase → Changes x.1 s ch fun c d => d = c)
    ∧ (3 ≤ (s.chan ch).boot.phase → (s.chan ch).boot.phase ≤ 8 → (s.chan ch).boot.phase ≠ 7 → Changes x.1 s ch fun c d =>
      tripped c d ∧ d.boot = { c.boot with det := x.2.1 } ∧ Kept [.boot, .regs, .evr] c d)
    ∧ ((s.chan ch).boot.phase = 7 → (s.chan ch).recentRecovs.length < max → Changes x.1 s ch fun c d =>
      tripped c d ∧ RecoveryStarts x.2.2 (!lineDet x.2.1) c d)
    ∧ ((s.chan ch).boot.phase = 7 → max ≤ (s.chan ch).recentRecovs.length → Changes x.1 s ch fun c d =>
      tripped c d ∧ d.boot.phase = 10 ∧ d.boot.cause = x.2.2 ∧ d.opt.laserOn = false
      ∧ ({ ev := .bootOutOfService, plane := .management } : Raised) ∈ d.evr.input
      ∧ (c.line.state ≠ .up → Kept [.boot, .opt, .regs, .evr] c d)
      ∧ (c.line.state = .up → d.line.state = .rxUp ∧ ({ ev := .lineDown } : Raised) ∈ d.evr.input)))
  ∧ (∀ (s : State) (ch : Fin 8), HostUp s → s.hasWindow ch = false →
    (∀ i ∈ [Instr.recover ch, .returnCmd ch, .cold ch], ∃ t, exec i s = .next t ∧ HostWriteRefused s t .absentUnit (0x2000000 * ch.val + 4))
    ∧ ∀ data : Word, ∃ t, exec (.wakeTolWrite ch data) s = .next t ∧ HostWriteRefused s t .absentUnit (0x2000000 * ch.val + 8))
  ∧ (∀ (s : State) (ch : Fin 8), s.hasWindow ch = true →
    (∀ x ∈ [(Instr.recover ch, 2), (.firmwareRecoverRequest ch, 3)],
      ((s.chan ch).boot.phase ≠ 7 → Changes x.1 s ch fun c d => d = c)
      ∧ ((s.chan ch).boot.phase = 7 → (s.chan ch).recentRecovs.length < fld ((s.chan ch).reg 0xC) 7 0 →
        Changes x.1 s ch fun c d => RecoveryStarts x.2 true c d ∧ d.boot.det = c.boot.det))
    ∧ ((s.chan ch).boot.phase ≠ 10 → Changes (.returnCmd ch) s ch fun c d => d = c)
    ∧ ((s.chan ch).boot.phase = 10 → Changes (.returnCmd ch) s ch fun c d => RecoveryStarts 2 false c d)
    ∧ ((s.chan ch).boot.phase = 0 ∨ (s.chan ch).boot.phase = 11 → Changes (.cold ch) s ch fun c d => d = c)
    ∧ ((s.chan ch).boot.phase ≠ 0 → (s.chan ch).boot.phase ≠ 11 → Changes (.cold ch) s ch (ColdStarts 2)))
  ∧ (∀ (s : State) (ch : Fin 8), s.present ch = true →
    ((s.chan ch).boot.phase = 8 → (s.chan ch).recovLate = true → Changes (.recoveryStepLate ch) s ch fun c d =>
      ColdStarts 6 c d ∧ ({ ev := .bootRecovFail, plane := .management } : Raised) ∈ d.evr.input)
    ∧ ((s.chan ch).boot.phase ≠ 8 ∨ (s.chan ch).recovLate = false → Changes (.recoveryStepLate ch) s ch fun c d => d = c)
    ∧ (∀ r : Recov, (s.chan ch).boot.recov = some r →
      ((s.chan ch).boot.phase = 8 → r.startUs + 4000000 < (s.chan ch).us → Changes (.recoveryTimeout ch) s ch fun c d =>
        ColdStarts 6 c d ∧ ({ ev := .bootRecovFail, plane := .management } : Raised) ∈ d.evr.input)
      ∧ ((s.chan ch).us ≤ r.startUs + 4000000 → Changes (.recoveryTimeout ch) s ch fun c d => d = c)))
  ∧ (∀ (s : State) (ch : Fin 8) (f : RecovFacts), s.present ch = true →
    ((s.chan ch).boot.phase ≠ 8 → Changes (.channelRecovery ch f) s ch fun c d => d = c)
    ∧ ∀ r : Recov, (s.chan ch).boot.phase = 8 → (s.chan ch).boot.recov = some r → r.relockUs = none →
      let at_ (k : Nat) (c d : Chan) : Prop := d.boot.recov = some { r with step := k, stepUs := c.us } ∧ d.boot.phase = 8
      (r.step = 1 → Changes (.channelRecovery ch f) s ch fun c d => at_ 2 c d ∧ Kept [.boot] c d)
      ∧ (r.step = 2 → (s.chan ch).mem.phase = .up → Changes (.channelRecovery ch f) s ch fun c d => d = c)
      ∧ (r.step = 2 → (s.chan ch).mem.phase = .off → Changes (.channelRecovery ch f) s ch fun c d => at_ 3 c d ∧ Kept [.boot] c d)
      ∧ (r.step = 3 → (s.chan ch).boot.held = true → (s.chan ch).opt.safeTrip = false → (s.chan ch).inProgress = [] →
        (∀ k : Nat, k < 16 → ((s.chan ch).slot k).pend = none) → Changes (.channelRecovery ch f) s ch fun c d =>
          at_ 4 c d ∧ d.col.ctxs = [] ∧ d.col.comms = c.col.comms ∧ d.ctrl.slots = c.ctrl.slots ∧ d.ctrl.seqIn = [] ∧ d.fab.held = []
          ∧ d.codec.packQ = [] ∧ d.codec.expQ = [] ∧ d.codec.extents = c.codec.extents.map dropWorking ∧ d.sch.flows = [] ∧ d.line.rtx.length = c.line.rtx.length
          ∧ MemoryKept c d ∧ Kept [.boot, .line, .ctrl, .fab, .mem, .col, .codec, .mtx, .sch, .prov] c d)
      ∧ (r.step = 4 → (s.chan ch).hubLost = true → Changes (.channelRecovery ch f) s ch fun c d => d = c)
      ∧ (r.step = 4 → (s.chan ch).hubLost = false → imgFw f.img = (s.chan ch).boot.fwDigest → imgSec f.img = (s.chan ch).boot.secDigest → Changes (.channelRecovery ch f) s ch fun c d => at_ 5 c d ∧ Kept [.boot] c d)
      ∧ (r.step = 4 → (s.chan ch).hubLost = false → imgFw f.img ≠ (s.chan ch).boot.fwDigest ∨ imgSec f.img ≠ (s.chan ch).boot.secDigest → Changes (.channelRecovery ch f) s ch fun c d =>
        d.boot.phase = 10 ∧ d.boot.recov = none ∧ ({ ev := .bootImageChanged, plane := .management } : Raised) ∈ d.evr.input
        ∧ (c.line.state ≠ .up → Kept [.boot, .opt, .evr] c d))
      ∧ (r.step = 5 → f.stagesOk = false ∨ (f.core0 = false ∧ f.core1 = false) → Changes (.channelRecovery ch f) s ch fun c d =>
        d.boot.phase = 10 ∧ d.boot.recov = none ∧ (c.line.state ≠ .up → Kept [.boot, .opt, .evr] c d))
      ∧ (r.step = 5 → f.stagesOk = true → f.core0 = true → ((s.chan ch).unit 5 0).st ≠ .permanent → f.badUnits = [] →
        Changes (.channelRecovery ch f) s ch fun c d =>
          at_ 6 c d ∧ d.boot.core = false ∧ d.boot.ckptMs = none ∧ d.sec.rngOk = f.rngOk
          ∧ (∀ p : Fin 4, d.mem.pools[p] = { c.mem.pools[p] with minFree := poolBufs p - c.mem.pools[p].bufs.length })
          ∧ MemoryKept c d ∧ Kept [.boot, .sec, .mem] c d)
      ∧ (r.step = 6 → (s.chan ch).mem.phase = .up → Changes (.channelRecovery ch f) s ch fun c d =>
        at_ 7 c d ∧ (∀ p : Fin 4, (d.port p).state = .retraining ∧ (d.port p).attempt = 1
          ∧ fld (d.reg (0x100000 + 4 * p.val)) 23 16 = min 255 (fld (c.reg (0x100000 + 4 * p.val)) 23 16 + 1))
        ∧ Kept [.boot, .fab, .regs, .evr] c d)
      ∧ (r.step = 6 → (s.chan ch).mem.phase = .off ∨ (s.chan ch).mem.phase = .failed → Changes (.channelRecovery ch f) s ch fun c d =>
        d = { c with mem := { c.mem with phase := .fullTraining } })
      ∧ (r.step = 7 → (∃ p : Fin 4, ((s.chan ch).port p).state ≠ .up ∧ ((s.chan ch).port p).state ≠ .down) → Changes (.channelRecovery ch f) s ch fun c d => d = c)
      ∧ (r.step = 7 → (∀ p : Fin 4, ((s.chan ch).port p).state = .up ∨ ((s.chan ch).port p).state = .down) → (s.chan ch).boot.held = true →
        Changes (.channelRecovery ch f) s ch fun c d => at_ 9 c d ∧ d.sec.cur = c.sec.cur
          ∧ (c.sec.cur.isSome = true → d.sec.resumeUs = some c.us ∧ d.sec.phase = .resuming) ∧ Kept [.boot, .sec, .line] c d)
      ∧ (r.step = 9 → (s.chan ch).sec.cur = none ∨ (s.chan ch).sec.resumeUs.isSome = true ∨ (s.chan ch).sec.phase ≠ .service →
        Changes (.channelRecovery ch f) s ch fun c d => d = c)
      ∧ (r.step = 9 → (s.chan ch).sec.cur.isSome = true → (s.chan ch).sec.resumeUs = none → (s.chan ch).sec.phase = .service →
        Changes (.channelRecovery ch f) s ch fun c d =>
          d.boot.phase = 7 ∧ d.boot.recov = none ∧ d.reg 0xA0 = satAdd (c.reg 0xA0) 1 ∧ d.sec.cur = c.sec.cur
          ∧ ({ ev := .bootRecovDone, plane := .management } : Raised) ∈ d.evr.input))
  ∧ (∀ (s : State) (ch : Fin 8) (ok : Bool), s.present ch = true →
    ((s.chan ch).watched = false → Changes (.coreWatchdog ch ok) s ch fun c d => d = c)
    ∧ ((s.chan ch).watched = true →
      let hung := (s.chan ch).boot.core.toNat
      let counted (c d : Chan) : Prop :=
        ({ ev := .bootCoreHang, plane := .management, value := 0x18, uclass := 5, unit := hung } : Raised) ∈ d.evr.input
        ∧ (ok = true → d.hlth.units = c.hlth.units)
        ∧ (ok = false → d.reg 0xD00050 = satAdd (c.reg 0xD00050) 1 ∧ (d.unit 5 hung).demerit = (c.unit 5 hung).demerit + 700 * 2 ^ 32)
      ((s.chan ch).boot.spareOk = true → Changes (.coreWatchdog ch ok) s ch fun c d =>
        counted c d ∧ d.boot = { c.boot with det := 0x18, core := !c.boot.core, spareOk := ok } ∧ d.reg 0xA8 = satAdd (c.reg 0xA8) 1
        ∧ d.reg 0xAC = satAdd (c.reg 0xAC) 1 ∧ Kept [.boot, .regs, .evr, .hlth] c d)
      ∧ ((s.chan ch).boot.spareOk = false → Changes (.coreWatchdog ch ok) s ch fun c d =>
        ({ ev := .bootHang, plane := .management, value := 0x14, unit := 0x14 } : Raised) ∈ d.evr.input ∧ d.boot.det = 0x14
        ∧ d.boot.core = c.boot.core ∧ d.boot.spareOk = false ∧ d.reg 0xA8 = satAdd (satAdd (c.reg 0xA8) 1) 1
        ∧ (c.boot.phase ≠ 7 → counted c d ∧ d.boot = { c.boot with det := 0x14 } ∧ Kept [.boot, .regs, .evr, .hlth] c d)
        ∧ (c.boot.phase = 7 → c.recentRecovs.length < fld (c.reg 0xC) 7 0 → RecoveryStarts 4 true c d)
        ∧ (c.boot.phase = 7 → fld (c.reg 0xC) 7 0 ≤ c.recentRecovs.length → d.boot.phase = 10 ∧ d.boot.cause = 4))))
  ∧ (∀ (s : State) (ch : Fin 8), InLife s ch →
    let due := ∀ t : Nat, (s.chan ch).boot.ckptMs = some t → t + fld ((s.chan ch).reg 0xC) 15 8 ≤ (s.chan ch).ms
    (due → Changes (.coreCheckpoint ch) s ch fun c d => d = { c with boot := { c.boot with ckptMs := some c.ms } })
    ∧ (¬due → Changes (.coreCheckpoint ch) s ch fun c d => d = c))
  ∧ (∀ s : State, (s.hub.failed = true → exec .hubWatchdog s = .next s)
    ∧ (s.hub.failed = false → ∃ t, exec .hubWatchdog s = .next t ∧ t.chans = s.chans ∧ t.pending = s.pending ∧ t.hub.host.mode = .down
      ∧ t.hub.spdm = { slot0 := s.hub.spdm.slot0, slot1 := s.hub.spdm.slot1 } ∧ (∀ off : Nat, off < 0xF00000 → t.hub.reg off = s.hub.reg off) ∧ t.hub.gtime = s.hub.gtime
      ∧ (∀ k : Fin 32, t.hub.host.h2d[k].full = false ∧ t.hub.host.d2h[k].full = false)
      ∧ ({ ev := .bootHubReset, plane := .management } : Raised) ∈ t.hub.evr.input))
  ∧ (∀ (s : State) (ch : Fin 8) (st : BitVec 8) (sec : BitVec 48) (ns : BitVec 32), InPath s ch →
    (3 < st.toNat → Changes (.pwrOffer ch st sec ns) s ch fun c d => Kept [.line] c d)
    ∧ (st.toNat ≤ 3 → Changes (.pwrOffer ch st sec ns) s ch fun c d =>
      d.boot.peerOffer = st.toNat ∧ d.boot.peerMs = some c.ms ∧ d.boot.offer = c.boot.offer ∧ d.boot.pst = c.boot.pst
      ∧ (st = 0 → d.boot.entryAt = none) ∧ (st ≠ 0 → c.isA = true → d.boot.entryAt = c.boot.entryAt)
      ∧ (∀ t : Instant, st ≠ 0 → c.isA = false → instantOf sec ns = some t → t ≠ 0 →
          d.boot.entryAt = some (if c.isAligned then t else c.now + 10000000))
      ∧ Kept [.line, .boot, .regs] c d))
  ∧ (∀ (s : State) (ch : Fin 8), InPath s ch →
    let c := s.chan ch
    (c.boot.pst ≠ 0 ∨ c.ms < c.boot.offerMs + 100 → Changes (.pwrOfferSend ch) s ch fun c d => d = c)
    ∧ (c.boot.pst = 0 → c.boot.offerMs + 100 ≤ c.ms → Changes (.pwrOfferSend ch) s ch fun c d =>
      d.boot.offer = c.wantState ∧ d.boot.offerMs = c.ms ∧ Sent 0 c d
      ∧ (c.wantState = 0 → d.boot.entryAt = none) ∧ (c.wantState ≠ 0 → c.boot.entryAt ≠ none → d.boot.entryAt = c.boot.entryAt)
      ∧ (c.wantState ≠ 0 → c.boot.entryAt = none →
          d.boot.entryAt = if c.isA && decide (c.boot.peerOffer ≠ 0) then some (c.now + 2 * c.rttNs) else none)
      ∧ Kept [.line, .boot] c d)
    ∧ (c.occupied ≠ [] ∨ c.boot.phase ≠ 7 → c.wantState = 0) ∧ c.wantState ≤ 3
    ∧ (∀ t : Nat, c.boot.peerMs = some t →
      (t + 300 < c.ms → Changes (.pwrOfferLapse ch) s ch fun c d => d = { c with boot := { c.boot with entryAt := none, peerOffer := 0, peerMs := none } })
      ∧ (c.ms ≤ t + 300 → Changes (.pwrOfferLapse ch) s ch fun c d => d = c))
    ∧ ∀ t : Instant, c.boot.entryAt = some t →
      let wait := min c.boot.offer c.boot.peerOffer = 3 ∧ c.mem.spill ≠ []
      (c.now < t ∨ c.boot.pst ≠ 0 ∨ wait → Changes (.powerStateEntry ch) s ch fun c d => d = c)
      ∧ (t ≤ c.now → c.boot.pst = 0 → min c.boot.offer c.boot.peerOffer = 0 → Changes (.powerStateEntry ch) s ch fun c d =>
        d = { c with boot := { c.boot with entryAt := none } })
      ∧ (t ≤ c.now → c.boot.pst = 0 → min c.boot.offer c.boot.peerOffer ≠ 0 → ¬wait → Changes (.powerStateEntry ch) s ch fun c d =>
        let st := min c.boot.offer c.boot.peerOffer
        d.boot.pst = st ∧ d.boot.entryAt = none ∧ ({ ev := .bootPwrEnter, plane := .management, value := st } : Raised) ∈ d.evr.input
        ∧ d.line.state = (if c.line.state = .up then .rxUp else c.line.state) ∧ (2 ≤ st → d.opt.tlTx = false) ∧ (st = 3 → d.opt.laserOn = false)
        ∧ (st = 1 → c.line.state ≠ .up → Kept [.boot, .evr] c d)))
  ∧ (∀ (s : State) (ch : Fin 8) (request : Bool), InPath s ch →
    let asleep := (s.chan ch).boot.pst ≠ 0 ∧ (s.chan ch).boot.pst ≠ 4
    let woken (cause : Nat) (c d : Chan) : Prop :=
      d.boot = { c.boot with
        pst := 4, wakeCause := cause, wakeUs := c.us + 100 * wakeLatency c.boot.pst, offer := 0, peerOffer := 0, peerMs := none }
      ∧ d.reg 0xB4 = satAdd (c.reg 0xB4) 1 ∧ ({ ev := .bootPwrWake, plane := .management, value := cause } : Raised) ∈ d.evr.input
      ∧ Kept [.boot, .regs, .evr] c d
    (¬asleep → Changes (.wake ch request) s ch fun c d => d = c)
    ∧ (asleep → Changes (.wake ch request) s ch (woken (if request then 2 else 3)))
    ∧ ∀ data : Word, s.hasWindow ch = true → Changes (.wakeTolWrite ch data) s ch fun c d => d.reg 0x8 = data &&& 0xFFFF0000
      ∧ (¬asleep ∨ wakeLatency c.boot.pst ≤ fld data 31 16 → Kept [.regs] c d)
      ∧ (asleep → fld data 31 16 < wakeLatency c.boot.pst → woken 1 c d))
  ∧ ∀ (s : State) (ch : Fin 8) (q : DmaReq),
    (s.present ch = false ∨ s.hub.failed = true ∨ (s.chan ch).live = false → exec (.dmaAccess ch q) s = .next s)
    ∧ (InLife s ch → s.hub.failed = false →
      ((s.chan ch).dmaOk q = true → (s.chan ch).boot.dmaQ = [] → 0 < (s.chan ch).boot.dmaBucket → Changes (.dmaAccess ch q) s ch fun c d =>
        d = { c with boot := { c.boot with dmaBucket := c.boot.dmaBucket - q.len.toNat, dmaOut := some q } })
      ∧ ((s.chan ch).dmaOk q = true → (s.chan ch).boot.dmaBucket ≤ 0 → Changes (.dmaAccess ch q) s ch fun c d =>
        d = { c with boot := { c.boot with dmaQ := c.boot.dmaQ ++ [q] } })
      ∧ ((s.chan ch).dmaOk q = false → (s.chan ch).hubLost = false → Changes (.dmaAccess ch q) s ch fun c d =>
        d.boot = c.boot ∧ d.reg 0xB0 = satAdd (c.reg 0xB0) 1 ∧ ({ ev := .bootDmaBlock, plane := .management, addr := q.addr.toNat } : Raised) ∈ d.evr.input
        ∧ (∃ v : Viol, d.viols = c.viols ++ [v] ∧ v.source = .dmaGuard ∧ v.kind = .outsideDma ∧ v.addr = q.addr.toNat ∧ v.write = q.write)
        ∧ Kept [.regs, .evr, .viols] c d))

/-! ### Host port -/

/-- A command has left every channel, the queue and the free values as they were; `h` is the hub after it. -/
def Sys2Proof.Safety.OnHub (i : Instr) (s : State) (P : Hub → Hub → Prop) : Prop := ∃ h, exec i s = .next { s with hub := h } ∧ P s.hub h

/-- The newest entry of GLB.VIOL_LOG is a violation with this source, kind and address, and HOST_VIOL went to the recorder (R558, R559). -/
def Sys2Proof.Safety.Logged (h k : Hub) (src : ViolSource) (kind : ViolKind) (addr : Nat) : Prop :=
  k.evr.input = h.evr.input ++ [{ ev := .hostViol, plane := .management }]
  ∧ ∃ e : ViolEntry, cget? k.host.violLog ((k.host.violWr - 1).toNat % 64) = some e ∧ e.viol.source = src ∧ e.viol.kind = kind ∧ e.viol.addr = addr

/-- No mailbox but H2D mailbox `k`, or but D2H mailbox `k`, has changed. -/
def Sys2Proof.Safety.OtherH2dKept (k : Nat) (g h : Hub) : Prop :=
  h.host.d2h = g.host.d2h ∧ ∀ j : Nat, j ≠ k → vget h.host.h2d j = vget g.host.h2d j
def Sys2Proof.Safety.OtherD2hKept (k : Nat) (g h : Hub) : Prop :=
  h.host.h2d = g.host.h2d ∧ ∀ j : Nat, j ≠ k → vget h.host.d2h j = vget g.host.d2h j

/-- The host port. Only CXL at x16 or x8 and 64 GT/s is CXL mode (R550, R551); a port reset empties every mailbox (R568). An access to the
HDM window is answered by row (R556); nothing but a host write of region 7 changes memory. A post fills a mailbox, one that is full
drops it, and what nobody takes is withdrawn (R565–R568, R570); each notice carries its sender (R563). A channel's violations enter the
log in order, with their own stamps (R560). A vector that pends is signalled once it is unmasked (R571). A read of lost lines is poisoned,
and a line written whole is found again (R129). Bytes of region 7 that nothing has written read 0 (log entry 61). -/
def Obligations.HostPortCommands : Prop :=
  (∀ (s : State) (k : Fin 32) (v : Fin 64) (w : Word) (ws : Vector Word 4) (b c d e : Bool) (n : Nat) (wd : Fin 17) (rt : Fin 7) (ch : Fin 8) (p : Party)
    (line : BitVec 30), s.hub.failed = true → ∀ i ∈ [Instr.hostLinkTrain b wd rt c d, .hostPortReset, .hdmAccess line none, .doorbell k w, .h2dTake k none,
      .d2hPost k p ws, .take k, .mailboxTimeout b k, .violationDelivery ch, .msixUnmask v, .ideKmRequest n b c e, .ideCheckFail, .cdatRead],
    exec i s = .next s)
  ∧ (∀ (s : State) (cxl cacheEn memEn : Bool) (width : Fin 17) (rate : Fin 7), s.hub.failed = false →
    (s.hub.pwr.pwrgd = false → exec (.hostLinkTrain cxl width rate cacheEn memEn) s = .next s)
    ∧ (s.hub.pwr.pwrgd = true → OnHub (.hostLinkTrain cxl width rate cacheEn memEn) s fun g h =>
      let isCxl := cxl = true ∧ (width.val = 16 ∨ width.val = 8) ∧ rate.val = 6
      (isCxl → h.host.mode = .cxl ∧ h.host.cacheEn = cacheEn ∧ h.host.memEn = memEn
        ∧ (width.val = 8 ↔ ∃ x ∈ h.evr.input.drop g.evr.input.length, x.ev = .hostLinkDegraded))
      ∧ (¬isCxl → h.host.mode = .pcieOnly ∧ h.host.cacheEn = false ∧ h.host.memEn = false
        ∧ ({ ev := .hostPcieOnly, plane := .management } : Raised) ∈ h.evr.input)
      ∧ h.host.width = width ∧ h.host.rate = rate ∧ ({ ev := .hostLinkUp, plane := .management } : Raised) ∈ h.evr.input
      ∧ h.host.h2d = g.host.h2d ∧ h.host.d2h = g.host.d2h ∧ h.regs = g.regs)
    ∧ OnHub .hostPortReset s (fun g h => h.host.mode = .down ∧ h.host.ideKeyed = false ∧ h.host.masked = BitVec.allOnes 64
      ∧ (∀ off : Nat, off < 0xF00000 → h.reg off = g.reg off)
      ∧ (∀ k : Fin 32, h.host.h2d[k].full = false ∧ h.host.d2h[k].full = false ∧ (g.host.h2d[k].full = true → h.host.h2d[k].to_ = true)
        ∧ (g.host.d2h[k].full = true → h.host.d2h[k].to_ = true))
      ∧ ({ ev := .hostLinkDown, plane := .management } : Raised) ∈ h.evr.input ∧ h.host.violLog = g.host.violLog))
  ∧ (∀ (s : State) (line : BitVec 30) (n : Fin 8) (o : Nat), s.hub.failed = false → line.toNat * 64 = 8589934592 * n.val + o → o < 8589934592 →
    let r := (sliceMap o).1
    let x := (sliceMap o).2
    let c := s.chan n
    let open_ := s.hub.host.mode = .cxl ∧ s.present n = true ∧ bitOf (s.hub.reg 0xC) (3 * n.val + r - 5) = true ∧ x < c.mapped r
    (∀ data : Option (Vector (Option Byte) 64), s.hub.host.mode ≠ .cxl → exec (.hdmAccess line data) s = .next s)
    ∧ (s.hub.host.mode = .cxl → ¬open_ →
      OnHub (.hdmAccess line none) s (fun g h => h = { g with host := { g.host with hdm := .ones } })
      ∧ ∀ bs : Vector (Option Byte) 64, OnHub (.hdmAccess line (some bs)) s fun g h =>
        h.host.hdm = .error ∧ h.regs = g.regs ∧ h.host.aborts = g.host.aborts ∧ h.host.ras = g.host.ras + 1
        ∧ Logged g h .hostMem (if s.present n then .reservedOrAlign else .absentUnit) (8589934592 * n.val + o))
    ∧ (open_ → c.hdmOff = true → ∀ data : Option (Vector (Option Byte) 64), OnHub (.hdmAccess line data) s fun g h =>
      h.host.hdm = (if data.isSome then .dropped else .poison) ∧ h.reg 0x28 = satAdd (g.reg 0x28) 1
      ∧ h.evr.input = g.evr.input ++ [{ ev := .hostHdmUnavail, plane := .management, scope := n }])
    ∧ (open_ → c.hdmOff = false → r ≠ 7 → ∀ bs : Vector (Option Byte) 64, OnHub (.hdmAccess line (some bs)) s fun g h =>
      h.host.hdm = .error ∧ h.regs = g.regs ∧ h.host.ras = g.host.ras + 1 ∧ Logged g h .hostMem .readOnly (8589934592 * n.val + o))
    ∧ (open_ → c.hdmOff = false → r = 7 → ∀ bs : Vector (Option Byte) 64, ∃ t, exec (.hdmAccess line (some bs)) s = .next t
      ∧ t.hub = { s.hub with host := { s.hub.host with hdm := .written } } ∧ OthersKept n s t ∧ t.pending = s.pending ∧ t.free = s.free
      ∧ Kept [.mem] c (t.chan n)
      ∧ (∀ j : Fin 64, Memory.read (t.chan n).mem.region7 (x + j.val) = (bs[j]).getD (Memory.read c.mem.region7 (x + j.val)))
      ∧ ∀ a : Nat, a < x ∨ x + 64 ≤ a → Memory.read (t.chan n).mem.region7 a = Memory.read c.mem.region7 a)
    ∧ (open_ → c.hdmOff = false → (∃ l ∈ linesOf (c.regionBase r + x) 64, c.lineBad l = true) →
      OnHub (.hdmAccess line none) s fun g h => h = { g with host := { g.host with hdm := .poison } })
    ∧ (open_ → c.hdmOff = false → (∀ l ∈ linesOf (c.regionBase r + x) 64, c.lineBad l = false) → ∃ t, exec (.hdmAccess line none) s = .next t
      ∧ t.chans = s.chans ∧ t.pending = s.pending
      ∧ t.free = s.free + 1 ∧ ∃ bs : List Byte, t.hub = { s.hub with host := { s.hub.host with hdm := .data bs } } ∧ bs.length = 64
        ∧ (r = 7 → bs = (List.range 64).map fun i => Memory.read c.mem.region7 (x + i))
        ∧ (r = 5 → 65536 ≤ x → c.badUnits 5 = [] → bs = (List.range 64).map fun i =>
            lget 0 (cget [] c.prov.store ((x + i - 65536) / 128)) ((x + i) % 128))
        ∧ (r = 6 → 65536 ≤ x → c.badUnits 6 = [] → ∀ e : HistRec, cget? c.evr.hist ((x - 65536) / 256) = some e →
            bs = (List.range 64).map fun i => lget 0 (histBytes n e) ((x + i) % 256))))
  ∧ (∀ (s : State) (k : Fin 32) (w : Word), s.hub.failed = false →
    let m := vget s.hub.host.h2d k.val
    let q := { m with taken := m.taken && !w.getLsbD 29, to_ := m.to_ && !w.getLsbD 28, drop := m.drop && !w.getLsbD 27 }
    OnHub (.doorbell k w) s fun g h =>
      (w.getLsbD 31 = false → vget h.host.h2d k.val = q ∧ h.evr = g.evr)
      ∧ (w.getLsbD 31 = true → m.full = true → vget h.host.h2d k.val = { m with drop := true }
        ∧ h.evr.input = g.evr.input ++ [{ ev := .hostMbxDrop, plane := .management }])
      ∧ (w.getLsbD 31 = true → m.full = false →
        vget h.host.h2d k.val = { q with full := true, sinceMs := g.ms, words := vset m.words 3 (vget m.words 3 &&& 0xFFFF8000) } ∧ h.evr = g.evr)
      ∧ OtherH2dKept k.val g h ∧ h.regs = g.regs)
  ∧ (∀ (s : State) (k : Fin 32) (pass : Option (Vector Word 4)), s.hub.failed = false →
    let m := vget s.hub.host.h2d k.val
    let taken (g h : Hub) : Prop := vget h.host.h2d k.val = { m with full := false, taken := true } ∧ OtherH2dKept k.val g h ∧ h.regs = g.regs
    (m.full = false ∨ s.route k.val = .none → exec (.h2dTake k pass) s = .next s)
    ∧ (m.full = true → s.route k.val = .hubFw → OnHub (.h2dTake k pass) s taken)
    ∧ ∀ n : Fin 8, m.full = true → (s.chan n).inPath = true →
      (s.route k.val = .sequencer n → ∃ t, exec (.h2dTake k pass) s = .next t ∧ taken s.hub t.hub ∧ OthersKept n s t
        ∧ t.chan n = { s.chan n with ctrl := { (s.chan n).ctrl with notices := (s.chan n).ctrl.notices ++ [(k.val, m.words)] } })
      ∧ (s.route k.val = .chFw n → pass = none → OnHub (.h2dTake k pass) s taken)
      ∧ (∀ ws : Vector Word 4, s.route k.val = .chFw n → pass = some ws → s.hub.host.mode ≠ .cxl → bitOf (vget m.words 3) 15 = true →
        OnHub (.h2dTake k pass) s taken)
      ∧ ∀ ws : Vector Word 4, s.route k.val = .chFw n → pass = some ws → s.hub.host.mode = .cxl ∨ bitOf (vget m.words 3) 15 = false →
        ∃ t, exec (.h2dTake k pass) s = .next t ∧ taken s.hub t.hub ∧ OthersKept n s t
        ∧ ∃ v : Vector Word 4, t.chan n = { s.chan n with ctrl := { (s.chan n).ctrl with notices := (s.chan n).ctrl.notices ++ [(k.val, v)] } }
          ∧ (∀ j : Nat, j < 3 → vget v j = vget ws j) ∧ (vget v 3).toNat % 65536 = 32768 + 512 + n.val)
  ∧ (∀ (s : State) (k : Fin 32) (by_ : Party) (ws : Vector Word 4), s.partyUp by_ = true →
    let m := vget s.hub.host.d2h k.val
    (s.route k.val ≠ by_ → OnHub (.d2hPost k by_ ws) s fun g h => h.host.d2h = g.host.d2h ∧ h.host.h2d = g.host.h2d
      ∧ Logged g h (if by_ = .hubFw then .hubFirmware else .chFirmware) .mailboxRoute (0x502000 + 32 * k.val))
    ∧ (s.route k.val = by_ → m.full = true → OnHub (.d2hPost k by_ ws) s fun g h =>
      vget h.host.d2h k.val = { m with senderDrop := true } ∧ OtherD2hKept k.val g h
      ∧ h.evr.input = g.evr.input ++ [{ ev := .hostMbxDrop, plane := .management }])
    ∧ (s.route k.val = by_ → m.full = false → OnHub (.d2hPost k by_ ws) s fun g h =>
      let x := vget h.host.d2h k.val
      x.full = true ∧ x.sinceMs = g.ms ∧ (∀ j : Nat, j < 3 → vget x.words j = vget ws j)
      ∧ (vget x.words 3).toNat % 32768 = 256 * (senderOf by_).1 + (senderOf by_).2 % 256 ∧ OtherD2hKept k.val g h ∧ h.evr = g.evr ∧ h.regs = g.regs))
  ∧ (∀ (s : State) (k : Fin 32), s.hub.failed = false →
    let a := vget s.hub.host.d2h k.val
    let b := vget s.hub.host.h2d k.val
    let timeout := fld (s.hub.reg 0x500000) 31 16
    (a.full = true → OnHub (.take k) s fun g h => vget h.host.d2h k.val = { a with full := false, senderTaken := true, words := Vector.replicate 4 0 }
      ∧ OtherD2hKept k.val g h ∧ h.evr = g.evr ∧ h.regs = g.regs)
    ∧ (a.full = false → exec (.take k) s = .next s)
    ∧ (a.full = false ∨ s.hub.ms ≤ a.sinceMs + timeout → exec (.mailboxTimeout true k) s = .next s)
    ∧ (b.full = false ∨ s.hub.ms ≤ b.sinceMs + timeout → exec (.mailboxTimeout false k) s = .next s)
    ∧ (a.full = true → a.sinceMs + timeout < s.hub.ms → OnHub (.mailboxTimeout true k) s fun g h =>
      vget h.host.d2h k.val = { a with full := false, to_ := true, words := Vector.replicate 4 0 } ∧ OtherD2hKept k.val g h
      ∧ h.evr.input = g.evr.input ++ [{ ev := .hostMbxTimeout, plane := .management, scope := 32 + k.val }])
    ∧ (b.full = true → b.sinceMs + timeout < s.hub.ms → OnHub (.mailboxTimeout false k) s fun g h =>
      vget h.host.h2d k.val = { b with full := false, to_ := true } ∧ OtherH2dKept k.val g h
      ∧ h.evr.input = g.evr.input ++ [{ ev := .hostMbxTimeout, plane := .management, scope := k.val }]))
  ∧ (∀ (s : State) (ch : Fin 8), s.hub.failed = false → s.present ch = true →
    ((s.chan ch).violLost = 0 → (s.chan ch).viols = [] → exec (.violationDelivery ch) s = .next s)
    ∧ ∀ (v : Viol) (rest : List Viol), (s.chan ch).viols = v :: rest → ∃ t, exec (.violationDelivery ch) s = .next t ∧ OthersKept ch s t
      ∧ t.pending = s.pending ∧ t.chan ch = { s.chan ch with viols := rest, violLost := 0 }
      ∧ (∃ e : ViolEntry, cget? t.hub.host.violLog ((t.hub.host.violWr - 1).toNat % 64) = some e ∧ e.viol.source = v.source ∧ e.viol.kind = v.kind
        ∧ e.viol.addr = v.addr ∧ e.viol.ch = ch.val ∧ (e.reps = 0 → e.viol.stamp = v.stamp ∧ e.viol.coord = v.coord))
      ∧ ({ ev := .hostViol, plane := .management } : Raised) ∈ t.hub.evr.input
      ∧ t.hub.reg 0x24 = (if (s.chan ch).violLost = 0 then s.hub.reg 0x24 else satAdd (s.hub.reg 0x24) (s.chan ch).violLost))
  ∧ ∀ s : State, s.hub.failed = false →
    (∀ v : Fin 64, OnHub (.msixUnmask v) s fun g h =>
      bitOf h.host.masked v.val = false ∧ bitOf h.host.msiPend v.val = false
      ∧ cget 0 h.host.msiSent v.val = cget 0 g.host.msiSent v.val + (if bitOf g.host.msiPend v.val then 1 else 0)
      ∧ (∀ u : Nat, u < 64 → u ≠ v.val → bitOf h.host.masked u = bitOf g.host.masked u ∧ bitOf h.host.msiPend u = bitOf g.host.msiPend u
        ∧ cget 0 h.host.msiSent u = cget 0 g.host.msiSent u) ∧ h.regs = g.regs ∧ h.evr = g.evr)
    ∧ (∀ (n : Nat) (ok io cm : Bool),
      (s.hub.spdm.openS.contains n = false ∨ s.hub.host.mode = .down → exec (.ideKmRequest n ok io cm) s = .next s)
      ∧ (s.hub.spdm.openS.contains n = true → s.hub.host.mode ≠ .down →
        OnHub (.ideKmRequest n true io cm) s (fun g h => h = { g with host := { g.host with
          ideKeyed := true, ideIo := io, ideCm := cm && decide (g.host.mode = .cxl) } })
        ∧ OnHub (.ideKmRequest n false io cm) s fun g h => h.host.ideKeyed = g.host.ideKeyed ∧ h.host.ideIo = g.host.ideIo
          ∧ h.evr.input = g.evr.input ++ [{ ev := .hostIdeFail, plane := .management }]))
    ∧ OnHub .ideCheckFail s (fun g h => h.evr.input = g.evr.input ++ [{ ev := .hostIdeFail, plane := .management }] ∧ h.host.mode = g.host.mode
      ∧ h.host.ideKeyed = g.host.ideKeyed ∧ h.regs = g.regs)
    ∧ (s.hub.host.mode ≠ .down → OnHub .cdatRead s fun g h => h = { g with host := { g.host with cdat := some (700, 40) } })
    ∧ (s.hub.host.mode = .down → exec .cdatRead s = .next s)

/-! ### Event recorder -/

/-- The command runs and leaves every other channel and the queue as they were; `P` holds of the channel and the hub before and after. -/
def Sys2Proof.Safety.RunsOn (i : Instr) (s : State) (ch : Fin 8) (P : Chan → Chan → Hub → Hub → Prop) : Prop :=
  ∃ t, exec i s = .next t ∧ OthersKept ch s t ∧ t.pending = s.pending ∧ P (s.chan ch) (t.chan ch) s.hub t.hub

/-- The recorder. A taken event gets the next RSEQ and the stamp of its channel, unless its rate limit holds it back, which is counted
(R574, R576); it goes into the history, or is owed to it (R587), and into an empty ring slot, the lowest (log entry 26); into a full
ring only over one of no greater severity, never over a FATAL one (R578, R579). An event of INT_SEV or more sets the interrupt (R594),
and a recode weighs as evidence of its unit (R498). A window closes once its end has passed (R583), with a record when it is of 60 s or
more and holds samples (R585). A seal takes the records since the last one that are severe enough (R588, R589); each goes into the next
page, a page that fails is left out, and the sixteenth failure stops the area (R590–R592). What a cold restart has left to be sealed is
sealed from the recorder as it was, which goes with its last page (R593). The xSPI port programs and erases the sealed history alone
(R516). -/
def Obligations.RecorderCommands : Prop :=
  (∀ (s : State) (o : Option (Fin 8)) (n : Nat), s.recUp o = false → ∀ i ∈ [Instr.eventRecordTake o n, .windowClose o, .sealStart o], exec i s = .next s)
  ∧ (∀ (s : State) (ch : Fin 8) (b : Raised) (rest : List Raised), s.present ch = true → (s.chan ch).boot.phase ≠ 0 → (s.chan ch).evr.input = b :: rest →
    let code := evCode b.ev
    let sev := evSev b.ev
    let recent := limited b.ev = true ∧ ∃ l ∈ (s.chan ch).evr.limits, l.code = code ∧ l.scope = b.scope ∧ (s.chan ch).ms ≤ l.atMs + 1000
    (recent → RunsOn (.eventRecordTake (some ch) 1) s ch fun c d _ _ =>
      d.evr.rseq = c.evr.rseq ∧ d.evr.ring = c.evr.ring ∧ d.evr.hist = c.evr.hist ∧ d.evr.suppressed = cput c.evr.suppressed code (cget 0 c.evr.suppressed code + 1)
      ∧ d.reg 0xE00050 = satAdd (c.reg 0xE00050) 1 ∧ (∃ more, d.evr.input = rest ++ more) ∧ Kept [.evr, .regs, .hlth] c d)
    ∧ (¬recent → RunsOn (.eventRecordTake (some ch) 1) s ch fun c d g h =>
      d.evr.rseq = (c.evr.rseq + 1) % 4294967296 ∧ (∃ more, d.evr.input = rest ++ more) ∧ Kept [.evr, .regs, .hlth] c d
      ∧ (2 ≤ sevNum sev → code / 256 ≠ 0x10 → ch.val ∈ h.sealQ) ∧ h.regs = g.regs
      ∧ (b.ev = .codecRecode → (d.unit 6 0).demerit = (c.unit 6 0).demerit + 100 * 2 ^ 32)
      ∧ ∃ e : EvtRec, e.rseq = c.evr.rseq ∧ e.code = code ∧ e.sev = sev ∧ e.ch = ch.val ∧ e.stamp = c.time.unit.now / 65536
        ∧ e.reps = cget 0 c.evr.suppressed code ∧ e.body.ev = b.ev ∧ e.body.slot = b.slot ∧ e.body.addr = b.addr ∧ e.body.value = b.value
        ∧ (c.histUp = true → cget? d.evr.hist (c.evr.rseq % max 1 c.histCap) = some (.event e) ∧ d.evr.histWr = c.evr.histWr + 1)
        ∧ (c.evr.ring.length < 16384 → d.evr.ring = cput c.evr.ring (firstGap c.evr.ring 0) e
          ∧ (c.histUp = false → d.evr.owed = c.evr.owed ++ [c.evr.rseq])
          ∧ (fld (c.reg 0xE00004) 29 28 ≤ sevNum sev → d.evr.irq = true)
          ∧ (sevNum sev < fld (c.reg 0xE00004) 29 28 → d.evr.irq = c.evr.irq))
        ∧ (16384 ≤ c.evr.ring.length → (∀ p ∈ c.evr.ring, p.2.sev = .fatal ∨ sevNum sev < sevNum p.2.sev) → d.evr.ring = c.evr.ring
          ∧ d.reg (0xE00040 + 4 * sevNum sev) = satAdd (c.reg (0xE00040 + 4 * sevNum sev)) 1
          ∧ ({ ev := .evrRingFull, plane := .management } : Raised) ∈ d.evr.input)
        ∧ ∀ (k : Nat) (old : EvtRec), 16384 ≤ c.evr.ring.length → victimSlot { c.evr with rseq := (c.evr.rseq + 1) % 4294967296 } sev = some (k, old) → d.evr.ring = cput c.evr.ring k e))
  ∧ (∀ (s : State) (ch : Fin 8), s.present ch = true → (s.chan ch).boot.phase ≠ 0 →
    ((s.chan ch).mem.phase ≠ .up → exec (.historyCopy ch) s = .next s)
    ∧ ((s.chan ch).mem.phase = .up → RunsOn (.historyCopy ch) s ch fun c d _ _ =>
      d.evr.owed = [] ∧ d.evr.winQueue = [] ∧ d.evr.lostQueue = [] ∧ d.evr.ring = c.evr.ring ∧ d.evr.rseq = c.evr.rseq ∧ Kept [.evr] c d
      ∧ ∀ (k : Nat) (e : EvtRec), c.evr.owed = [e.rseq] → c.evr.ring = [(k, e)] → c.evr.winQueue = [] → c.evr.lostQueue = [] →
        d.evr.hist = cput c.evr.hist (e.rseq % max 1 c.histCap) (.event e) ∧ d.evr.histWr = c.evr.histWr + 1))
  ∧ (∀ (s : State) (ch : Fin 8), s.present ch = true → (s.chan ch).boot.phase ≠ 0 →
    let due := (s.chan ch).due 3 = true ∧ (vget (s.chan ch).time.slots 3).at_ + 1000000 ≤ (s.chan ch).now
    (¬due → exec (.windowClose (some ch)) s = .next s)
    ∧ (due → RunsOn (.windowClose (some ch)) s ch fun c d _ h =>
      let sec := c.now / 1000000000
      d.evr.closedS = sec ∧ d.evr.closing = [] ∧ (vget d.time.slots 3).fired = true ∧ d.evr.ring = c.evr.ring
      ∧ d.evr.openW = c.evr.openW.filter (fun p => decide (sec < p.2.startS + winLen (p.1 % 3)))
      ∧ (0 < c.evr.closedS → c.evr.closedS / 3600 < sec / 3600 → ch.val ∈ h.sealQ)
      ∧ (∀ (k : Nat) (w : MetricWin), c.evr.openW = [(k, w)] → c.evr.closing = [] → w.startS + winLen (k % 3) ≤ sec →
        cget? d.evr.closedW k = some w
        ∧ (k % 3 = 0 ∨ w.count = 0 → d.evr.rseq = c.evr.rseq ∧ d.evr.hist = c.evr.hist)
        ∧ (k % 3 ≠ 0 → w.count ≠ 0 → d.evr.rseq = (c.evr.rseq + 1) % 4294967296
          ∧ (c.histUp = true → cget? d.evr.hist (c.evr.rseq % max 1 c.histCap) = some (.window ⟨c.evr.rseq, k / 3, k % 3, w⟩))))
      ∧ Kept [.evr, .regs, .time] c d))
  ∧ (∀ (s : State) (ch : Fin 8), s.hub.failed = false → s.present ch = true → (s.chan ch).boot.phase ≠ 0 → (s.chan ch).oldEvr = none →
    let chosen := (heldFrom (s.chan ch).evr).filter fun e => decide (fld ((s.chan ch).reg 0xE00004) 31 30 ≤ sevNum e.sev) || decide (e.code = retiredCode)
    (s.hub.sealing ≠ none ∨ s.hub.sealQ.head? ≠ some ch.val → exec (.sealStart (some ch)) s = .next s)
    ∧ ∀ q : List Nat, s.hub.sealing = none → s.hub.sealQ = ch.val :: q →
      ((s.chan ch).evr.sealStop = true → RunsOn (.sealStart (some ch)) s ch fun c d g h =>
        h = { g with sealQ := q } ∧ d.evr = { c.evr with sealReq := false } ∧ Kept [.evr] c d)
      ∧ ((s.chan ch).evr.sealStop = false → chosen = [] → RunsOn (.sealStart (some ch)) s ch fun c d g h =>
        h = { g with sealQ := q } ∧ d.evr.sealing = none ∧ d.evr.sealSeq = c.evr.rseq ∧ d.reg 0xE0005C = satAdd (c.reg 0xE0005C) 1
        ∧ ({ ev := .evrSeal, plane := .management } : Raised) ∈ d.evr.input ∧ Kept [.evr, .regs] c d)
      ∧ ((s.chan ch).evr.sealStop = false → chosen ≠ [] → RunsOn (.sealStart (some ch)) s ch fun c d _ h =>
        h.sealing = some ch.val ∧ h.sealQ = q ∧ (∃ run, d.evr.sealing = some run ∧ run.upto = c.evr.rseq ∧ run.erasing = false ∧ ∃ kept, run.todo = kept ++ chosen)
        ∧ d.evr.sealSeq = c.evr.sealSeq ∧ Kept [.evr, .regs] c d))
  ∧ (∀ (s : State), s.hub.failed = false → (s.hub.sealing = none →
      (∀ ok : Bool, exec (.sealPageProgramDone ok) s = .next s) ∧ exec .sectorEraseDone s = .next s)
    ∧ (∀ (ch : Fin 8) (o : OldEvr) (run : SealRun) (e : EvtRec), s.hub.sealing = some ch.val → (s.chan ch).oldEvr = some o →
      o.r.sealing = some run → run.erasing = false → run.erase = none → run.todo = [e] → (s.chan ch).evr.sealReq = false →
      let a := vget s.hub.areas ch.val
      let sector := cget {} a.sectors a.head
      inHistory (sealAddr ch a.head (sector.pages.length + 1)) = true → RunsOn (.sealPageProgramDone true) s ch fun c d g h =>
        d = { c with oldEvr := none, evr := { c.evr with sealStop := c.evr.sealStop || o.r.sealStop } }
        ∧ h = { g with
          sealing := none, areas := vset g.areas ch.val { a with sectors := cput a.sectors a.head { sector with pages := sector.pages ++ [some e] } } })
    ∧ ∀ (ch : Fin 8) (run : SealRun), s.hub.sealing = some ch.val → (s.chan ch).oldEvr = none → (s.chan ch).evr.sealing = some run →
      (s.chan ch).evr.sealReq = false →
      let a := vget s.hub.areas ch.val
      let sector := cget {} a.sectors a.head
      let written (p : Option EvtRec) : SealArea := { a with sectors := cput a.sectors a.head { sector with pages := sector.pages ++ [p] } }
      let at_ := sealAddr ch a.head (sector.pages.length + 1)
      (∀ ok : Bool, run.erasing = false → run.todo ≠ [] → inHistory at_ = false →
        RunsOn (.sealPageProgramDone ok) s ch fun _ _ g h => Logged g h .xspi .outsideHistory at_)
      ∧ (∀ (e : EvtRec) (more : List EvtRec), run.erasing = false → run.erase = none → run.todo = e :: more → inHistory at_ = true →
        (more ≠ [] → sector.pages.length < 254 → RunsOn (.sealPageProgramDone true) s ch fun c d g h =>
          d = { c with evr := { c.evr with sealFails := 0, sealing := some { run with todo := more, carry := run.carry - 1 } } }
          ∧ h = { g with areas := vset g.areas ch.val (written (some e)) })
        ∧ (more = [] → RunsOn (.sealPageProgramDone true) s ch fun c d g h =>
          h = { g with areas := vset g.areas ch.val (written (some e)), sealing := none } ∧ d.evr.sealing = none ∧ d.evr.sealSeq = run.upto
          ∧ d.reg 0xE0005C = satAdd (c.reg 0xE0005C) 1 ∧ ({ ev := .evrSeal, plane := .management } : Raised) ∈ d.evr.input ∧ Kept [.evr, .regs] c d)
        ∧ ((s.chan ch).evr.sealFails < 15 → sector.pages.length < 254 → RunsOn (.sealPageProgramDone false) s ch fun c d g h =>
          h = { g with areas := vset g.areas ch.val (written none) } ∧ d.evr.sealing = some run ∧ d.evr.sealFails = c.evr.sealFails + 1
          ∧ d.evr.sealStop = c.evr.sealStop ∧ d.reg 0xE00060 = satAdd (c.reg 0xE00060) 1 ∧ Kept [.evr, .regs] c d)
        ∧ (15 ≤ (s.chan ch).evr.sealFails → RunsOn (.sealPageProgramDone false) s ch fun c d g h =>
          h = { g with areas := vset g.areas ch.val (written none), sealing := none } ∧ d.evr.sealing = none ∧ d.evr.sealStop = true
          ∧ d.reg 0xE00060 = satAdd (c.reg 0xE00060) 1 ∧ Kept [.evr, .regs] c d))
      ∧ (∀ v : Nat, run.erasing = true → run.erase = some v → v ≠ a.head → run.todo ≠ [] → (∃ x, cget? a.sectors a.head = some x ∧ x.pages.length < 255) →
        inHistory (sealAddr ch v 0) = true → RunsOn .sectorEraseDone s ch fun c d g h =>
          d = { c with evr := { c.evr with sealing := some { run with erase := none, erasing := false } } }
          ∧ h = { g with areas := vset g.areas ch.val { a with sectors := cdel a.sectors v } })
      ∧ (run.erasing = false → exec .sectorEraseDone s = .next s))
  ∧ ∀ s : State, s.hub.failed = false →
    (∀ (b : Raised) (rest : List Raised), s.hub.evr.input = b :: rest → limited b.ev = false → s.hub.evr.ring.length < 2048 →
      OnHub (.eventRecordTake none 1) s fun g h => h.evr.rseq = (g.evr.rseq + 1) % 4294967296 ∧ (∃ more, h.evr.input = rest ++ more)
        ∧ (2 ≤ sevNum (evSev b.ev) → evCode b.ev / 256 ≠ 0x10 → 8 ∈ h.sealQ) ∧ h.gtime = g.gtime
        ∧ ∃ e : EvtRec, h.evr.ring = cput g.evr.ring (firstGap g.evr.ring 0) e ∧ e.rseq = g.evr.rseq ∧ e.code = evCode b.ev ∧ e.ch = 0xFF)
    ∧ (let sec := s.hub.now / 1000000000
      let due := s.hub.evr.closedS < sec ∧ sec * 1000000000 + 1000000 ≤ s.hub.now
      (¬due → exec (.windowClose none) s = .next s)
      ∧ (due → OnHub (.windowClose none) s fun g h => h.evr.closedS = sec ∧ h.evr.closing = [] ∧ h.evr.rseq = g.evr.rseq
        ∧ h.evr.openW = g.evr.openW.filter (fun p => decide (sec < p.2.startS + winLen (p.1 % 3)))))

/-! ### Module -/

/-- The module has powered down: PWRGD is low, every channel and every register is as at reset; the variant, the fuses, the certificates, the sealed
history and hard repairs of LPDDR6 rows stay (R134, R529, R608). -/
def Sys2Proof.Safety.PoweredDown (s t : State) : Prop :=
  (∀ n : Fin 8, t.chan n = { mem := { hard := (s.chan n).mem.hard } }) ∧ t.pending = s.pending ∧ t.hub.pwr.pwrgd = false ∧ t.hub.failed = false ∧ t.hub.boot.phase = 0
  ∧ t.hub.caps = s.hub.caps ∧ t.hub.areas = s.hub.areas ∧ t.hub.boot.fuseSvn = s.hub.boot.fuseSvn ∧ t.hub.boot.yupRoot = s.hub.boot.yupRoot
  ∧ t.hub.boot.ownerRoot = s.hub.boot.ownerRoot ∧ t.hub.spdm = { slot0 := s.hub.spdm.slot0, slot1 := s.hub.spdm.slot1 }
  ∧ (∀ off : Nat, t.hub.reg off = hubReset off) ∧ t.hub.host.mode = .down ∧ t.hub.host.violWr = 0 ∧ t.hub.pwr.laserEnN = s.hub.pwr.laserEnN

/-- Supply, temperature and SMBus. The module is off below its lockout, above its overvoltage limit and past its current limit, each a power-down, and a
latched switch is released by VIN or MOD_RST_N (R605, R606, R608); PWRGD rises once VIN is up with the switch closed (R607). A hot die cuts out its
own channel alone (R616); THERM follows THERM_T (R617). The SMBus reads PWR registers and GLB.CAPS and clears latched bits (R619, R621). -/
def Obligations.SupplyTemperatureAndSmbus : Prop :=
  (∀ s : State,
    exec .vinRise s = .next { s with hub := { s.hub with pwr := { s.hub.pwr with vinOk := true } } }
    ∧ exec .overvoltageClear s = .next { s with hub := { s.hub with pwr := { s.hub.pwr with ovOpen := false } } }
    ∧ (∃ t, exec .undervoltageLockout s = .next t ∧ PoweredDown s t ∧ t.hub.pwr.vinOk = false)
    ∧ (∃ t, exec .overvoltage s = .next t ∧ PoweredDown s t ∧ t.hub.pwr.ovOpen = true ∧ t.hub.pwr.vinOk = s.hub.pwr.vinOk)
    ∧ (∃ t, exec .inputCurrentLatch s = .next t ∧ PoweredDown s t ∧ t.hub.pwr.latched = true)
    ∧ (∀ byVin : Bool, ∃ t, exec (.inputSwitchReset byVin) s = .next t ∧ PoweredDown s t ∧ t.hub.pwr.latched = false
      ∧ (byVin = true → t.hub.pwr.vinOk = false) ∧ (byVin = false → t.hub.pwr.modRstN = false))
    ∧ (∃ t, exec .powerDown s = .next t ∧ PoweredDown s t ∧ t.hub.pwr.modRstN = false ∧ t.hub.pwr.latched = s.hub.pwr.latched))
  ∧ (∀ (s : State) (a : Fin 8),
    (s.hub.pwr.pwrgd = true ∨ s.hub.pwr.vinOk = false ∨ s.hub.pwr.ovOpen = true ∨ s.hub.pwr.latched = true → exec (.powerGood a) s = .next s)
    ∧ (s.hub.pwr.pwrgd = false → s.hub.pwr.vinOk = true → s.hub.pwr.ovOpen = false → s.hub.pwr.latched = false →
      exec (.powerGood a) s
        = .next { s with hub := { s.hub with pwr := { s.hub.pwr with pwrgd := true, modRstN := true, smbAddr := 0x58 + a.val } } }))
  ∧ (∀ s : State,
    (s.hub.pwr.pwrgd = false → exec .undervoltageWarn s = .next s)
    ∧ (s.hub.pwr.pwrgd = true → OnHub .undervoltageWarn s fun g h =>
      bitOf (h.reg 0x100000) 12 = true ∧ (∀ k : Nat, k < 32 → k ≠ 12 → bitOf (h.reg 0x100000) k = bitOf (g.reg 0x100000) k)
      ∧ h.reg 0x100048 = satAdd (g.reg 0x100048) 1 ∧ (∀ off : Nat, off ≠ 0x100000 → off ≠ 0x100048 → h.reg off = g.reg off) ∧ h.pwr = g.pwr
      ∧ h.host = g.host ∧ h.boot = g.boot ∧ h.gtime = g.gtime))
  ∧ (∀ (s : State) (ch : Fin 8),
    (s.present ch = false ∨ s.hub.pwr.pwrgd = false → exec (.dieOverTemp ch) s = .next s)
    ∧ (s.present ch = true → s.hub.pwr.pwrgd = true → ∃ t, exec (.dieOverTemp ch) s = .next t ∧ OthersKept ch s t ∧ t.pending = s.pending
      ∧ (t.chan ch).boot.phase = 0 ∧ (t.chan ch).boot.cause = 5 ∧ (t.chan ch).us = (s.chan ch).us ∧ (t.chan ch).sec.cur = none
      ∧ (∀ k : Nat, k < 16 → ((t.chan ch).slot k).mode = .free) ∧ bitOf (t.hub.reg 0x100000) (13 + ch.val) = true
      ∧ bitOf (t.hub.reg 0x100000) (21 + ch.val) = true ∧ t.hub.reg 0x100044 = satAdd (s.hub.reg 0x100044) 1
      ∧ t.hub.reg 0x100040 = satAdd (s.hub.reg 0x100040) 1 ∧ bitOf t.hub.pwr.hot ch.val = true
      ∧ (∀ off : Nat, off ∉ [0x100000, 0x100040, 0x100044] → t.hub.reg off = s.hub.reg off))
    ∧ OnHub (.dieCooled ch) s fun g h => h = { g with pwr := { g.pwr with hot := putBit g.pwr.hot ch.val false } })
  ∧ (∀ (s : State) (low : Bool),
    (s.hub.pwr.pwrgd = false → exec (.thermThreshold low) s = .next s)
    ∧ (s.hub.pwr.pwrgd = true → exec (.thermThreshold low) s = .next { s with hub := { s.hub with pwr := { s.hub.pwr with thermLow := low } } }))
  ∧ ∀ (s : State) (code : BitVec 8) (meas data : Word),
    (s.hub.pwr.pwrgd = false ∨ s.hub.failed = true → ∀ i ∈ [Instr.smbReadPwr code meas, .smbReadCaps, .smbClearStat data], exec i s = .next s)
    ∧ (s.hub.pwr.pwrgd = true → s.hub.failed = false →
      let answers (i : Instr) (r : Option Word) : Prop := exec i s = .next { s with hub := { s.hub with pwr := { s.hub.pwr with smbOut := r } } }
      let c := code.toNat
      (11 < c ∧ c < 16 ∨ 18 < c → answers (.smbReadPwr code meas) none)
      ∧ (c = 1 ∨ c = 2 → answers (.smbReadPwr code meas) (some meas))
      ∧ (∀ n : Fin 8, c = 4 + n.val → answers (.smbReadPwr code meas) (some (if s.present n then meas else 0)))
      ∧ (16 ≤ c → c ≤ 18 → answers (.smbReadPwr code meas) (some (s.hub.reg (0x100000 + 4 * c))))
      ∧ (c = 0 → ∃ w : Word, answers (.smbReadPwr code meas) (some w) ∧ bitOf w 31 = true ∧ bitOf w 30 = s.hub.pwr.thermLow ∧ bitOf w 29 = !s.hub.pwr.laserEnN
        ∧ ∀ k : Nat, k < 29 → bitOf w k = bitOf (s.hub.reg 0x100000) k)
      ∧ answers .smbReadCaps (some s.hub.caps)
      ∧ OnHub (.smbClearStat data) s fun g h =>
        (∀ k : Nat, k < 32 → bitOf (h.reg 0x100000) k = (bitOf (g.reg 0x100000) k && !(decide (12 ≤ k ∧ k ≤ 28) && bitOf data k)))
        ∧ (∀ off : Nat, off ≠ 0x100000 → h.reg off = g.reg off) ∧ h.pwr = g.pwr ∧ h.host = g.host)
end

