-- ==== Sys2Proof/Laws/Cells.lean ====
section
/-! SUPPORT. The sparse tables: what a write reads back as, and the canonical form that every write keeps. -/

namespace Sys2Proof.Machine

open Sys2Proof

/-- Keys of a table rise strictly, from above a bound. -/
def Cells.above {α : Type} (n : Nat) : Cells α → Prop
  | [] => True
  | (j, _) :: r => n < j ∧ Cells.above j r

theorem cget_cput_same {α : Type} (d : α) (m : Cells α) (k : Nat) (v : α) : cget d (cput m k v) k = v := by
  induction m with
  | nil => simp [cput, cget]
  | cons x r ih =>
    obtain ⟨j, w⟩ := x
    simp only [cput]
    split
    · simp [cget]
    · split
      · simp [cget]
      · have : j ≠ k := by omega
        simp [cget, this, ih]

theorem cget_cput_other {α : Type} (d : α) (m : Cells α) (k a : Nat) (v : α) (h : a ≠ k) : cget d (cput m k v) a = cget d m a := by
  induction m with
  | nil => simp [cput, cget, Ne.symm h]
  | cons x r ih =>
    obtain ⟨j, w⟩ := x
    simp only [cput]
    split
    · simp [cget, Ne.symm h]
    · split
      · rename_i h1 h2; subst h2; simp [cget, Ne.symm h]
      · simp [cget, ih]

theorem cget_cdel_same {α : Type} (d : α) (m : Cells α) (k : Nat) : cget d (cdel m k) k = d := by
  induction m with
  | nil => simp [cdel, cget]
  | cons x r ih =>
    obtain ⟨j, w⟩ := x
    simp only [cdel]
    split
    · exact ih
    · rename_i h; simp [cget, h, ih]

theorem cget_cdel_other {α : Type} (d : α) (m : Cells α) (k a : Nat) (h : a ≠ k) : cget d (cdel m k) a = cget d m a := by
  induction m with
  | nil => simp [cdel]
  | cons x r ih =>
    obtain ⟨j, w⟩ := x
    simp only [cdel]
    split
    · rename_i h1; subst h1; simp [cget, Ne.symm h, ih]
    · simp [cget, ih]

/-- A write reads back, and every other key reads as before. -/
theorem cget_cset {α : Type} [DecidableEq α] (d : α) (m : Cells α) (k a : Nat) (v : α) :
    cget d (cset d m k v) a = if a = k then v else cget d m a := by
  unfold cset
  by_cases h : a = k
  · subst h; by_cases hv : v = d
    · simp [hv, cget_cdel_same]
    · simp [hv, cget_cput_same]
  · by_cases hv : v = d
    · simp [hv, h, cget_cdel_other]
    · simp [hv, h, cget_cput_other]

theorem cwf_iff {α : Type} [DecidableEq α] (d : α) (m : Cells α) :
    cwf d m = true ↔ (match m with | [] => True | (j, _) :: r => Cells.above j r) ∧ ∀ x ∈ m, x.2 ≠ d := by
  induction m with
  | nil => simp [cwf]
  | cons x r ih =>
    obtain ⟨j, v⟩ := x
    cases r with
    | nil => simp [cwf, Cells.above]
    | cons y r =>
      obtain ⟨k, w⟩ := y
      simp only [cwf, Bool.and_eq_true, decide_eq_true_eq, ih, Cells.above, List.mem_cons, forall_eq_or_imp]
      constructor
      · rintro ⟨⟨a, b⟩, c, e⟩; exact ⟨⟨a, c⟩, b, e⟩
      · rintro ⟨⟨a, c⟩, b, e⟩; exact ⟨⟨a, b⟩, c, e⟩

theorem Cells.above_mono {α : Type} {n m : Nat} (l : Cells α) (h : n ≤ m) (a : Cells.above m l) : Cells.above n l := by
  cases l with
  | nil => trivial
  | cons x r => exact ⟨Nat.lt_of_le_of_lt h a.1, a.2⟩

theorem Cells.above_cput {α : Type} (l : Cells α) (n k : Nat) (v : α) (hk : n < k) (a : Cells.above n l) : Cells.above n (cput l k v) := by
  induction l generalizing n with
  | nil => exact ⟨hk, trivial⟩
  | cons x r ih =>
    obtain ⟨j, w⟩ := x
    simp only [cput]
    split
    · exact ⟨hk, by assumption, a.2⟩
    · split
      · rename_i h1 h2; subst h2; exact ⟨hk, a.2⟩
      · exact ⟨a.1, ih j (by omega) a.2⟩

theorem Cells.above_cdel {α : Type} (l : Cells α) (n k : Nat) (a : Cells.above n l) : Cells.above n (cdel l k) := by
  induction l generalizing n with
  | nil => exact trivial
  | cons x r ih =>
    obtain ⟨j, w⟩ := x
    simp only [cdel]
    split
    · exact Cells.above_mono _ (Nat.le_of_lt a.1) (ih j a.2)
    · exact ⟨a.1, ih j a.2⟩

theorem mem_cput {α : Type} (l : Cells α) (k : Nat) (v : α) (x : Nat × α) (h : x ∈ cput l k v) : x = (k, v) ∨ x ∈ l := by
  induction l with
  | nil => simp [cput] at h; exact .inl h
  | cons y r ih =>
    obtain ⟨j, w⟩ := y
    simp only [cput] at h
    split at h
    · simpa using h
    · split at h
      · rcases List.mem_cons.1 h with h | h
        · exact .inl h
        · exact .inr (List.mem_cons_of_mem _ h)
      · rcases List.mem_cons.1 h with h | h
        · exact .inr (h ▸ List.mem_cons_self)
        · rcases ih h with h | h
          · exact .inl h
          · exact .inr (List.mem_cons_of_mem _ h)

theorem mem_cdel {α : Type} (l : Cells α) (k : Nat) (x : Nat × α) (h : x ∈ cdel l k) : x ∈ l := by
  induction l with
  | nil => simp [cdel] at h
  | cons y r ih =>
    obtain ⟨j, w⟩ := y
    simp only [cdel] at h
    split at h
    · exact List.mem_cons_of_mem _ (ih h)
    · rcases List.mem_cons.1 h with h | h
      · exact h ▸ List.mem_cons_self
      · exact List.mem_cons_of_mem _ (ih h)

/-- Keys of a canonical table rise, seen from below any key that is smaller than the first. -/
def Cells.rising {α : Type} : Cells α → Prop
  | [] => True
  | (j, _) :: r => Cells.above j r

theorem Cells.rising_cput {α : Type} (l : Cells α) (k : Nat) (v : α) (a : Cells.rising l) : Cells.rising (cput l k v) := by
  cases l with
  | nil => exact trivial
  | cons x r =>
    obtain ⟨j, w⟩ := x
    simp only [cput]
    split
    · exact ⟨by assumption, a⟩
    · split
      · rename_i h1 h2; subst h2; exact a
      · exact Cells.above_cput r j k v (by omega) a

theorem Cells.rising_of_above {α : Type} {n : Nat} (l : Cells α) (a : Cells.above n l) : Cells.rising l := by
  cases l with
  | nil => trivial
  | cons x r => exact a.2

theorem Cells.rising_cdel {α : Type} (l : Cells α) (k : Nat) (a : Cells.rising l) : Cells.rising (cdel l k) := by
  cases l with
  | nil => exact trivial
  | cons x r =>
    obtain ⟨j, w⟩ := x
    simp only [cdel]
    split
    · exact Cells.rising_of_above _ (Cells.above_cdel r j k a)
    · exact Cells.above_cdel r j k a

/-- The canonical form in two parts. -/
theorem cwf_parts {α : Type} [DecidableEq α] (d : α) (m : Cells α) : cwf d m = true ↔ Cells.rising m ∧ ∀ x ∈ m, x.2 ≠ d := by
  rw [cwf_iff]; cases m <;> rfl

/-- Every write keeps the canonical form. -/
theorem cwf_cset {α : Type} [DecidableEq α] (d : α) (m : Cells α) (k : Nat) (v : α) (h : cwf d m = true) : cwf d (cset d m k v) = true := by
  rw [cwf_parts] at h ⊢
  unfold cset
  by_cases hv : v = d
  · simp only [hv, if_true]
    exact ⟨Cells.rising_cdel _ _ h.1, fun x hx => h.2 x (mem_cdel _ _ _ hx)⟩
  · simp only [hv, if_false]
    refine ⟨Cells.rising_cput _ _ _ h.1, fun x hx => ?_⟩
    rcases mem_cput _ _ _ _ hx with hx | hx
    · subst hx; exact hv
    · exact h.2 x hx

/-- A key below the first one listed reads as the unlisted value. -/
theorem cget_above {α : Type} (d : α) (l : Cells α) (n k : Nat) (a : Cells.above n l) (h : k ≤ n) : cget d l k = d := by
  induction l generalizing n with
  | nil => rfl
  | cons x r ih =>
    obtain ⟨j, w⟩ := x
    have hj : n < j := a.1
    simp only [cget, show j ≠ k by omega, if_false]
    exact ih j a.2 (by omega)

end Sys2Proof.Machine
end

