-- ==== Sys2Proof/Laws/State.lean ====
section
/-! SUPPORT. What each update of a record leaves and what it changes: one lemma for each field and update, so that no proof unfolds a
record update. -/

namespace Sys2Proof.Machine

open Sys2Proof

/-! ### The state -/

@[simp] theorem State.setChan_pending (s : State) (n : Fin 8) (c : Chan) : (s.setChan n c).pending = s.pending := rfl
@[simp] theorem State.setChan_hub (s : State) (n : Fin 8) (c : Chan) : (s.setChan n c).hub = s.hub := rfl
@[simp] theorem State.setChan_free (s : State) (n : Fin 8) (c : Chan) : (s.setChan n c).free = s.free := rfl
@[simp] theorem State.setChan_same (s : State) (n : Fin 8) (c : Chan) : (s.setChan n c).chan n = c := by
  simp [State.setChan, State.chan]
theorem State.setChan_other (s : State) (n m : Fin 8) (c : Chan) (h : m ≠ n) : (s.setChan n c).chan m = s.chan m := by
  have : (n : Nat) ≠ m := fun e => h (Fin.ext e.symm)
  simp [State.setChan, State.chan, this]
@[simp] theorem State.setChan_present (s : State) (n : Fin 8) (c : Chan) (k : Nat) : (s.setChan n c).present k = s.present k := rfl
@[simp] theorem State.modHub_pending (s : State) (f : Hub → Hub) : (s.modHub f).pending = s.pending := rfl
@[simp] theorem State.modHub_hub (s : State) (f : Hub → Hub) : (s.modHub f).hub = f s.hub := rfl
@[simp] theorem State.modHub_chans (s : State) (f : Hub → Hub) : (s.modHub f).chans = s.chans := rfl
@[simp] theorem State.modHub_chan (s : State) (f : Hub → Hub) (n : Fin 8) : (s.modHub f).chan n = s.chan n := rfl
@[simp] theorem State.modHub_free (s : State) (f : Hub → Hub) : (s.modHub f).free = s.free := rfl


/-! ### `Chan.setReg` -/

@[simp] theorem Chan.setReg_us (c : Chan) (o : Nat) (w : Word) : (c.setReg o w).us = c.us := rfl
@[simp] theorem Chan.setReg_ms (c : Chan) (o : Nat) (w : Word) : (c.setReg o w).ms = c.ms := rfl
@[simp] theorem Chan.setReg_crystal (c : Chan) (o : Nat) (w : Word) : (c.setReg o w).crystal = c.crystal := rfl
@[simp] theorem Chan.setReg_hubLost (c : Chan) (o : Nat) (w : Word) : (c.setReg o w).hubLost = c.hubLost := rfl
@[simp] theorem Chan.setReg_viols (c : Chan) (o : Nat) (w : Word) : (c.setReg o w).viols = c.viols := rfl
@[simp] theorem Chan.setReg_violLost (c : Chan) (o : Nat) (w : Word) : (c.setReg o w).violLost = c.violLost := rfl
@[simp] theorem Chan.setReg_errs (c : Chan) (o : Nat) (w : Word) : (c.setReg o w).errs = c.errs := rfl
@[simp] theorem Chan.setReg_cfg (c : Chan) (o : Nat) (w : Word) : (c.setReg o w).cfg = c.cfg := rfl
@[simp] theorem Chan.setReg_boot (c : Chan) (o : Nat) (w : Word) : (c.setReg o w).boot = c.boot := rfl
@[simp] theorem Chan.setReg_ctrl (c : Chan) (o : Nat) (w : Word) : (c.setReg o w).ctrl = c.ctrl := rfl
@[simp] theorem Chan.setReg_fab (c : Chan) (o : Nat) (w : Word) : (c.setReg o w).fab = c.fab := rfl
@[simp] theorem Chan.setReg_mem (c : Chan) (o : Nat) (w : Word) : (c.setReg o w).mem = c.mem := rfl
@[simp] theorem Chan.setReg_col (c : Chan) (o : Nat) (w : Word) : (c.setReg o w).col = c.col := rfl
@[simp] theorem Chan.setReg_codec (c : Chan) (o : Nat) (w : Word) : (c.setReg o w).codec = c.codec := rfl
@[simp] theorem Chan.setReg_mtx (c : Chan) (o : Nat) (w : Word) : (c.setReg o w).mtx = c.mtx := rfl
@[simp] theorem Chan.setReg_sch (c : Chan) (o : Nat) (w : Word) : (c.setReg o w).sch = c.sch := rfl
@[simp] theorem Chan.setReg_line (c : Chan) (o : Nat) (w : Word) : (c.setReg o w).line = c.line := rfl
@[simp] theorem Chan.setReg_opt (c : Chan) (o : Nat) (w : Word) : (c.setReg o w).opt = c.opt := rfl
@[simp] theorem Chan.setReg_sec (c : Chan) (o : Nat) (w : Word) : (c.setReg o w).sec = c.sec := rfl
@[simp] theorem Chan.setReg_prov (c : Chan) (o : Nat) (w : Word) : (c.setReg o w).prov = c.prov := rfl
@[simp] theorem Chan.setReg_time (c : Chan) (o : Nat) (w : Word) : (c.setReg o w).time = c.time := rfl
@[simp] theorem Chan.setReg_hlth (c : Chan) (o : Nat) (w : Word) : (c.setReg o w).hlth = c.hlth := rfl
@[simp] theorem Chan.setReg_part (c : Chan) (o : Nat) (w : Word) : (c.setReg o w).part = c.part := rfl
@[simp] theorem Chan.setReg_evr (c : Chan) (o : Nat) (w : Word) : (c.setReg o w).evr = c.evr := rfl
@[simp] theorem Chan.setReg_oldEvr (c : Chan) (o : Nat) (w : Word) : (c.setReg o w).oldEvr = c.oldEvr := rfl

/-! ### `Chan.raise` -/

@[simp] theorem Chan.raise_regs (c : Chan) (r : Raised) : (c.raise r).regs = c.regs := rfl
@[simp] theorem Chan.raise_us (c : Chan) (r : Raised) : (c.raise r).us = c.us := rfl
@[simp] theorem Chan.raise_ms (c : Chan) (r : Raised) : (c.raise r).ms = c.ms := rfl
@[simp] theorem Chan.raise_crystal (c : Chan) (r : Raised) : (c.raise r).crystal = c.crystal := rfl
@[simp] theorem Chan.raise_hubLost (c : Chan) (r : Raised) : (c.raise r).hubLost = c.hubLost := rfl
@[simp] theorem Chan.raise_viols (c : Chan) (r : Raised) : (c.raise r).viols = c.viols := rfl
@[simp] theorem Chan.raise_violLost (c : Chan) (r : Raised) : (c.raise r).violLost = c.violLost := rfl
@[simp] theorem Chan.raise_errs (c : Chan) (r : Raised) : (c.raise r).errs = c.errs := rfl
@[simp] theorem Chan.raise_cfg (c : Chan) (r : Raised) : (c.raise r).cfg = c.cfg := rfl
@[simp] theorem Chan.raise_boot (c : Chan) (r : Raised) : (c.raise r).boot = c.boot := rfl
@[simp] theorem Chan.raise_ctrl (c : Chan) (r : Raised) : (c.raise r).ctrl = c.ctrl := rfl
@[simp] theorem Chan.raise_fab (c : Chan) (r : Raised) : (c.raise r).fab = c.fab := rfl
@[simp] theorem Chan.raise_mem (c : Chan) (r : Raised) : (c.raise r).mem = c.mem := rfl
@[simp] theorem Chan.raise_col (c : Chan) (r : Raised) : (c.raise r).col = c.col := rfl
@[simp] theorem Chan.raise_codec (c : Chan) (r : Raised) : (c.raise r).codec = c.codec := rfl
@[simp] theorem Chan.raise_mtx (c : Chan) (r : Raised) : (c.raise r).mtx = c.mtx := rfl
@[simp] theorem Chan.raise_sch (c : Chan) (r : Raised) : (c.raise r).sch = c.sch := rfl
@[simp] theorem Chan.raise_line (c : Chan) (r : Raised) : (c.raise r).line = c.line := rfl
@[simp] theorem Chan.raise_opt (c : Chan) (r : Raised) : (c.raise r).opt = c.opt := rfl
@[simp] theorem Chan.raise_sec (c : Chan) (r : Raised) : (c.raise r).sec = c.sec := rfl
@[simp] theorem Chan.raise_prov (c : Chan) (r : Raised) : (c.raise r).prov = c.prov := rfl
@[simp] theorem Chan.raise_time (c : Chan) (r : Raised) : (c.raise r).time = c.time := rfl
@[simp] theorem Chan.raise_hlth (c : Chan) (r : Raised) : (c.raise r).hlth = c.hlth := rfl
@[simp] theorem Chan.raise_part (c : Chan) (r : Raised) : (c.raise r).part = c.part := rfl
@[simp] theorem Chan.raise_evr (c : Chan) (r : Raised) : (c.raise r).evr = { c.evr with input := c.evr.input ++ [r] } := rfl
@[simp] theorem Chan.raise_oldEvr (c : Chan) (r : Raised) : (c.raise r).oldEvr = c.oldEvr := rfl

/-! ### `Chan.setSlot` -/

@[simp] theorem Chan.setSlot_regs (c : Chan) (j : Nat) (t : TrigSlot) : (c.setSlot j t).regs = c.regs := rfl
@[simp] theorem Chan.setSlot_us (c : Chan) (j : Nat) (t : TrigSlot) : (c.setSlot j t).us = c.us := rfl
@[simp] theorem Chan.setSlot_ms (c : Chan) (j : Nat) (t : TrigSlot) : (c.setSlot j t).ms = c.ms := rfl
@[simp] theorem Chan.setSlot_crystal (c : Chan) (j : Nat) (t : TrigSlot) : (c.setSlot j t).crystal = c.crystal := rfl
@[simp] theorem Chan.setSlot_hubLost (c : Chan) (j : Nat) (t : TrigSlot) : (c.setSlot j t).hubLost = c.hubLost := rfl
@[simp] theorem Chan.setSlot_viols (c : Chan) (j : Nat) (t : TrigSlot) : (c.setSlot j t).viols = c.viols := rfl
@[simp] theorem Chan.setSlot_violLost (c : Chan) (j : Nat) (t : TrigSlot) : (c.setSlot j t).violLost = c.violLost := rfl
@[simp] theorem Chan.setSlot_errs (c : Chan) (j : Nat) (t : TrigSlot) : (c.setSlot j t).errs = c.errs := rfl
@[simp] theorem Chan.setSlot_cfg (c : Chan) (j : Nat) (t : TrigSlot) : (c.setSlot j t).cfg = c.cfg := rfl
@[simp] theorem Chan.setSlot_boot (c : Chan) (j : Nat) (t : TrigSlot) : (c.setSlot j t).boot = c.boot := rfl
@[simp] theorem Chan.setSlot_ctrl (c : Chan) (j : Nat) (t : TrigSlot) : (c.setSlot j t).ctrl = c.ctrl := rfl
@[simp] theorem Chan.setSlot_fab (c : Chan) (j : Nat) (t : TrigSlot) : (c.setSlot j t).fab = c.fab := rfl
@[simp] theorem Chan.setSlot_mem (c : Chan) (j : Nat) (t : TrigSlot) : (c.setSlot j t).mem = c.mem := rfl
@[simp] theorem Chan.setSlot_col (c : Chan) (j : Nat) (t : TrigSlot) : (c.setSlot j t).col = c.col := rfl
@[simp] theorem Chan.setSlot_codec (c : Chan) (j : Nat) (t : TrigSlot) : (c.setSlot j t).codec = c.codec := rfl
@[simp] theorem Chan.setSlot_mtx (c : Chan) (j : Nat) (t : TrigSlot) : (c.setSlot j t).mtx = c.mtx := rfl
@[simp] theorem Chan.setSlot_sch (c : Chan) (j : Nat) (t : TrigSlot) : (c.setSlot j t).sch = c.sch := rfl
@[simp] theorem Chan.setSlot_line (c : Chan) (j : Nat) (t : TrigSlot) : (c.setSlot j t).line = c.line := rfl
@[simp] theorem Chan.setSlot_opt (c : Chan) (j : Nat) (t : TrigSlot) : (c.setSlot j t).opt = c.opt := rfl
@[simp] theorem Chan.setSlot_sec (c : Chan) (j : Nat) (t : TrigSlot) : (c.setSlot j t).sec = c.sec := rfl
@[simp] theorem Chan.setSlot_prov (c : Chan) (j : Nat) (t : TrigSlot) : (c.setSlot j t).prov = c.prov := rfl
@[simp] theorem Chan.setSlot_time (c : Chan) (j : Nat) (t : TrigSlot) : (c.setSlot j t).time = { c.time with slots := vset c.time.slots j t } := rfl
@[simp] theorem Chan.setSlot_hlth (c : Chan) (j : Nat) (t : TrigSlot) : (c.setSlot j t).hlth = c.hlth := rfl
@[simp] theorem Chan.setSlot_part (c : Chan) (j : Nat) (t : TrigSlot) : (c.setSlot j t).part = c.part := rfl
@[simp] theorem Chan.setSlot_evr (c : Chan) (j : Nat) (t : TrigSlot) : (c.setSlot j t).evr = c.evr := rfl
@[simp] theorem Chan.setSlot_oldEvr (c : Chan) (j : Nat) (t : TrigSlot) : (c.setSlot j t).oldEvr = c.oldEvr := rfl

/-! ### `Chan.putSlot` -/

@[simp] theorem Chan.putSlot_regs (c : Chan) (k : Nat) (x : Slot) : (c.putSlot k x).regs = c.regs := rfl
@[simp] theorem Chan.putSlot_us (c : Chan) (k : Nat) (x : Slot) : (c.putSlot k x).us = c.us := rfl
@[simp] theorem Chan.putSlot_ms (c : Chan) (k : Nat) (x : Slot) : (c.putSlot k x).ms = c.ms := rfl
@[simp] theorem Chan.putSlot_crystal (c : Chan) (k : Nat) (x : Slot) : (c.putSlot k x).crystal = c.crystal := rfl
@[simp] theorem Chan.putSlot_hubLost (c : Chan) (k : Nat) (x : Slot) : (c.putSlot k x).hubLost = c.hubLost := rfl
@[simp] theorem Chan.putSlot_viols (c : Chan) (k : Nat) (x : Slot) : (c.putSlot k x).viols = c.viols := rfl
@[simp] theorem Chan.putSlot_violLost (c : Chan) (k : Nat) (x : Slot) : (c.putSlot k x).violLost = c.violLost := rfl
@[simp] theorem Chan.putSlot_errs (c : Chan) (k : Nat) (x : Slot) : (c.putSlot k x).errs = c.errs := rfl
@[simp] theorem Chan.putSlot_cfg (c : Chan) (k : Nat) (x : Slot) : (c.putSlot k x).cfg = c.cfg := rfl
@[simp] theorem Chan.putSlot_boot (c : Chan) (k : Nat) (x : Slot) : (c.putSlot k x).boot = c.boot := rfl
@[simp] theorem Chan.putSlot_ctrl (c : Chan) (k : Nat) (x : Slot) : (c.putSlot k x).ctrl = { c.ctrl with slots := vset c.ctrl.slots k x } := rfl
@[simp] theorem Chan.putSlot_fab (c : Chan) (k : Nat) (x : Slot) : (c.putSlot k x).fab = c.fab := rfl
@[simp] theorem Chan.putSlot_mem (c : Chan) (k : Nat) (x : Slot) : (c.putSlot k x).mem = c.mem := rfl
@[simp] theorem Chan.putSlot_col (c : Chan) (k : Nat) (x : Slot) : (c.putSlot k x).col = c.col := rfl
@[simp] theorem Chan.putSlot_codec (c : Chan) (k : Nat) (x : Slot) : (c.putSlot k x).codec = c.codec := rfl
@[simp] theorem Chan.putSlot_mtx (c : Chan) (k : Nat) (x : Slot) : (c.putSlot k x).mtx = c.mtx := rfl
@[simp] theorem Chan.putSlot_sch (c : Chan) (k : Nat) (x : Slot) : (c.putSlot k x).sch = c.sch := rfl
@[simp] theorem Chan.putSlot_line (c : Chan) (k : Nat) (x : Slot) : (c.putSlot k x).line = c.line := rfl
@[simp] theorem Chan.putSlot_opt (c : Chan) (k : Nat) (x : Slot) : (c.putSlot k x).opt = c.opt := rfl
@[simp] theorem Chan.putSlot_sec (c : Chan) (k : Nat) (x : Slot) : (c.putSlot k x).sec = c.sec := rfl
@[simp] theorem Chan.putSlot_prov (c : Chan) (k : Nat) (x : Slot) : (c.putSlot k x).prov = c.prov := rfl
@[simp] theorem Chan.putSlot_time (c : Chan) (k : Nat) (x : Slot) : (c.putSlot k x).time = c.time := rfl
@[simp] theorem Chan.putSlot_hlth (c : Chan) (k : Nat) (x : Slot) : (c.putSlot k x).hlth = c.hlth := rfl
@[simp] theorem Chan.putSlot_part (c : Chan) (k : Nat) (x : Slot) : (c.putSlot k x).part = c.part := rfl
@[simp] theorem Chan.putSlot_evr (c : Chan) (k : Nat) (x : Slot) : (c.putSlot k x).evr = c.evr := rfl
@[simp] theorem Chan.putSlot_oldEvr (c : Chan) (k : Nat) (x : Slot) : (c.putSlot k x).oldEvr = c.oldEvr := rfl

/-! ### `Chan.setPort` -/

@[simp] theorem Chan.setPort_regs (c : Chan) (k : Nat) (x : Port) : (c.setPort k x).regs = c.regs := rfl
@[simp] theorem Chan.setPort_us (c : Chan) (k : Nat) (x : Port) : (c.setPort k x).us = c.us := rfl
@[simp] theorem Chan.setPort_ms (c : Chan) (k : Nat) (x : Port) : (c.setPort k x).ms = c.ms := rfl
@[simp] theorem Chan.setPort_crystal (c : Chan) (k : Nat) (x : Port) : (c.setPort k x).crystal = c.crystal := rfl
@[simp] theorem Chan.setPort_hubLost (c : Chan) (k : Nat) (x : Port) : (c.setPort k x).hubLost = c.hubLost := rfl
@[simp] theorem Chan.setPort_viols (c : Chan) (k : Nat) (x : Port) : (c.setPort k x).viols = c.viols := rfl
@[simp] theorem Chan.setPort_violLost (c : Chan) (k : Nat) (x : Port) : (c.setPort k x).violLost = c.violLost := rfl
@[simp] theorem Chan.setPort_errs (c : Chan) (k : Nat) (x : Port) : (c.setPort k x).errs = c.errs := rfl
@[simp] theorem Chan.setPort_cfg (c : Chan) (k : Nat) (x : Port) : (c.setPort k x).cfg = c.cfg := rfl
@[simp] theorem Chan.setPort_boot (c : Chan) (k : Nat) (x : Port) : (c.setPort k x).boot = c.boot := rfl
@[simp] theorem Chan.setPort_ctrl (c : Chan) (k : Nat) (x : Port) : (c.setPort k x).ctrl = c.ctrl := rfl
@[simp] theorem Chan.setPort_fab (c : Chan) (k : Nat) (x : Port) : (c.setPort k x).fab = { c.fab with ports := vset c.fab.ports k x } := rfl
@[simp] theorem Chan.setPort_mem (c : Chan) (k : Nat) (x : Port) : (c.setPort k x).mem = c.mem := rfl
@[simp] theorem Chan.setPort_col (c : Chan) (k : Nat) (x : Port) : (c.setPort k x).col = c.col := rfl
@[simp] theorem Chan.setPort_codec (c : Chan) (k : Nat) (x : Port) : (c.setPort k x).codec = c.codec := rfl
@[simp] theorem Chan.setPort_mtx (c : Chan) (k : Nat) (x : Port) : (c.setPort k x).mtx = c.mtx := rfl
@[simp] theorem Chan.setPort_sch (c : Chan) (k : Nat) (x : Port) : (c.setPort k x).sch = c.sch := rfl
@[simp] theorem Chan.setPort_line (c : Chan) (k : Nat) (x : Port) : (c.setPort k x).line = c.line := rfl
@[simp] theorem Chan.setPort_opt (c : Chan) (k : Nat) (x : Port) : (c.setPort k x).opt = c.opt := rfl
@[simp] theorem Chan.setPort_sec (c : Chan) (k : Nat) (x : Port) : (c.setPort k x).sec = c.sec := rfl
@[simp] theorem Chan.setPort_prov (c : Chan) (k : Nat) (x : Port) : (c.setPort k x).prov = c.prov := rfl
@[simp] theorem Chan.setPort_time (c : Chan) (k : Nat) (x : Port) : (c.setPort k x).time = c.time := rfl
@[simp] theorem Chan.setPort_hlth (c : Chan) (k : Nat) (x : Port) : (c.setPort k x).hlth = c.hlth := rfl
@[simp] theorem Chan.setPort_part (c : Chan) (k : Nat) (x : Port) : (c.setPort k x).part = c.part := rfl
@[simp] theorem Chan.setPort_evr (c : Chan) (k : Nat) (x : Port) : (c.setPort k x).evr = c.evr := rfl
@[simp] theorem Chan.setPort_oldEvr (c : Chan) (k : Nat) (x : Port) : (c.setPort k x).oldEvr = c.oldEvr := rfl

/-! ### `Chan.setUnit` -/

@[simp] theorem Chan.setUnit_regs (c : Chan) (k u : Nat) (x : HUnit) : (c.setUnit k u x).regs = c.regs := rfl
@[simp] theorem Chan.setUnit_us (c : Chan) (k u : Nat) (x : HUnit) : (c.setUnit k u x).us = c.us := rfl
@[simp] theorem Chan.setUnit_ms (c : Chan) (k u : Nat) (x : HUnit) : (c.setUnit k u x).ms = c.ms := rfl
@[simp] theorem Chan.setUnit_crystal (c : Chan) (k u : Nat) (x : HUnit) : (c.setUnit k u x).crystal = c.crystal := rfl
@[simp] theorem Chan.setUnit_hubLost (c : Chan) (k u : Nat) (x : HUnit) : (c.setUnit k u x).hubLost = c.hubLost := rfl
@[simp] theorem Chan.setUnit_viols (c : Chan) (k u : Nat) (x : HUnit) : (c.setUnit k u x).viols = c.viols := rfl
@[simp] theorem Chan.setUnit_violLost (c : Chan) (k u : Nat) (x : HUnit) : (c.setUnit k u x).violLost = c.violLost := rfl
@[simp] theorem Chan.setUnit_errs (c : Chan) (k u : Nat) (x : HUnit) : (c.setUnit k u x).errs = c.errs := rfl
@[simp] theorem Chan.setUnit_cfg (c : Chan) (k u : Nat) (x : HUnit) : (c.setUnit k u x).cfg = c.cfg := rfl
@[simp] theorem Chan.setUnit_boot (c : Chan) (k u : Nat) (x : HUnit) : (c.setUnit k u x).boot = c.boot := rfl
@[simp] theorem Chan.setUnit_ctrl (c : Chan) (k u : Nat) (x : HUnit) : (c.setUnit k u x).ctrl = c.ctrl := rfl
@[simp] theorem Chan.setUnit_fab (c : Chan) (k u : Nat) (x : HUnit) : (c.setUnit k u x).fab = c.fab := rfl
@[simp] theorem Chan.setUnit_mem (c : Chan) (k u : Nat) (x : HUnit) : (c.setUnit k u x).mem = c.mem := rfl
@[simp] theorem Chan.setUnit_col (c : Chan) (k u : Nat) (x : HUnit) : (c.setUnit k u x).col = c.col := rfl
@[simp] theorem Chan.setUnit_codec (c : Chan) (k u : Nat) (x : HUnit) : (c.setUnit k u x).codec = c.codec := rfl
@[simp] theorem Chan.setUnit_mtx (c : Chan) (k u : Nat) (x : HUnit) : (c.setUnit k u x).mtx = c.mtx := rfl
@[simp] theorem Chan.setUnit_sch (c : Chan) (k u : Nat) (x : HUnit) : (c.setUnit k u x).sch = c.sch := rfl
@[simp] theorem Chan.setUnit_line (c : Chan) (k u : Nat) (x : HUnit) : (c.setUnit k u x).line = c.line := rfl
@[simp] theorem Chan.setUnit_opt (c : Chan) (k u : Nat) (x : HUnit) : (c.setUnit k u x).opt = c.opt := rfl
@[simp] theorem Chan.setUnit_sec (c : Chan) (k u : Nat) (x : HUnit) : (c.setUnit k u x).sec = c.sec := rfl
@[simp] theorem Chan.setUnit_prov (c : Chan) (k u : Nat) (x : HUnit) : (c.setUnit k u x).prov = c.prov := rfl
@[simp] theorem Chan.setUnit_time (c : Chan) (k u : Nat) (x : HUnit) : (c.setUnit k u x).time = c.time := rfl
@[simp] theorem Chan.setUnit_part (c : Chan) (k u : Nat) (x : HUnit) : (c.setUnit k u x).part = c.part := rfl
@[simp] theorem Chan.setUnit_evr (c : Chan) (k u : Nat) (x : HUnit) : (c.setUnit k u x).evr = c.evr := rfl
@[simp] theorem Chan.setUnit_oldEvr (c : Chan) (k u : Nat) (x : HUnit) : (c.setUnit k u x).oldEvr = c.oldEvr := rfl

/-! ### `Chan.modBoot` -/

@[simp] theorem Chan.modBoot_regs (c : Chan) (f : Boot → Boot) : (c.modBoot f).regs = c.regs := rfl
@[simp] theorem Chan.modBoot_us (c : Chan) (f : Boot → Boot) : (c.modBoot f).us = c.us := rfl
@[simp] theorem Chan.modBoot_ms (c : Chan) (f : Boot → Boot) : (c.modBoot f).ms = c.ms := rfl
@[simp] theorem Chan.modBoot_crystal (c : Chan) (f : Boot → Boot) : (c.modBoot f).crystal = c.crystal := rfl
@[simp] theorem Chan.modBoot_hubLost (c : Chan) (f : Boot → Boot) : (c.modBoot f).hubLost = c.hubLost := rfl
@[simp] theorem Chan.modBoot_viols (c : Chan) (f : Boot → Boot) : (c.modBoot f).viols = c.viols := rfl
@[simp] theorem Chan.modBoot_violLost (c : Chan) (f : Boot → Boot) : (c.modBoot f).violLost = c.violLost := rfl
@[simp] theorem Chan.modBoot_errs (c : Chan) (f : Boot → Boot) : (c.modBoot f).errs = c.errs := rfl
@[simp] theorem Chan.modBoot_cfg (c : Chan) (f : Boot → Boot) : (c.modBoot f).cfg = c.cfg := rfl
@[simp] theorem Chan.modBoot_boot (c : Chan) (f : Boot → Boot) : (c.modBoot f).boot = f c.boot := rfl
@[simp] theorem Chan.modBoot_ctrl (c : Chan) (f : Boot → Boot) : (c.modBoot f).ctrl = c.ctrl := rfl
@[simp] theorem Chan.modBoot_fab (c : Chan) (f : Boot → Boot) : (c.modBoot f).fab = c.fab := rfl
@[simp] theorem Chan.modBoot_mem (c : Chan) (f : Boot → Boot) : (c.modBoot f).mem = c.mem := rfl
@[simp] theorem Chan.modBoot_col (c : Chan) (f : Boot → Boot) : (c.modBoot f).col = c.col := rfl
@[simp] theorem Chan.modBoot_codec (c : Chan) (f : Boot → Boot) : (c.modBoot f).codec = c.codec := rfl
@[simp] theorem Chan.modBoot_mtx (c : Chan) (f : Boot → Boot) : (c.modBoot f).mtx = c.mtx := rfl
@[simp] theorem Chan.modBoot_sch (c : Chan) (f : Boot → Boot) : (c.modBoot f).sch = c.sch := rfl
@[simp] theorem Chan.modBoot_line (c : Chan) (f : Boot → Boot) : (c.modBoot f).line = c.line := rfl
@[simp] theorem Chan.modBoot_opt (c : Chan) (f : Boot → Boot) : (c.modBoot f).opt = c.opt := rfl
@[simp] theorem Chan.modBoot_sec (c : Chan) (f : Boot → Boot) : (c.modBoot f).sec = c.sec := rfl
@[simp] theorem Chan.modBoot_prov (c : Chan) (f : Boot → Boot) : (c.modBoot f).prov = c.prov := rfl
@[simp] theorem Chan.modBoot_time (c : Chan) (f : Boot → Boot) : (c.modBoot f).time = c.time := rfl
@[simp] theorem Chan.modBoot_hlth (c : Chan) (f : Boot → Boot) : (c.modBoot f).hlth = c.hlth := rfl
@[simp] theorem Chan.modBoot_part (c : Chan) (f : Boot → Boot) : (c.modBoot f).part = c.part := rfl
@[simp] theorem Chan.modBoot_evr (c : Chan) (f : Boot → Boot) : (c.modBoot f).evr = c.evr := rfl
@[simp] theorem Chan.modBoot_oldEvr (c : Chan) (f : Boot → Boot) : (c.modBoot f).oldEvr = c.oldEvr := rfl

/-! ### `Chan.modCol` -/

@[simp] theorem Chan.modCol_regs (c : Chan) (f : Col → Col) : (c.modCol f).regs = c.regs := rfl
@[simp] theorem Chan.modCol_us (c : Chan) (f : Col → Col) : (c.modCol f).us = c.us := rfl
@[simp] theorem Chan.modCol_ms (c : Chan) (f : Col → Col) : (c.modCol f).ms = c.ms := rfl
@[simp] theorem Chan.modCol_crystal (c : Chan) (f : Col → Col) : (c.modCol f).crystal = c.crystal := rfl
@[simp] theorem Chan.modCol_hubLost (c : Chan) (f : Col → Col) : (c.modCol f).hubLost = c.hubLost := rfl
@[simp] theorem Chan.modCol_viols (c : Chan) (f : Col → Col) : (c.modCol f).viols = c.viols := rfl
@[simp] theorem Chan.modCol_violLost (c : Chan) (f : Col → Col) : (c.modCol f).violLost = c.violLost := rfl
@[simp] theorem Chan.modCol_errs (c : Chan) (f : Col → Col) : (c.modCol f).errs = c.errs := rfl
@[simp] theorem Chan.modCol_cfg (c : Chan) (f : Col → Col) : (c.modCol f).cfg = c.cfg := rfl
@[simp] theorem Chan.modCol_boot (c : Chan) (f : Col → Col) : (c.modCol f).boot = c.boot := rfl
@[simp] theorem Chan.modCol_ctrl (c : Chan) (f : Col → Col) : (c.modCol f).ctrl = c.ctrl := rfl
@[simp] theorem Chan.modCol_fab (c : Chan) (f : Col → Col) : (c.modCol f).fab = c.fab := rfl
@[simp] theorem Chan.modCol_mem (c : Chan) (f : Col → Col) : (c.modCol f).mem = c.mem := rfl
@[simp] theorem Chan.modCol_col (c : Chan) (f : Col → Col) : (c.modCol f).col = f c.col := rfl
@[simp] theorem Chan.modCol_codec (c : Chan) (f : Col → Col) : (c.modCol f).codec = c.codec := rfl
@[simp] theorem Chan.modCol_mtx (c : Chan) (f : Col → Col) : (c.modCol f).mtx = c.mtx := rfl
@[simp] theorem Chan.modCol_sch (c : Chan) (f : Col → Col) : (c.modCol f).sch = c.sch := rfl
@[simp] theorem Chan.modCol_line (c : Chan) (f : Col → Col) : (c.modCol f).line = c.line := rfl
@[simp] theorem Chan.modCol_opt (c : Chan) (f : Col → Col) : (c.modCol f).opt = c.opt := rfl
@[simp] theorem Chan.modCol_sec (c : Chan) (f : Col → Col) : (c.modCol f).sec = c.sec := rfl
@[simp] theorem Chan.modCol_prov (c : Chan) (f : Col → Col) : (c.modCol f).prov = c.prov := rfl
@[simp] theorem Chan.modCol_time (c : Chan) (f : Col → Col) : (c.modCol f).time = c.time := rfl
@[simp] theorem Chan.modCol_hlth (c : Chan) (f : Col → Col) : (c.modCol f).hlth = c.hlth := rfl
@[simp] theorem Chan.modCol_part (c : Chan) (f : Col → Col) : (c.modCol f).part = c.part := rfl
@[simp] theorem Chan.modCol_evr (c : Chan) (f : Col → Col) : (c.modCol f).evr = c.evr := rfl
@[simp] theorem Chan.modCol_oldEvr (c : Chan) (f : Col → Col) : (c.modCol f).oldEvr = c.oldEvr := rfl

/-! ### `Chan.modCodec` -/

@[simp] theorem Chan.modCodec_regs (c : Chan) (f : Codec → Codec) : (c.modCodec f).regs = c.regs := rfl
@[simp] theorem Chan.modCodec_us (c : Chan) (f : Codec → Codec) : (c.modCodec f).us = c.us := rfl
@[simp] theorem Chan.modCodec_ms (c : Chan) (f : Codec → Codec) : (c.modCodec f).ms = c.ms := rfl
@[simp] theorem Chan.modCodec_crystal (c : Chan) (f : Codec → Codec) : (c.modCodec f).crystal = c.crystal := rfl
@[simp] theorem Chan.modCodec_hubLost (c : Chan) (f : Codec → Codec) : (c.modCodec f).hubLost = c.hubLost := rfl
@[simp] theorem Chan.modCodec_viols (c : Chan) (f : Codec → Codec) : (c.modCodec f).viols = c.viols := rfl
@[simp] theorem Chan.modCodec_violLost (c : Chan) (f : Codec → Codec) : (c.modCodec f).violLost = c.violLost := rfl
@[simp] theorem Chan.modCodec_errs (c : Chan) (f : Codec → Codec) : (c.modCodec f).errs = c.errs := rfl
@[simp] theorem Chan.modCodec_cfg (c : Chan) (f : Codec → Codec) : (c.modCodec f).cfg = c.cfg := rfl
@[simp] theorem Chan.modCodec_boot (c : Chan) (f : Codec → Codec) : (c.modCodec f).boot = c.boot := rfl
@[simp] theorem Chan.modCodec_ctrl (c : Chan) (f : Codec → Codec) : (c.modCodec f).ctrl = c.ctrl := rfl
@[simp] theorem Chan.modCodec_fab (c : Chan) (f : Codec → Codec) : (c.modCodec f).fab = c.fab := rfl
@[simp] theorem Chan.modCodec_mem (c : Chan) (f : Codec → Codec) : (c.modCodec f).mem = c.mem := rfl
@[simp] theorem Chan.modCodec_col (c : Chan) (f : Codec → Codec) : (c.modCodec f).col = c.col := rfl
@[simp] theorem Chan.modCodec_codec (c : Chan) (f : Codec → Codec) : (c.modCodec f).codec = f c.codec := rfl
@[simp] theorem Chan.modCodec_mtx (c : Chan) (f : Codec → Codec) : (c.modCodec f).mtx = c.mtx := rfl
@[simp] theorem Chan.modCodec_sch (c : Chan) (f : Codec → Codec) : (c.modCodec f).sch = c.sch := rfl
@[simp] theorem Chan.modCodec_line (c : Chan) (f : Codec → Codec) : (c.modCodec f).line = c.line := rfl
@[simp] theorem Chan.modCodec_opt (c : Chan) (f : Codec → Codec) : (c.modCodec f).opt = c.opt := rfl
@[simp] theorem Chan.modCodec_sec (c : Chan) (f : Codec → Codec) : (c.modCodec f).sec = c.sec := rfl
@[simp] theorem Chan.modCodec_prov (c : Chan) (f : Codec → Codec) : (c.modCodec f).prov = c.prov := rfl
@[simp] theorem Chan.modCodec_time (c : Chan) (f : Codec → Codec) : (c.modCodec f).time = c.time := rfl
@[simp] theorem Chan.modCodec_hlth (c : Chan) (f : Codec → Codec) : (c.modCodec f).hlth = c.hlth := rfl
@[simp] theorem Chan.modCodec_part (c : Chan) (f : Codec → Codec) : (c.modCodec f).part = c.part := rfl
@[simp] theorem Chan.modCodec_evr (c : Chan) (f : Codec → Codec) : (c.modCodec f).evr = c.evr := rfl
@[simp] theorem Chan.modCodec_oldEvr (c : Chan) (f : Codec → Codec) : (c.modCodec f).oldEvr = c.oldEvr := rfl

/-! ### `Chan.modPart` -/

@[simp] theorem Chan.modPart_regs (c : Chan) (f : Part → Part) : (c.modPart f).regs = c.regs := rfl
@[simp] theorem Chan.modPart_us (c : Chan) (f : Part → Part) : (c.modPart f).us = c.us := rfl
@[simp] theorem Chan.modPart_ms (c : Chan) (f : Part → Part) : (c.modPart f).ms = c.ms := rfl
@[simp] theorem Chan.modPart_crystal (c : Chan) (f : Part → Part) : (c.modPart f).crystal = c.crystal := rfl
@[simp] theorem Chan.modPart_hubLost (c : Chan) (f : Part → Part) : (c.modPart f).hubLost = c.hubLost := rfl
@[simp] theorem Chan.modPart_viols (c : Chan) (f : Part → Part) : (c.modPart f).viols = c.viols := rfl
@[simp] theorem Chan.modPart_violLost (c : Chan) (f : Part → Part) : (c.modPart f).violLost = c.violLost := rfl
@[simp] theorem Chan.modPart_errs (c : Chan) (f : Part → Part) : (c.modPart f).errs = c.errs := rfl
@[simp] theorem Chan.modPart_cfg (c : Chan) (f : Part → Part) : (c.modPart f).cfg = c.cfg := rfl
@[simp] theorem Chan.modPart_boot (c : Chan) (f : Part → Part) : (c.modPart f).boot = c.boot := rfl
@[simp] theorem Chan.modPart_ctrl (c : Chan) (f : Part → Part) : (c.modPart f).ctrl = c.ctrl := rfl
@[simp] theorem Chan.modPart_fab (c : Chan) (f : Part → Part) : (c.modPart f).fab = c.fab := rfl
@[simp] theorem Chan.modPart_mem (c : Chan) (f : Part → Part) : (c.modPart f).mem = c.mem := rfl
@[simp] theorem Chan.modPart_col (c : Chan) (f : Part → Part) : (c.modPart f).col = c.col := rfl
@[simp] theorem Chan.modPart_codec (c : Chan) (f : Part → Part) : (c.modPart f).codec = c.codec := rfl
@[simp] theorem Chan.modPart_mtx (c : Chan) (f : Part → Part) : (c.modPart f).mtx = c.mtx := rfl
@[simp] theorem Chan.modPart_sch (c : Chan) (f : Part → Part) : (c.modPart f).sch = c.sch := rfl
@[simp] theorem Chan.modPart_line (c : Chan) (f : Part → Part) : (c.modPart f).line = c.line := rfl
@[simp] theorem Chan.modPart_opt (c : Chan) (f : Part → Part) : (c.modPart f).opt = c.opt := rfl
@[simp] theorem Chan.modPart_sec (c : Chan) (f : Part → Part) : (c.modPart f).sec = c.sec := rfl
@[simp] theorem Chan.modPart_prov (c : Chan) (f : Part → Part) : (c.modPart f).prov = c.prov := rfl
@[simp] theorem Chan.modPart_time (c : Chan) (f : Part → Part) : (c.modPart f).time = c.time := rfl
@[simp] theorem Chan.modPart_hlth (c : Chan) (f : Part → Part) : (c.modPart f).hlth = c.hlth := rfl
@[simp] theorem Chan.modPart_part (c : Chan) (f : Part → Part) : (c.modPart f).part = f c.part := rfl
@[simp] theorem Chan.modPart_evr (c : Chan) (f : Part → Part) : (c.modPart f).evr = c.evr := rfl
@[simp] theorem Chan.modPart_oldEvr (c : Chan) (f : Part → Part) : (c.modPart f).oldEvr = c.oldEvr := rfl

/-! ### `Chan.modSec` -/

@[simp] theorem Chan.modSec_regs (c : Chan) (f : Sec → Sec) : (c.modSec f).regs = c.regs := rfl
@[simp] theorem Chan.modSec_us (c : Chan) (f : Sec → Sec) : (c.modSec f).us = c.us := rfl
@[simp] theorem Chan.modSec_ms (c : Chan) (f : Sec → Sec) : (c.modSec f).ms = c.ms := rfl
@[simp] theorem Chan.modSec_crystal (c : Chan) (f : Sec → Sec) : (c.modSec f).crystal = c.crystal := rfl
@[simp] theorem Chan.modSec_hubLost (c : Chan) (f : Sec → Sec) : (c.modSec f).hubLost = c.hubLost := rfl
@[simp] theorem Chan.modSec_viols (c : Chan) (f : Sec → Sec) : (c.modSec f).viols = c.viols := rfl
@[simp] theorem Chan.modSec_violLost (c : Chan) (f : Sec → Sec) : (c.modSec f).violLost = c.violLost := rfl
@[simp] theorem Chan.modSec_errs (c : Chan) (f : Sec → Sec) : (c.modSec f).errs = c.errs := rfl
@[simp] theorem Chan.modSec_cfg (c : Chan) (f : Sec → Sec) : (c.modSec f).cfg = c.cfg := rfl
@[simp] theorem Chan.modSec_boot (c : Chan) (f : Sec → Sec) : (c.modSec f).boot = c.boot := rfl
@[simp] theorem Chan.modSec_ctrl (c : Chan) (f : Sec → Sec) : (c.modSec f).ctrl = c.ctrl := rfl
@[simp] theorem Chan.modSec_fab (c : Chan) (f : Sec → Sec) : (c.modSec f).fab = c.fab := rfl
@[simp] theorem Chan.modSec_mem (c : Chan) (f : Sec → Sec) : (c.modSec f).mem = c.mem := rfl
@[simp] theorem Chan.modSec_col (c : Chan) (f : Sec → Sec) : (c.modSec f).col = c.col := rfl
@[simp] theorem Chan.modSec_codec (c : Chan) (f : Sec → Sec) : (c.modSec f).codec = c.codec := rfl
@[simp] theorem Chan.modSec_mtx (c : Chan) (f : Sec → Sec) : (c.modSec f).mtx = c.mtx := rfl
@[simp] theorem Chan.modSec_sch (c : Chan) (f : Sec → Sec) : (c.modSec f).sch = c.sch := rfl
@[simp] theorem Chan.modSec_line (c : Chan) (f : Sec → Sec) : (c.modSec f).line = c.line := rfl
@[simp] theorem Chan.modSec_opt (c : Chan) (f : Sec → Sec) : (c.modSec f).opt = c.opt := rfl
@[simp] theorem Chan.modSec_sec (c : Chan) (f : Sec → Sec) : (c.modSec f).sec = f c.sec := rfl
@[simp] theorem Chan.modSec_prov (c : Chan) (f : Sec → Sec) : (c.modSec f).prov = c.prov := rfl
@[simp] theorem Chan.modSec_time (c : Chan) (f : Sec → Sec) : (c.modSec f).time = c.time := rfl
@[simp] theorem Chan.modSec_hlth (c : Chan) (f : Sec → Sec) : (c.modSec f).hlth = c.hlth := rfl
@[simp] theorem Chan.modSec_part (c : Chan) (f : Sec → Sec) : (c.modSec f).part = c.part := rfl
@[simp] theorem Chan.modSec_evr (c : Chan) (f : Sec → Sec) : (c.modSec f).evr = c.evr := rfl
@[simp] theorem Chan.modSec_oldEvr (c : Chan) (f : Sec → Sec) : (c.modSec f).oldEvr = c.oldEvr := rfl

/-! ### `Chan.modLine` -/

@[simp] theorem Chan.modLine_regs (c : Chan) (f : Line → Line) : (c.modLine f).regs = c.regs := rfl
@[simp] theorem Chan.modLine_us (c : Chan) (f : Line → Line) : (c.modLine f).us = c.us := rfl
@[simp] theorem Chan.modLine_ms (c : Chan) (f : Line → Line) : (c.modLine f).ms = c.ms := rfl
@[simp] theorem Chan.modLine_crystal (c : Chan) (f : Line → Line) : (c.modLine f).crystal = c.crystal := rfl
@[simp] theorem Chan.modLine_hubLost (c : Chan) (f : Line → Line) : (c.modLine f).hubLost = c.hubLost := rfl
@[simp] theorem Chan.modLine_viols (c : Chan) (f : Line → Line) : (c.modLine f).viols = c.viols := rfl
@[simp] theorem Chan.modLine_violLost (c : Chan) (f : Line → Line) : (c.modLine f).violLost = c.violLost := rfl
@[simp] theorem Chan.modLine_errs (c : Chan) (f : Line → Line) : (c.modLine f).errs = c.errs := rfl
@[simp] theorem Chan.modLine_cfg (c : Chan) (f : Line → Line) : (c.modLine f).cfg = c.cfg := rfl
@[simp] theorem Chan.modLine_boot (c : Chan) (f : Line → Line) : (c.modLine f).boot = c.boot := rfl
@[simp] theorem Chan.modLine_ctrl (c : Chan) (f : Line → Line) : (c.modLine f).ctrl = c.ctrl := rfl
@[simp] theorem Chan.modLine_fab (c : Chan) (f : Line → Line) : (c.modLine f).fab = c.fab := rfl
@[simp] theorem Chan.modLine_mem (c : Chan) (f : Line → Line) : (c.modLine f).mem = c.mem := rfl
@[simp] theorem Chan.modLine_col (c : Chan) (f : Line → Line) : (c.modLine f).col = c.col := rfl
@[simp] theorem Chan.modLine_codec (c : Chan) (f : Line → Line) : (c.modLine f).codec = c.codec := rfl
@[simp] theorem Chan.modLine_mtx (c : Chan) (f : Line → Line) : (c.modLine f).mtx = c.mtx := rfl
@[simp] theorem Chan.modLine_sch (c : Chan) (f : Line → Line) : (c.modLine f).sch = c.sch := rfl
@[simp] theorem Chan.modLine_line (c : Chan) (f : Line → Line) : (c.modLine f).line = f c.line := rfl
@[simp] theorem Chan.modLine_opt (c : Chan) (f : Line → Line) : (c.modLine f).opt = c.opt := rfl
@[simp] theorem Chan.modLine_sec (c : Chan) (f : Line → Line) : (c.modLine f).sec = c.sec := rfl
@[simp] theorem Chan.modLine_prov (c : Chan) (f : Line → Line) : (c.modLine f).prov = c.prov := rfl
@[simp] theorem Chan.modLine_time (c : Chan) (f : Line → Line) : (c.modLine f).time = c.time := rfl
@[simp] theorem Chan.modLine_hlth (c : Chan) (f : Line → Line) : (c.modLine f).hlth = c.hlth := rfl
@[simp] theorem Chan.modLine_part (c : Chan) (f : Line → Line) : (c.modLine f).part = c.part := rfl
@[simp] theorem Chan.modLine_evr (c : Chan) (f : Line → Line) : (c.modLine f).evr = c.evr := rfl
@[simp] theorem Chan.modLine_oldEvr (c : Chan) (f : Line → Line) : (c.modLine f).oldEvr = c.oldEvr := rfl

/-! ### `Chan.modMem` -/

@[simp] theorem Chan.modMem_regs (c : Chan) (f : Mem → Mem) : (c.modMem f).regs = c.regs := rfl
@[simp] theorem Chan.modMem_us (c : Chan) (f : Mem → Mem) : (c.modMem f).us = c.us := rfl
@[simp] theorem Chan.modMem_ms (c : Chan) (f : Mem → Mem) : (c.modMem f).ms = c.ms := rfl
@[simp] theorem Chan.modMem_crystal (c : Chan) (f : Mem → Mem) : (c.modMem f).crystal = c.crystal := rfl
@[simp] theorem Chan.modMem_hubLost (c : Chan) (f : Mem → Mem) : (c.modMem f).hubLost = c.hubLost := rfl
@[simp] theorem Chan.modMem_viols (c : Chan) (f : Mem → Mem) : (c.modMem f).viols = c.viols := rfl
@[simp] theorem Chan.modMem_violLost (c : Chan) (f : Mem → Mem) : (c.modMem f).violLost = c.violLost := rfl
@[simp] theorem Chan.modMem_errs (c : Chan) (f : Mem → Mem) : (c.modMem f).errs = c.errs := rfl
@[simp] theorem Chan.modMem_cfg (c : Chan) (f : Mem → Mem) : (c.modMem f).cfg = c.cfg := rfl
@[simp] theorem Chan.modMem_boot (c : Chan) (f : Mem → Mem) : (c.modMem f).boot = c.boot := rfl
@[simp] theorem Chan.modMem_ctrl (c : Chan) (f : Mem → Mem) : (c.modMem f).ctrl = c.ctrl := rfl
@[simp] theorem Chan.modMem_fab (c : Chan) (f : Mem → Mem) : (c.modMem f).fab = c.fab := rfl
@[simp] theorem Chan.modMem_mem (c : Chan) (f : Mem → Mem) : (c.modMem f).mem = f c.mem := rfl
@[simp] theorem Chan.modMem_col (c : Chan) (f : Mem → Mem) : (c.modMem f).col = c.col := rfl
@[simp] theorem Chan.modMem_codec (c : Chan) (f : Mem → Mem) : (c.modMem f).codec = c.codec := rfl
@[simp] theorem Chan.modMem_mtx (c : Chan) (f : Mem → Mem) : (c.modMem f).mtx = c.mtx := rfl
@[simp] theorem Chan.modMem_sch (c : Chan) (f : Mem → Mem) : (c.modMem f).sch = c.sch := rfl
@[simp] theorem Chan.modMem_line (c : Chan) (f : Mem → Mem) : (c.modMem f).line = c.line := rfl
@[simp] theorem Chan.modMem_opt (c : Chan) (f : Mem → Mem) : (c.modMem f).opt = c.opt := rfl
@[simp] theorem Chan.modMem_sec (c : Chan) (f : Mem → Mem) : (c.modMem f).sec = c.sec := rfl
@[simp] theorem Chan.modMem_prov (c : Chan) (f : Mem → Mem) : (c.modMem f).prov = c.prov := rfl
@[simp] theorem Chan.modMem_time (c : Chan) (f : Mem → Mem) : (c.modMem f).time = c.time := rfl
@[simp] theorem Chan.modMem_hlth (c : Chan) (f : Mem → Mem) : (c.modMem f).hlth = c.hlth := rfl
@[simp] theorem Chan.modMem_part (c : Chan) (f : Mem → Mem) : (c.modMem f).part = c.part := rfl
@[simp] theorem Chan.modMem_evr (c : Chan) (f : Mem → Mem) : (c.modMem f).evr = c.evr := rfl
@[simp] theorem Chan.modMem_oldEvr (c : Chan) (f : Mem → Mem) : (c.modMem f).oldEvr = c.oldEvr := rfl

/-! ### `Chan.modMtx` -/

@[simp] theorem Chan.modMtx_regs (c : Chan) (f : Mtx → Mtx) : (c.modMtx f).regs = c.regs := rfl
@[simp] theorem Chan.modMtx_us (c : Chan) (f : Mtx → Mtx) : (c.modMtx f).us = c.us := rfl
@[simp] theorem Chan.modMtx_ms (c : Chan) (f : Mtx → Mtx) : (c.modMtx f).ms = c.ms := rfl
@[simp] theorem Chan.modMtx_crystal (c : Chan) (f : Mtx → Mtx) : (c.modMtx f).crystal = c.crystal := rfl
@[simp] theorem Chan.modMtx_hubLost (c : Chan) (f : Mtx → Mtx) : (c.modMtx f).hubLost = c.hubLost := rfl
@[simp] theorem Chan.modMtx_viols (c : Chan) (f : Mtx → Mtx) : (c.modMtx f).viols = c.viols := rfl
@[simp] theorem Chan.modMtx_violLost (c : Chan) (f : Mtx → Mtx) : (c.modMtx f).violLost = c.violLost := rfl
@[simp] theorem Chan.modMtx_errs (c : Chan) (f : Mtx → Mtx) : (c.modMtx f).errs = c.errs := rfl
@[simp] theorem Chan.modMtx_cfg (c : Chan) (f : Mtx → Mtx) : (c.modMtx f).cfg = c.cfg := rfl
@[simp] theorem Chan.modMtx_boot (c : Chan) (f : Mtx → Mtx) : (c.modMtx f).boot = c.boot := rfl
@[simp] theorem Chan.modMtx_ctrl (c : Chan) (f : Mtx → Mtx) : (c.modMtx f).ctrl = c.ctrl := rfl
@[simp] theorem Chan.modMtx_fab (c : Chan) (f : Mtx → Mtx) : (c.modMtx f).fab = c.fab := rfl
@[simp] theorem Chan.modMtx_mem (c : Chan) (f : Mtx → Mtx) : (c.modMtx f).mem = c.mem := rfl
@[simp] theorem Chan.modMtx_col (c : Chan) (f : Mtx → Mtx) : (c.modMtx f).col = c.col := rfl
@[simp] theorem Chan.modMtx_codec (c : Chan) (f : Mtx → Mtx) : (c.modMtx f).codec = c.codec := rfl
@[simp] theorem Chan.modMtx_mtx (c : Chan) (f : Mtx → Mtx) : (c.modMtx f).mtx = f c.mtx := rfl
@[simp] theorem Chan.modMtx_sch (c : Chan) (f : Mtx → Mtx) : (c.modMtx f).sch = c.sch := rfl
@[simp] theorem Chan.modMtx_line (c : Chan) (f : Mtx → Mtx) : (c.modMtx f).line = c.line := rfl
@[simp] theorem Chan.modMtx_opt (c : Chan) (f : Mtx → Mtx) : (c.modMtx f).opt = c.opt := rfl
@[simp] theorem Chan.modMtx_sec (c : Chan) (f : Mtx → Mtx) : (c.modMtx f).sec = c.sec := rfl
@[simp] theorem Chan.modMtx_prov (c : Chan) (f : Mtx → Mtx) : (c.modMtx f).prov = c.prov := rfl
@[simp] theorem Chan.modMtx_time (c : Chan) (f : Mtx → Mtx) : (c.modMtx f).time = c.time := rfl
@[simp] theorem Chan.modMtx_hlth (c : Chan) (f : Mtx → Mtx) : (c.modMtx f).hlth = c.hlth := rfl
@[simp] theorem Chan.modMtx_part (c : Chan) (f : Mtx → Mtx) : (c.modMtx f).part = c.part := rfl
@[simp] theorem Chan.modMtx_evr (c : Chan) (f : Mtx → Mtx) : (c.modMtx f).evr = c.evr := rfl
@[simp] theorem Chan.modMtx_oldEvr (c : Chan) (f : Mtx → Mtx) : (c.modMtx f).oldEvr = c.oldEvr := rfl

/-! ### `Chan.modOpt` -/

@[simp] theorem Chan.modOpt_regs (c : Chan) (f : Opt → Opt) : (c.modOpt f).regs = c.regs := rfl
@[simp] theorem Chan.modOpt_us (c : Chan) (f : Opt → Opt) : (c.modOpt f).us = c.us := rfl
@[simp] theorem Chan.modOpt_ms (c : Chan) (f : Opt → Opt) : (c.modOpt f).ms = c.ms := rfl
@[simp] theorem Chan.modOpt_crystal (c : Chan) (f : Opt → Opt) : (c.modOpt f).crystal = c.crystal := rfl
@[simp] theorem Chan.modOpt_hubLost (c : Chan) (f : Opt → Opt) : (c.modOpt f).hubLost = c.hubLost := rfl
@[simp] theorem Chan.modOpt_viols (c : Chan) (f : Opt → Opt) : (c.modOpt f).viols = c.viols := rfl
@[simp] theorem Chan.modOpt_violLost (c : Chan) (f : Opt → Opt) : (c.modOpt f).violLost = c.violLost := rfl
@[simp] theorem Chan.modOpt_errs (c : Chan) (f : Opt → Opt) : (c.modOpt f).errs = c.errs := rfl
@[simp] theorem Chan.modOpt_cfg (c : Chan) (f : Opt → Opt) : (c.modOpt f).cfg = c.cfg := rfl
@[simp] theorem Chan.modOpt_boot (c : Chan) (f : Opt → Opt) : (c.modOpt f).boot = c.boot := rfl
@[simp] theorem Chan.modOpt_ctrl (c : Chan) (f : Opt → Opt) : (c.modOpt f).ctrl = c.ctrl := rfl
@[simp] theorem Chan.modOpt_fab (c : Chan) (f : Opt → Opt) : (c.modOpt f).fab = c.fab := rfl
@[simp] theorem Chan.modOpt_mem (c : Chan) (f : Opt → Opt) : (c.modOpt f).mem = c.mem := rfl
@[simp] theorem Chan.modOpt_col (c : Chan) (f : Opt → Opt) : (c.modOpt f).col = c.col := rfl
@[simp] theorem Chan.modOpt_codec (c : Chan) (f : Opt → Opt) : (c.modOpt f).codec = c.codec := rfl
@[simp] theorem Chan.modOpt_mtx (c : Chan) (f : Opt → Opt) : (c.modOpt f).mtx = c.mtx := rfl
@[simp] theorem Chan.modOpt_sch (c : Chan) (f : Opt → Opt) : (c.modOpt f).sch = c.sch := rfl
@[simp] theorem Chan.modOpt_line (c : Chan) (f : Opt → Opt) : (c.modOpt f).line = c.line := rfl
@[simp] theorem Chan.modOpt_opt (c : Chan) (f : Opt → Opt) : (c.modOpt f).opt = f c.opt := rfl
@[simp] theorem Chan.modOpt_sec (c : Chan) (f : Opt → Opt) : (c.modOpt f).sec = c.sec := rfl
@[simp] theorem Chan.modOpt_prov (c : Chan) (f : Opt → Opt) : (c.modOpt f).prov = c.prov := rfl
@[simp] theorem Chan.modOpt_time (c : Chan) (f : Opt → Opt) : (c.modOpt f).time = c.time := rfl
@[simp] theorem Chan.modOpt_hlth (c : Chan) (f : Opt → Opt) : (c.modOpt f).hlth = c.hlth := rfl
@[simp] theorem Chan.modOpt_part (c : Chan) (f : Opt → Opt) : (c.modOpt f).part = c.part := rfl
@[simp] theorem Chan.modOpt_evr (c : Chan) (f : Opt → Opt) : (c.modOpt f).evr = c.evr := rfl
@[simp] theorem Chan.modOpt_oldEvr (c : Chan) (f : Opt → Opt) : (c.modOpt f).oldEvr = c.oldEvr := rfl

/-! ### `Chan.modProv` -/

@[simp] theorem Chan.modProv_regs (c : Chan) (f : Prov → Prov) : (c.modProv f).regs = c.regs := rfl
@[simp] theorem Chan.modProv_us (c : Chan) (f : Prov → Prov) : (c.modProv f).us = c.us := rfl
@[simp] theorem Chan.modProv_ms (c : Chan) (f : Prov → Prov) : (c.modProv f).ms = c.ms := rfl
@[simp] theorem Chan.modProv_crystal (c : Chan) (f : Prov → Prov) : (c.modProv f).crystal = c.crystal := rfl
@[simp] theorem Chan.modProv_hubLost (c : Chan) (f : Prov → Prov) : (c.modProv f).hubLost = c.hubLost := rfl
@[simp] theorem Chan.modProv_viols (c : Chan) (f : Prov → Prov) : (c.modProv f).viols = c.viols := rfl
@[simp] theorem Chan.modProv_violLost (c : Chan) (f : Prov → Prov) : (c.modProv f).violLost = c.violLost := rfl
@[simp] theorem Chan.modProv_errs (c : Chan) (f : Prov → Prov) : (c.modProv f).errs = c.errs := rfl
@[simp] theorem Chan.modProv_cfg (c : Chan) (f : Prov → Prov) : (c.modProv f).cfg = c.cfg := rfl
@[simp] theorem Chan.modProv_boot (c : Chan) (f : Prov → Prov) : (c.modProv f).boot = c.boot := rfl
@[simp] theorem Chan.modProv_ctrl (c : Chan) (f : Prov → Prov) : (c.modProv f).ctrl = c.ctrl := rfl
@[simp] theorem Chan.modProv_fab (c : Chan) (f : Prov → Prov) : (c.modProv f).fab = c.fab := rfl
@[simp] theorem Chan.modProv_mem (c : Chan) (f : Prov → Prov) : (c.modProv f).mem = c.mem := rfl
@[simp] theorem Chan.modProv_col (c : Chan) (f : Prov → Prov) : (c.modProv f).col = c.col := rfl
@[simp] theorem Chan.modProv_codec (c : Chan) (f : Prov → Prov) : (c.modProv f).codec = c.codec := rfl
@[simp] theorem Chan.modProv_mtx (c : Chan) (f : Prov → Prov) : (c.modProv f).mtx = c.mtx := rfl
@[simp] theorem Chan.modProv_sch (c : Chan) (f : Prov → Prov) : (c.modProv f).sch = c.sch := rfl
@[simp] theorem Chan.modProv_line (c : Chan) (f : Prov → Prov) : (c.modProv f).line = c.line := rfl
@[simp] theorem Chan.modProv_opt (c : Chan) (f : Prov → Prov) : (c.modProv f).opt = c.opt := rfl
@[simp] theorem Chan.modProv_sec (c : Chan) (f : Prov → Prov) : (c.modProv f).sec = c.sec := rfl
@[simp] theorem Chan.modProv_prov (c : Chan) (f : Prov → Prov) : (c.modProv f).prov = f c.prov := rfl
@[simp] theorem Chan.modProv_time (c : Chan) (f : Prov → Prov) : (c.modProv f).time = c.time := rfl
@[simp] theorem Chan.modProv_hlth (c : Chan) (f : Prov → Prov) : (c.modProv f).hlth = c.hlth := rfl
@[simp] theorem Chan.modProv_part (c : Chan) (f : Prov → Prov) : (c.modProv f).part = c.part := rfl
@[simp] theorem Chan.modProv_evr (c : Chan) (f : Prov → Prov) : (c.modProv f).evr = c.evr := rfl
@[simp] theorem Chan.modProv_oldEvr (c : Chan) (f : Prov → Prov) : (c.modProv f).oldEvr = c.oldEvr := rfl

/-! ### `Chan.modSch` -/

@[simp] theorem Chan.modSch_regs (c : Chan) (f : Sch → Sch) : (c.modSch f).regs = c.regs := rfl
@[simp] theorem Chan.modSch_us (c : Chan) (f : Sch → Sch) : (c.modSch f).us = c.us := rfl
@[simp] theorem Chan.modSch_ms (c : Chan) (f : Sch → Sch) : (c.modSch f).ms = c.ms := rfl
@[simp] theorem Chan.modSch_crystal (c : Chan) (f : Sch → Sch) : (c.modSch f).crystal = c.crystal := rfl
@[simp] theorem Chan.modSch_hubLost (c : Chan) (f : Sch → Sch) : (c.modSch f).hubLost = c.hubLost := rfl
@[simp] theorem Chan.modSch_viols (c : Chan) (f : Sch → Sch) : (c.modSch f).viols = c.viols := rfl
@[simp] theorem Chan.modSch_violLost (c : Chan) (f : Sch → Sch) : (c.modSch f).violLost = c.violLost := rfl
@[simp] theorem Chan.modSch_errs (c : Chan) (f : Sch → Sch) : (c.modSch f).errs = c.errs := rfl
@[simp] theorem Chan.modSch_cfg (c : Chan) (f : Sch → Sch) : (c.modSch f).cfg = c.cfg := rfl
@[simp] theorem Chan.modSch_boot (c : Chan) (f : Sch → Sch) : (c.modSch f).boot = c.boot := rfl
@[simp] theorem Chan.modSch_ctrl (c : Chan) (f : Sch → Sch) : (c.modSch f).ctrl = c.ctrl := rfl
@[simp] theorem Chan.modSch_fab (c : Chan) (f : Sch → Sch) : (c.modSch f).fab = c.fab := rfl
@[simp] theorem Chan.modSch_mem (c : Chan) (f : Sch → Sch) : (c.modSch f).mem = c.mem := rfl
@[simp] theorem Chan.modSch_col (c : Chan) (f : Sch → Sch) : (c.modSch f).col = c.col := rfl
@[simp] theorem Chan.modSch_codec (c : Chan) (f : Sch → Sch) : (c.modSch f).codec = c.codec := rfl
@[simp] theorem Chan.modSch_mtx (c : Chan) (f : Sch → Sch) : (c.modSch f).mtx = c.mtx := rfl
@[simp] theorem Chan.modSch_sch (c : Chan) (f : Sch → Sch) : (c.modSch f).sch = f c.sch := rfl
@[simp] theorem Chan.modSch_line (c : Chan) (f : Sch → Sch) : (c.modSch f).line = c.line := rfl
@[simp] theorem Chan.modSch_opt (c : Chan) (f : Sch → Sch) : (c.modSch f).opt = c.opt := rfl
@[simp] theorem Chan.modSch_sec (c : Chan) (f : Sch → Sch) : (c.modSch f).sec = c.sec := rfl
@[simp] theorem Chan.modSch_prov (c : Chan) (f : Sch → Sch) : (c.modSch f).prov = c.prov := rfl
@[simp] theorem Chan.modSch_time (c : Chan) (f : Sch → Sch) : (c.modSch f).time = c.time := rfl
@[simp] theorem Chan.modSch_hlth (c : Chan) (f : Sch → Sch) : (c.modSch f).hlth = c.hlth := rfl
@[simp] theorem Chan.modSch_part (c : Chan) (f : Sch → Sch) : (c.modSch f).part = c.part := rfl
@[simp] theorem Chan.modSch_evr (c : Chan) (f : Sch → Sch) : (c.modSch f).evr = c.evr := rfl
@[simp] theorem Chan.modSch_oldEvr (c : Chan) (f : Sch → Sch) : (c.modSch f).oldEvr = c.oldEvr := rfl

/-! ### `Chan.modTime` -/

@[simp] theorem Chan.modTime_regs (c : Chan) (f : Time → Time) : (c.modTime f).regs = c.regs := rfl
@[simp] theorem Chan.modTime_us (c : Chan) (f : Time → Time) : (c.modTime f).us = c.us := rfl
@[simp] theorem Chan.modTime_ms (c : Chan) (f : Time → Time) : (c.modTime f).ms = c.ms := rfl
@[simp] theorem Chan.modTime_crystal (c : Chan) (f : Time → Time) : (c.modTime f).crystal = c.crystal := rfl
@[simp] theorem Chan.modTime_hubLost (c : Chan) (f : Time → Time) : (c.modTime f).hubLost = c.hubLost := rfl
@[simp] theorem Chan.modTime_viols (c : Chan) (f : Time → Time) : (c.modTime f).viols = c.viols := rfl
@[simp] theorem Chan.modTime_violLost (c : Chan) (f : Time → Time) : (c.modTime f).violLost = c.violLost := rfl
@[simp] theorem Chan.modTime_errs (c : Chan) (f : Time → Time) : (c.modTime f).errs = c.errs := rfl
@[simp] theorem Chan.modTime_cfg (c : Chan) (f : Time → Time) : (c.modTime f).cfg = c.cfg := rfl
@[simp] theorem Chan.modTime_boot (c : Chan) (f : Time → Time) : (c.modTime f).boot = c.boot := rfl
@[simp] theorem Chan.modTime_ctrl (c : Chan) (f : Time → Time) : (c.modTime f).ctrl = c.ctrl := rfl
@[simp] theorem Chan.modTime_fab (c : Chan) (f : Time → Time) : (c.modTime f).fab = c.fab := rfl
@[simp] theorem Chan.modTime_mem (c : Chan) (f : Time → Time) : (c.modTime f).mem = c.mem := rfl
@[simp] theorem Chan.modTime_col (c : Chan) (f : Time → Time) : (c.modTime f).col = c.col := rfl
@[simp] theorem Chan.modTime_codec (c : Chan) (f : Time → Time) : (c.modTime f).codec = c.codec := rfl
@[simp] theorem Chan.modTime_mtx (c : Chan) (f : Time → Time) : (c.modTime f).mtx = c.mtx := rfl
@[simp] theorem Chan.modTime_sch (c : Chan) (f : Time → Time) : (c.modTime f).sch = c.sch := rfl
@[simp] theorem Chan.modTime_line (c : Chan) (f : Time → Time) : (c.modTime f).line = c.line := rfl
@[simp] theorem Chan.modTime_opt (c : Chan) (f : Time → Time) : (c.modTime f).opt = c.opt := rfl
@[simp] theorem Chan.modTime_sec (c : Chan) (f : Time → Time) : (c.modTime f).sec = c.sec := rfl
@[simp] theorem Chan.modTime_prov (c : Chan) (f : Time → Time) : (c.modTime f).prov = c.prov := rfl
@[simp] theorem Chan.modTime_time (c : Chan) (f : Time → Time) : (c.modTime f).time = f c.time := rfl
@[simp] theorem Chan.modTime_hlth (c : Chan) (f : Time → Time) : (c.modTime f).hlth = c.hlth := rfl
@[simp] theorem Chan.modTime_part (c : Chan) (f : Time → Time) : (c.modTime f).part = c.part := rfl
@[simp] theorem Chan.modTime_evr (c : Chan) (f : Time → Time) : (c.modTime f).evr = c.evr := rfl
@[simp] theorem Chan.modTime_oldEvr (c : Chan) (f : Time → Time) : (c.modTime f).oldEvr = c.oldEvr := rfl

/-! ### `Chan.count` -/

@[simp] theorem Chan.count_us (c : Chan) (o n : Nat) : (c.count o n).us = c.us := by unfold Chan.count; split <;> rfl
@[simp] theorem Chan.count_ms (c : Chan) (o n : Nat) : (c.count o n).ms = c.ms := by unfold Chan.count; split <;> rfl
@[simp] theorem Chan.count_crystal (c : Chan) (o n : Nat) : (c.count o n).crystal = c.crystal := by unfold Chan.count; split <;> rfl
@[simp] theorem Chan.count_oldEvr (c : Chan) (o n : Nat) : (c.count o n).oldEvr = c.oldEvr := by unfold Chan.count; split <;> rfl
@[simp] theorem Chan.count_hubLost (c : Chan) (o n : Nat) : (c.count o n).hubLost = c.hubLost := by unfold Chan.count; split <;> rfl
@[simp] theorem Chan.count_viols (c : Chan) (o n : Nat) : (c.count o n).viols = c.viols := by unfold Chan.count; split <;> rfl
@[simp] theorem Chan.count_violLost (c : Chan) (o n : Nat) : (c.count o n).violLost = c.violLost := by unfold Chan.count; split <;> rfl
@[simp] theorem Chan.count_errs (c : Chan) (o n : Nat) : (c.count o n).errs = c.errs := by unfold Chan.count; split <;> rfl
@[simp] theorem Chan.count_cfg (c : Chan) (o n : Nat) : (c.count o n).cfg = c.cfg := by unfold Chan.count; split <;> rfl
@[simp] theorem Chan.count_boot (c : Chan) (o n : Nat) : (c.count o n).boot = c.boot := by unfold Chan.count; split <;> rfl
@[simp] theorem Chan.count_ctrl (c : Chan) (o n : Nat) : (c.count o n).ctrl = c.ctrl := by unfold Chan.count; split <;> rfl
@[simp] theorem Chan.count_fab (c : Chan) (o n : Nat) : (c.count o n).fab = c.fab := by unfold Chan.count; split <;> rfl
@[simp] theorem Chan.count_mem (c : Chan) (o n : Nat) : (c.count o n).mem = c.mem := by unfold Chan.count; split <;> rfl
@[simp] theorem Chan.count_col (c : Chan) (o n : Nat) : (c.count o n).col = c.col := by unfold Chan.count; split <;> rfl
@[simp] theorem Chan.count_codec (c : Chan) (o n : Nat) : (c.count o n).codec = c.codec := by unfold Chan.count; split <;> rfl
@[simp] theorem Chan.count_mtx (c : Chan) (o n : Nat) : (c.count o n).mtx = c.mtx := by unfold Chan.count; split <;> rfl
@[simp] theorem Chan.count_sch (c : Chan) (o n : Nat) : (c.count o n).sch = c.sch := by unfold Chan.count; split <;> rfl
@[simp] theorem Chan.count_line (c : Chan) (o n : Nat) : (c.count o n).line = c.line := by unfold Chan.count; split <;> rfl
@[simp] theorem Chan.count_opt (c : Chan) (o n : Nat) : (c.count o n).opt = c.opt := by unfold Chan.count; split <;> rfl
@[simp] theorem Chan.count_sec (c : Chan) (o n : Nat) : (c.count o n).sec = c.sec := by unfold Chan.count; split <;> rfl
@[simp] theorem Chan.count_prov (c : Chan) (o n : Nat) : (c.count o n).prov = c.prov := by unfold Chan.count; split <;> rfl
@[simp] theorem Chan.count_time (c : Chan) (o n : Nat) : (c.count o n).time = c.time := by unfold Chan.count; split <;> rfl
@[simp] theorem Chan.count_hlth (c : Chan) (o n : Nat) : (c.count o n).hlth = c.hlth := by unfold Chan.count; split <;> rfl
@[simp] theorem Chan.count_part (c : Chan) (o n : Nat) : (c.count o n).part = c.part := by unfold Chan.count; split <;> rfl
@[simp] theorem Chan.count_evr (c : Chan) (o n : Nat) : (c.count o n).evr = c.evr := by unfold Chan.count; split <;> rfl

/-! ### `Chan.raiseIf` -/

@[simp] theorem Chan.raiseIf_regs (c : Chan) (b : Bool) (r : Raised) : (c.raiseIf b r).regs = c.regs := by unfold Chan.raiseIf; split <;> rfl
@[simp] theorem Chan.raiseIf_us (c : Chan) (b : Bool) (r : Raised) : (c.raiseIf b r).us = c.us := by unfold Chan.raiseIf; split <;> rfl
@[simp] theorem Chan.raiseIf_ms (c : Chan) (b : Bool) (r : Raised) : (c.raiseIf b r).ms = c.ms := by unfold Chan.raiseIf; split <;> rfl
@[simp] theorem Chan.raiseIf_crystal (c : Chan) (b : Bool) (r : Raised) : (c.raiseIf b r).crystal = c.crystal := by unfold Chan.raiseIf; split <;> rfl
@[simp] theorem Chan.raiseIf_oldEvr (c : Chan) (b : Bool) (r : Raised) : (c.raiseIf b r).oldEvr = c.oldEvr := by unfold Chan.raiseIf; split <;> rfl
@[simp] theorem Chan.raiseIf_hubLost (c : Chan) (b : Bool) (r : Raised) : (c.raiseIf b r).hubLost = c.hubLost := by unfold Chan.raiseIf; split <;> rfl
@[simp] theorem Chan.raiseIf_viols (c : Chan) (b : Bool) (r : Raised) : (c.raiseIf b r).viols = c.viols := by unfold Chan.raiseIf; split <;> rfl
@[simp] theorem Chan.raiseIf_violLost (c : Chan) (b : Bool) (r : Raised) : (c.raiseIf b r).violLost = c.violLost := by unfold Chan.raiseIf; split <;> rfl
@[simp] theorem Chan.raiseIf_errs (c : Chan) (b : Bool) (r : Raised) : (c.raiseIf b r).errs = c.errs := by unfold Chan.raiseIf; split <;> rfl
@[simp] theorem Chan.raiseIf_cfg (c : Chan) (b : Bool) (r : Raised) : (c.raiseIf b r).cfg = c.cfg := by unfold Chan.raiseIf; split <;> rfl
@[simp] theorem Chan.raiseIf_boot (c : Chan) (b : Bool) (r : Raised) : (c.raiseIf b r).boot = c.boot := by unfold Chan.raiseIf; split <;> rfl
@[simp] theorem Chan.raiseIf_ctrl (c : Chan) (b : Bool) (r : Raised) : (c.raiseIf b r).ctrl = c.ctrl := by unfold Chan.raiseIf; split <;> rfl
@[simp] theorem Chan.raiseIf_fab (c : Chan) (b : Bool) (r : Raised) : (c.raiseIf b r).fab = c.fab := by unfold Chan.raiseIf; split <;> rfl
@[simp] theorem Chan.raiseIf_mem (c : Chan) (b : Bool) (r : Raised) : (c.raiseIf b r).mem = c.mem := by unfold Chan.raiseIf; split <;> rfl
@[simp] theorem Chan.raiseIf_col (c : Chan) (b : Bool) (r : Raised) : (c.raiseIf b r).col = c.col := by unfold Chan.raiseIf; split <;> rfl
@[simp] theorem Chan.raiseIf_codec (c : Chan) (b : Bool) (r : Raised) : (c.raiseIf b r).codec = c.codec := by unfold Chan.raiseIf; split <;> rfl
@[simp] theorem Chan.raiseIf_mtx (c : Chan) (b : Bool) (r : Raised) : (c.raiseIf b r).mtx = c.mtx := by unfold Chan.raiseIf; split <;> rfl
@[simp] theorem Chan.raiseIf_sch (c : Chan) (b : Bool) (r : Raised) : (c.raiseIf b r).sch = c.sch := by unfold Chan.raiseIf; split <;> rfl
@[simp] theorem Chan.raiseIf_line (c : Chan) (b : Bool) (r : Raised) : (c.raiseIf b r).line = c.line := by unfold Chan.raiseIf; split <;> rfl
@[simp] theorem Chan.raiseIf_opt (c : Chan) (b : Bool) (r : Raised) : (c.raiseIf b r).opt = c.opt := by unfold Chan.raiseIf; split <;> rfl
@[simp] theorem Chan.raiseIf_sec (c : Chan) (b : Bool) (r : Raised) : (c.raiseIf b r).sec = c.sec := by unfold Chan.raiseIf; split <;> rfl
@[simp] theorem Chan.raiseIf_prov (c : Chan) (b : Bool) (r : Raised) : (c.raiseIf b r).prov = c.prov := by unfold Chan.raiseIf; split <;> rfl
@[simp] theorem Chan.raiseIf_time (c : Chan) (b : Bool) (r : Raised) : (c.raiseIf b r).time = c.time := by unfold Chan.raiseIf; split <;> rfl
@[simp] theorem Chan.raiseIf_hlth (c : Chan) (b : Bool) (r : Raised) : (c.raiseIf b r).hlth = c.hlth := by unfold Chan.raiseIf; split <;> rfl
@[simp] theorem Chan.raiseIf_part (c : Chan) (b : Bool) (r : Raised) : (c.raiseIf b r).part = c.part := by unfold Chan.raiseIf; split <;> rfl

/-! ### `Chan.viol` -/

@[simp] theorem Chan.viol_regs (c : Chan) (v : Viol) : (c.viol v).regs = c.regs := by unfold Chan.viol; dsimp only; split <;> rfl
@[simp] theorem Chan.viol_us (c : Chan) (v : Viol) : (c.viol v).us = c.us := by unfold Chan.viol; dsimp only; split <;> rfl
@[simp] theorem Chan.viol_ms (c : Chan) (v : Viol) : (c.viol v).ms = c.ms := by unfold Chan.viol; dsimp only; split <;> rfl
@[simp] theorem Chan.viol_crystal (c : Chan) (v : Viol) : (c.viol v).crystal = c.crystal := by unfold Chan.viol; dsimp only; split <;> rfl
@[simp] theorem Chan.viol_oldEvr (c : Chan) (v : Viol) : (c.viol v).oldEvr = c.oldEvr := by unfold Chan.viol; dsimp only; split <;> rfl
@[simp] theorem Chan.viol_hubLost (c : Chan) (v : Viol) : (c.viol v).hubLost = c.hubLost := by unfold Chan.viol; dsimp only; split <;> rfl
@[simp] theorem Chan.viol_cfg (c : Chan) (v : Viol) : (c.viol v).cfg = c.cfg := by unfold Chan.viol; dsimp only; split <;> rfl
@[simp] theorem Chan.viol_boot (c : Chan) (v : Viol) : (c.viol v).boot = c.boot := by unfold Chan.viol; dsimp only; split <;> rfl
@[simp] theorem Chan.viol_ctrl (c : Chan) (v : Viol) : (c.viol v).ctrl = c.ctrl := by unfold Chan.viol; dsimp only; split <;> rfl
@[simp] theorem Chan.viol_fab (c : Chan) (v : Viol) : (c.viol v).fab = c.fab := by unfold Chan.viol; dsimp only; split <;> rfl
@[simp] theorem Chan.viol_mem (c : Chan) (v : Viol) : (c.viol v).mem = c.mem := by unfold Chan.viol; dsimp only; split <;> rfl
@[simp] theorem Chan.viol_col (c : Chan) (v : Viol) : (c.viol v).col = c.col := by unfold Chan.viol; dsimp only; split <;> rfl
@[simp] theorem Chan.viol_codec (c : Chan) (v : Viol) : (c.viol v).codec = c.codec := by unfold Chan.viol; dsimp only; split <;> rfl
@[simp] theorem Chan.viol_mtx (c : Chan) (v : Viol) : (c.viol v).mtx = c.mtx := by unfold Chan.viol; dsimp only; split <;> rfl
@[simp] theorem Chan.viol_sch (c : Chan) (v : Viol) : (c.viol v).sch = c.sch := by unfold Chan.viol; dsimp only; split <;> rfl
@[simp] theorem Chan.viol_line (c : Chan) (v : Viol) : (c.viol v).line = c.line := by unfold Chan.viol; dsimp only; split <;> rfl
@[simp] theorem Chan.viol_opt (c : Chan) (v : Viol) : (c.viol v).opt = c.opt := by unfold Chan.viol; dsimp only; split <;> rfl
@[simp] theorem Chan.viol_sec (c : Chan) (v : Viol) : (c.viol v).sec = c.sec := by unfold Chan.viol; dsimp only; split <;> rfl
@[simp] theorem Chan.viol_prov (c : Chan) (v : Viol) : (c.viol v).prov = c.prov := by unfold Chan.viol; dsimp only; split <;> rfl
@[simp] theorem Chan.viol_time (c : Chan) (v : Viol) : (c.viol v).time = c.time := by unfold Chan.viol; dsimp only; split <;> rfl
@[simp] theorem Chan.viol_hlth (c : Chan) (v : Viol) : (c.viol v).hlth = c.hlth := by unfold Chan.viol; dsimp only; split <;> rfl
@[simp] theorem Chan.viol_part (c : Chan) (v : Viol) : (c.viol v).part = c.part := by unfold Chan.viol; dsimp only; split <;> rfl
@[simp] theorem Chan.viol_evr (c : Chan) (v : Viol) : (c.viol v).evr = c.evr := by unfold Chan.viol; dsimp only; split <;> rfl

/-! ### `Chan.arm` -/

@[simp] theorem Chan.arm_us (c : Chan) (j : Nat) (t : Instant) : (c.arm j t).us = c.us := by unfold Chan.arm; dsimp only; split <;> simp
@[simp] theorem Chan.arm_ms (c : Chan) (j : Nat) (t : Instant) : (c.arm j t).ms = c.ms := by unfold Chan.arm; dsimp only; split <;> simp
@[simp] theorem Chan.arm_crystal (c : Chan) (j : Nat) (t : Instant) : (c.arm j t).crystal = c.crystal := by unfold Chan.arm; dsimp only; split <;> simp
@[simp] theorem Chan.arm_oldEvr (c : Chan) (j : Nat) (t : Instant) : (c.arm j t).oldEvr = c.oldEvr := by unfold Chan.arm; dsimp only; split <;> simp
@[simp] theorem Chan.arm_hubLost (c : Chan) (j : Nat) (t : Instant) : (c.arm j t).hubLost = c.hubLost := by unfold Chan.arm; dsimp only; split <;> simp
@[simp] theorem Chan.arm_viols (c : Chan) (j : Nat) (t : Instant) : (c.arm j t).viols = c.viols := by unfold Chan.arm; dsimp only; split <;> simp
@[simp] theorem Chan.arm_violLost (c : Chan) (j : Nat) (t : Instant) : (c.arm j t).violLost = c.violLost := by unfold Chan.arm; dsimp only; split <;> simp
@[simp] theorem Chan.arm_errs (c : Chan) (j : Nat) (t : Instant) : (c.arm j t).errs = c.errs := by unfold Chan.arm; dsimp only; split <;> simp
@[simp] theorem Chan.arm_cfg (c : Chan) (j : Nat) (t : Instant) : (c.arm j t).cfg = c.cfg := by unfold Chan.arm; dsimp only; split <;> simp
@[simp] theorem Chan.arm_boot (c : Chan) (j : Nat) (t : Instant) : (c.arm j t).boot = c.boot := by unfold Chan.arm; dsimp only; split <;> simp
@[simp] theorem Chan.arm_ctrl (c : Chan) (j : Nat) (t : Instant) : (c.arm j t).ctrl = c.ctrl := by unfold Chan.arm; dsimp only; split <;> simp
@[simp] theorem Chan.arm_fab (c : Chan) (j : Nat) (t : Instant) : (c.arm j t).fab = c.fab := by unfold Chan.arm; dsimp only; split <;> simp
@[simp] theorem Chan.arm_mem (c : Chan) (j : Nat) (t : Instant) : (c.arm j t).mem = c.mem := by unfold Chan.arm; dsimp only; split <;> simp
@[simp] theorem Chan.arm_col (c : Chan) (j : Nat) (t : Instant) : (c.arm j t).col = c.col := by unfold Chan.arm; dsimp only; split <;> simp
@[simp] theorem Chan.arm_codec (c : Chan) (j : Nat) (t : Instant) : (c.arm j t).codec = c.codec := by unfold Chan.arm; dsimp only; split <;> simp
@[simp] theorem Chan.arm_mtx (c : Chan) (j : Nat) (t : Instant) : (c.arm j t).mtx = c.mtx := by unfold Chan.arm; dsimp only; split <;> simp
@[simp] theorem Chan.arm_sch (c : Chan) (j : Nat) (t : Instant) : (c.arm j t).sch = c.sch := by unfold Chan.arm; dsimp only; split <;> simp
@[simp] theorem Chan.arm_line (c : Chan) (j : Nat) (t : Instant) : (c.arm j t).line = c.line := by unfold Chan.arm; dsimp only; split <;> simp
@[simp] theorem Chan.arm_opt (c : Chan) (j : Nat) (t : Instant) : (c.arm j t).opt = c.opt := by unfold Chan.arm; dsimp only; split <;> simp
@[simp] theorem Chan.arm_sec (c : Chan) (j : Nat) (t : Instant) : (c.arm j t).sec = c.sec := by unfold Chan.arm; dsimp only; split <;> simp
@[simp] theorem Chan.arm_prov (c : Chan) (j : Nat) (t : Instant) : (c.arm j t).prov = c.prov := by unfold Chan.arm; dsimp only; split <;> simp
@[simp] theorem Chan.arm_hlth (c : Chan) (j : Nat) (t : Instant) : (c.arm j t).hlth = c.hlth := by unfold Chan.arm; dsimp only; split <;> simp
@[simp] theorem Chan.arm_part (c : Chan) (j : Nat) (t : Instant) : (c.arm j t).part = c.part := by unfold Chan.arm; dsimp only; split <;> simp

/-! ### `Hub.setReg` -/

@[simp] theorem Hub.setReg_us (h : Hub) (o : Nat) (w : Word) : (h.setReg o w).us = h.us := rfl
@[simp] theorem Hub.setReg_ms (h : Hub) (o : Nat) (w : Word) : (h.setReg o w).ms = h.ms := rfl
@[simp] theorem Hub.setReg_failed (h : Hub) (o : Nat) (w : Word) : (h.setReg o w).failed = h.failed := rfl
@[simp] theorem Hub.setReg_caps (h : Hub) (o : Nat) (w : Word) : (h.setReg o w).caps = h.caps := rfl
@[simp] theorem Hub.setReg_host (h : Hub) (o : Nat) (w : Word) : (h.setReg o w).host = h.host := rfl
@[simp] theorem Hub.setReg_pwr (h : Hub) (o : Nat) (w : Word) : (h.setReg o w).pwr = h.pwr := rfl
@[simp] theorem Hub.setReg_boot (h : Hub) (o : Nat) (w : Word) : (h.setReg o w).boot = h.boot := rfl
@[simp] theorem Hub.setReg_spdm (h : Hub) (o : Nat) (w : Word) : (h.setReg o w).spdm = h.spdm := rfl
@[simp] theorem Hub.setReg_gtime (h : Hub) (o : Nat) (w : Word) : (h.setReg o w).gtime = h.gtime := rfl
@[simp] theorem Hub.setReg_evr (h : Hub) (o : Nat) (w : Word) : (h.setReg o w).evr = h.evr := rfl
@[simp] theorem Hub.setReg_areas (h : Hub) (o : Nat) (w : Word) : (h.setReg o w).areas = h.areas := rfl
@[simp] theorem Hub.setReg_sealQ (h : Hub) (o : Nat) (w : Word) : (h.setReg o w).sealQ = h.sealQ := rfl
@[simp] theorem Hub.setReg_sealing (h : Hub) (o : Nat) (w : Word) : (h.setReg o w).sealing = h.sealing := rfl

/-! ### `Hub.raise` -/

@[simp] theorem Hub.raise_regs (h : Hub) (r : Raised) : (h.raise r).regs = h.regs := rfl
@[simp] theorem Hub.raise_us (h : Hub) (r : Raised) : (h.raise r).us = h.us := rfl
@[simp] theorem Hub.raise_ms (h : Hub) (r : Raised) : (h.raise r).ms = h.ms := rfl
@[simp] theorem Hub.raise_failed (h : Hub) (r : Raised) : (h.raise r).failed = h.failed := rfl
@[simp] theorem Hub.raise_caps (h : Hub) (r : Raised) : (h.raise r).caps = h.caps := rfl
@[simp] theorem Hub.raise_host (h : Hub) (r : Raised) : (h.raise r).host = h.host := rfl
@[simp] theorem Hub.raise_pwr (h : Hub) (r : Raised) : (h.raise r).pwr = h.pwr := rfl
@[simp] theorem Hub.raise_boot (h : Hub) (r : Raised) : (h.raise r).boot = h.boot := rfl
@[simp] theorem Hub.raise_spdm (h : Hub) (r : Raised) : (h.raise r).spdm = h.spdm := rfl
@[simp] theorem Hub.raise_gtime (h : Hub) (r : Raised) : (h.raise r).gtime = h.gtime := rfl
@[simp] theorem Hub.raise_evr (h : Hub) (r : Raised) : (h.raise r).evr = { h.evr with input := h.evr.input ++ [r] } := rfl
@[simp] theorem Hub.raise_areas (h : Hub) (r : Raised) : (h.raise r).areas = h.areas := rfl
@[simp] theorem Hub.raise_sealQ (h : Hub) (r : Raised) : (h.raise r).sealQ = h.sealQ := rfl
@[simp] theorem Hub.raise_sealing (h : Hub) (r : Raised) : (h.raise r).sealing = h.sealing := rfl

/-! ### `Hub.modHost` -/

@[simp] theorem Hub.modHost_regs (h : Hub) (f : HostPort → HostPort) : (h.modHost f).regs = h.regs := rfl
@[simp] theorem Hub.modHost_us (h : Hub) (f : HostPort → HostPort) : (h.modHost f).us = h.us := rfl
@[simp] theorem Hub.modHost_ms (h : Hub) (f : HostPort → HostPort) : (h.modHost f).ms = h.ms := rfl
@[simp] theorem Hub.modHost_failed (h : Hub) (f : HostPort → HostPort) : (h.modHost f).failed = h.failed := rfl
@[simp] theorem Hub.modHost_caps (h : Hub) (f : HostPort → HostPort) : (h.modHost f).caps = h.caps := rfl
@[simp] theorem Hub.modHost_host (h : Hub) (f : HostPort → HostPort) : (h.modHost f).host = f h.host := rfl
@[simp] theorem Hub.modHost_pwr (h : Hub) (f : HostPort → HostPort) : (h.modHost f).pwr = h.pwr := rfl
@[simp] theorem Hub.modHost_boot (h : Hub) (f : HostPort → HostPort) : (h.modHost f).boot = h.boot := rfl
@[simp] theorem Hub.modHost_spdm (h : Hub) (f : HostPort → HostPort) : (h.modHost f).spdm = h.spdm := rfl
@[simp] theorem Hub.modHost_gtime (h : Hub) (f : HostPort → HostPort) : (h.modHost f).gtime = h.gtime := rfl
@[simp] theorem Hub.modHost_evr (h : Hub) (f : HostPort → HostPort) : (h.modHost f).evr = h.evr := rfl
@[simp] theorem Hub.modHost_areas (h : Hub) (f : HostPort → HostPort) : (h.modHost f).areas = h.areas := rfl
@[simp] theorem Hub.modHost_sealQ (h : Hub) (f : HostPort → HostPort) : (h.modHost f).sealQ = h.sealQ := rfl
@[simp] theorem Hub.modHost_sealing (h : Hub) (f : HostPort → HostPort) : (h.modHost f).sealing = h.sealing := rfl

/-! ### `Hub.modPwr` -/

@[simp] theorem Hub.modPwr_regs (h : Hub) (f : Power → Power) : (h.modPwr f).regs = h.regs := rfl
@[simp] theorem Hub.modPwr_us (h : Hub) (f : Power → Power) : (h.modPwr f).us = h.us := rfl
@[simp] theorem Hub.modPwr_ms (h : Hub) (f : Power → Power) : (h.modPwr f).ms = h.ms := rfl
@[simp] theorem Hub.modPwr_failed (h : Hub) (f : Power → Power) : (h.modPwr f).failed = h.failed := rfl
@[simp] theorem Hub.modPwr_caps (h : Hub) (f : Power → Power) : (h.modPwr f).caps = h.caps := rfl
@[simp] theorem Hub.modPwr_host (h : Hub) (f : Power → Power) : (h.modPwr f).host = h.host := rfl
@[simp] theorem Hub.modPwr_pwr (h : Hub) (f : Power → Power) : (h.modPwr f).pwr = f h.pwr := rfl
@[simp] theorem Hub.modPwr_boot (h : Hub) (f : Power → Power) : (h.modPwr f).boot = h.boot := rfl
@[simp] theorem Hub.modPwr_spdm (h : Hub) (f : Power → Power) : (h.modPwr f).spdm = h.spdm := rfl
@[simp] theorem Hub.modPwr_gtime (h : Hub) (f : Power → Power) : (h.modPwr f).gtime = h.gtime := rfl
@[simp] theorem Hub.modPwr_evr (h : Hub) (f : Power → Power) : (h.modPwr f).evr = h.evr := rfl
@[simp] theorem Hub.modPwr_areas (h : Hub) (f : Power → Power) : (h.modPwr f).areas = h.areas := rfl
@[simp] theorem Hub.modPwr_sealQ (h : Hub) (f : Power → Power) : (h.modPwr f).sealQ = h.sealQ := rfl
@[simp] theorem Hub.modPwr_sealing (h : Hub) (f : Power → Power) : (h.modPwr f).sealing = h.sealing := rfl

/-! ### `Hub.modBoot` -/

@[simp] theorem Hub.modBoot_regs (h : Hub) (f : HubBoot → HubBoot) : (h.modBoot f).regs = h.regs := rfl
@[simp] theorem Hub.modBoot_us (h : Hub) (f : HubBoot → HubBoot) : (h.modBoot f).us = h.us := rfl
@[simp] theorem Hub.modBoot_ms (h : Hub) (f : HubBoot → HubBoot) : (h.modBoot f).ms = h.ms := rfl
@[simp] theorem Hub.modBoot_failed (h : Hub) (f : HubBoot → HubBoot) : (h.modBoot f).failed = h.failed := rfl
@[simp] theorem Hub.modBoot_caps (h : Hub) (f : HubBoot → HubBoot) : (h.modBoot f).caps = h.caps := rfl
@[simp] theorem Hub.modBoot_host (h : Hub) (f : HubBoot → HubBoot) : (h.modBoot f).host = h.host := rfl
@[simp] theorem Hub.modBoot_pwr (h : Hub) (f : HubBoot → HubBoot) : (h.modBoot f).pwr = h.pwr := rfl
@[simp] theorem Hub.modBoot_boot (h : Hub) (f : HubBoot → HubBoot) : (h.modBoot f).boot = f h.boot := rfl
@[simp] theorem Hub.modBoot_spdm (h : Hub) (f : HubBoot → HubBoot) : (h.modBoot f).spdm = h.spdm := rfl
@[simp] theorem Hub.modBoot_gtime (h : Hub) (f : HubBoot → HubBoot) : (h.modBoot f).gtime = h.gtime := rfl
@[simp] theorem Hub.modBoot_evr (h : Hub) (f : HubBoot → HubBoot) : (h.modBoot f).evr = h.evr := rfl
@[simp] theorem Hub.modBoot_areas (h : Hub) (f : HubBoot → HubBoot) : (h.modBoot f).areas = h.areas := rfl
@[simp] theorem Hub.modBoot_sealQ (h : Hub) (f : HubBoot → HubBoot) : (h.modBoot f).sealQ = h.sealQ := rfl
@[simp] theorem Hub.modBoot_sealing (h : Hub) (f : HubBoot → HubBoot) : (h.modBoot f).sealing = h.sealing := rfl

/-! ### `Hub.modG` -/

@[simp] theorem Hub.modG_regs (h : Hub) (f : GTime → GTime) : (h.modG f).regs = h.regs := rfl
@[simp] theorem Hub.modG_us (h : Hub) (f : GTime → GTime) : (h.modG f).us = h.us := rfl
@[simp] theorem Hub.modG_ms (h : Hub) (f : GTime → GTime) : (h.modG f).ms = h.ms := rfl
@[simp] theorem Hub.modG_failed (h : Hub) (f : GTime → GTime) : (h.modG f).failed = h.failed := rfl
@[simp] theorem Hub.modG_caps (h : Hub) (f : GTime → GTime) : (h.modG f).caps = h.caps := rfl
@[simp] theorem Hub.modG_host (h : Hub) (f : GTime → GTime) : (h.modG f).host = h.host := rfl
@[simp] theorem Hub.modG_pwr (h : Hub) (f : GTime → GTime) : (h.modG f).pwr = h.pwr := rfl
@[simp] theorem Hub.modG_boot (h : Hub) (f : GTime → GTime) : (h.modG f).boot = h.boot := rfl
@[simp] theorem Hub.modG_spdm (h : Hub) (f : GTime → GTime) : (h.modG f).spdm = h.spdm := rfl
@[simp] theorem Hub.modG_gtime (h : Hub) (f : GTime → GTime) : (h.modG f).gtime = f h.gtime := rfl
@[simp] theorem Hub.modG_evr (h : Hub) (f : GTime → GTime) : (h.modG f).evr = h.evr := rfl
@[simp] theorem Hub.modG_areas (h : Hub) (f : GTime → GTime) : (h.modG f).areas = h.areas := rfl
@[simp] theorem Hub.modG_sealQ (h : Hub) (f : GTime → GTime) : (h.modG f).sealQ = h.sealQ := rfl
@[simp] theorem Hub.modG_sealing (h : Hub) (f : GTime → GTime) : (h.modG f).sealing = h.sealing := rfl

/-! ### `Hub.count` -/

@[simp] theorem Hub.count_us (h : Hub) (o n : Nat) : (h.count o n).us = h.us := by unfold Hub.count; split <;> rfl
@[simp] theorem Hub.count_ms (h : Hub) (o n : Nat) : (h.count o n).ms = h.ms := by unfold Hub.count; split <;> rfl
@[simp] theorem Hub.count_failed (h : Hub) (o n : Nat) : (h.count o n).failed = h.failed := by unfold Hub.count; split <;> rfl
@[simp] theorem Hub.count_caps (h : Hub) (o n : Nat) : (h.count o n).caps = h.caps := by unfold Hub.count; split <;> rfl
@[simp] theorem Hub.count_host (h : Hub) (o n : Nat) : (h.count o n).host = h.host := by unfold Hub.count; split <;> rfl
@[simp] theorem Hub.count_pwr (h : Hub) (o n : Nat) : (h.count o n).pwr = h.pwr := by unfold Hub.count; split <;> rfl
@[simp] theorem Hub.count_boot (h : Hub) (o n : Nat) : (h.count o n).boot = h.boot := by unfold Hub.count; split <;> rfl
@[simp] theorem Hub.count_spdm (h : Hub) (o n : Nat) : (h.count o n).spdm = h.spdm := by unfold Hub.count; split <;> rfl
@[simp] theorem Hub.count_gtime (h : Hub) (o n : Nat) : (h.count o n).gtime = h.gtime := by unfold Hub.count; split <;> rfl
@[simp] theorem Hub.count_evr (h : Hub) (o n : Nat) : (h.count o n).evr = h.evr := by unfold Hub.count; split <;> rfl
@[simp] theorem Hub.count_areas (h : Hub) (o n : Nat) : (h.count o n).areas = h.areas := by unfold Hub.count; split <;> rfl
@[simp] theorem Hub.count_sealQ (h : Hub) (o n : Nat) : (h.count o n).sealQ = h.sealQ := by unfold Hub.count; split <;> rfl
@[simp] theorem Hub.count_sealing (h : Hub) (o n : Nat) : (h.count o n).sealing = h.sealing := by unfold Hub.count; split <;> rfl

end Sys2Proof.Machine
end

