-- ==== Sys2Proof/Laws/Ops.lean ====
section
/-! SUPPORT. What the shared operations do, each said once: a command to a channel, a register and a counter, an event, a keyed write in a window, a buffer taken, a memory write. -/

namespace Sys2Proof.Machine

open Sys2Proof

/-! ### A command to a channel -/

theorem onChan_present (n : Fin 8) (f : Chan → Chan) (s : State) (h : s.present n = true) :
    onChan n f s = s.setChan n (f (s.chan n)) := by simp [onChan, h]

theorem onChan_absent (n : Fin 8) (f : Chan → Chan) (s : State) (h : s.present n = false) : onChan n f s = s := by simp [onChan, h]

@[simp] theorem onChan_hub (n : Fin 8) (f : Chan → Chan) (s : State) : (onChan n f s).hub = s.hub := by unfold onChan; split <;> rfl
@[simp] theorem onChan_pending (n : Fin 8) (f : Chan → Chan) (s : State) : (onChan n f s).pending = s.pending := by
  unfold onChan; split <;> rfl
@[simp] theorem onChan_free (n : Fin 8) (f : Chan → Chan) (s : State) : (onChan n f s).free = s.free := by unfold onChan; split <;> rfl
theorem onChan_other (n m : Fin 8) (f : Chan → Chan) (s : State) (h : m ≠ n) : (onChan n f s).chan m = s.chan m := by
  unfold onChan; split
  · exact State.setChan_other s n m _ h
  · rfl

theorem onChanFree_present (n : Fin 8) (k : Nat) (f : Nat → Chan → Chan) (s : State) (h : s.present n = true) :
    onChanFree n k f s = { s.setChan n (f s.free (s.chan n)) with free := s.free + k } := by simp [onChanFree, h]
@[simp] theorem onChanFree_hub (n : Fin 8) (k : Nat) (f : Nat → Chan → Chan) (s : State) : (onChanFree n k f s).hub = s.hub := by
  unfold onChanFree; split <;> rfl
@[simp] theorem onChanFree_pending (n : Fin 8) (k : Nat) (f : Nat → Chan → Chan) (s : State) :
    (onChanFree n k f s).pending = s.pending := by unfold onChanFree; split <;> rfl
theorem onChanFree_other (n m : Fin 8) (k : Nat) (f : Nat → Chan → Chan) (s : State) (h : m ≠ n) :
    (onChanFree n k f s).chan m = s.chan m := by
  unfold onChanFree; split
  · exact State.setChan_other s n m _ h
  · rfl

theorem onPath_present (n : Fin 8) (f : Chan → Chan) (s : State) (h : s.present n = true) (p : (s.chan n).inPath = true) :
    onPath n f s = s.setChan n (f (s.chan n)) := by simp [onPath, onChan, h, p]
theorem onLive_present (n : Fin 8) (f : Chan → Chan) (s : State) (h : s.present n = true) (p : (s.chan n).live = true) :
    onLive n f s = s.setChan n (f (s.chan n)) := by simp [onLive, onChan, h, p]
@[simp] theorem onPath_hub (n : Fin 8) (f : Chan → Chan) (s : State) : (onPath n f s).hub = s.hub := onChan_hub ..
@[simp] theorem onLive_hub (n : Fin 8) (f : Chan → Chan) (s : State) : (onLive n f s).hub = s.hub := onChan_hub ..
@[simp] theorem onPath_pending (n : Fin 8) (f : Chan → Chan) (s : State) : (onPath n f s).pending = s.pending := onChan_pending ..
@[simp] theorem onLive_pending (n : Fin 8) (f : Chan → Chan) (s : State) : (onLive n f s).pending = s.pending := onChan_pending ..
theorem onPath_other (n m : Fin 8) (f : Chan → Chan) (s : State) (h : m ≠ n) : (onPath n f s).chan m = s.chan m := onChan_other _ _ _ _ h
theorem onLive_other (n m : Fin 8) (f : Chan → Chan) (s : State) (h : m ≠ n) : (onLive n f s).chan m = s.chan m := onChan_other _ _ _ _ h
@[simp] theorem onPathFree_hub (n : Fin 8) (k : Nat) (f : Nat → Chan → Chan) (s : State) : (onPathFree n k f s).hub = s.hub :=
  onChanFree_hub ..
@[simp] theorem onLiveFree_hub (n : Fin 8) (k : Nat) (f : Nat → Chan → Chan) (s : State) : (onLiveFree n k f s).hub = s.hub :=
  onChanFree_hub ..
theorem onPathFree_other (n m : Fin 8) (k : Nat) (f : Nat → Chan → Chan) (s : State) (h : m ≠ n) :
    (onPathFree n k f s).chan m = s.chan m := onChanFree_other _ _ _ _ _ h
theorem onLiveFree_other (n m : Fin 8) (k : Nat) (f : Nat → Chan → Chan) (s : State) (h : m ≠ n) :
    (onLiveFree n k f s).chan m = s.chan m := onChanFree_other _ _ _ _ _ h

/-! ### Registers and counters -/

/-- A register reads as it was last stored, and every other register as before. -/
theorem Chan.reg_setReg (c : Chan) (o a : Nat) (w : Word) : (c.setReg o w).reg a = if a = o then w else c.reg a := by
  unfold Chan.reg Chan.setReg
  by_cases h : a = o
  · subst h; by_cases hw : w = chanReset a
    · simp [hw, cget_cdel_same]
    · simp [hw, cget_cput_same]
  · by_cases hw : w = chanReset o
    · simp [hw, h, cget_cdel_other]
    · simp [hw, h, cget_cput_other]

theorem Hub.reg_setReg (x : Hub) (o a : Nat) (w : Word) : (x.setReg o w).reg a = if a = o then w else x.reg a := by
  unfold Hub.reg Hub.setReg
  by_cases h : a = o
  · subst h; by_cases hw : w = hubReset a
    · simp [hw, cget_cdel_same]
    · simp [hw, cget_cput_same]
  · by_cases hw : w = hubReset o
    · simp [hw, h, cget_cdel_other]
    · simp [hw, h, cget_cput_other]

theorem satAdd_zero (w : Word) : satAdd w 0 = w := by
  apply BitVec.eq_of_toNat_eq
  have := w.isLt
  simp [satAdd]; omega

/-- A counter is raised by `n`, stopping at 0xFFFF_FFFF; every other register is as before. -/
theorem Chan.reg_count (c : Chan) (o n a : Nat) : (c.count o n).reg a = if a = o then satAdd (c.reg o) n else c.reg a := by
  unfold Chan.count
  split
  · rename_i h; subst h; split
    · rename_i h; subst h; simp [satAdd_zero]
    · rfl
  · exact Chan.reg_setReg ..

theorem Hub.reg_count (x : Hub) (o n a : Nat) : (x.count o n).reg a = if a = o then satAdd (x.reg o) n else x.reg a := by
  unfold Hub.count
  split
  · rename_i h; subst h; split
    · rename_i h; subst h; simp [satAdd_zero]
    · rfl
  · exact Hub.reg_setReg ..

/-! ### A keyed write in a channel's window (R7, R101) -/

/-- In a window that is there, the write reaches its channel and nothing else, unless the channel is in reset. -/
theorem onWindow_there (n : Fin 8) (o : Nat) (f : Chan → Chan) (s : State) (h : s.hasWindow n = true) :
    onWindow n o f s = if (s.chan n).boot.phase = 0 then s else s.setChan n (f (s.chan n)) := by simp [onWindow, h]

/-- In the window of an absent channel it is refused where the host can reach the port, and nothing of any channel changes. -/
theorem onWindow_absent (n : Fin 8) (o : Nat) (f : Chan → Chan) (s : State) (h : s.hasWindow n = false) :
    onWindow n o f s = if s.masterUp .host then s.regViol .host .absentUnit n (0x2000000 * n + o) else s := by simp [onWindow, h]

theorem onWindow_other (n m : Fin 8) (o : Nat) (f : Chan → Chan) (s : State) (h : m ≠ n) : (onWindow n o f s).chan m = s.chan m := by
  unfold onWindow
  split
  · split
    · rfl
    · exact State.setChan_other s n m _ h
  · split <;> rfl

@[simp] theorem onWindow_pending (n : Fin 8) (o : Nat) (f : Chan → Chan) (s : State) : (onWindow n o f s).pending = s.pending := by
  unfold onWindow
  split <;> split <;> rfl
@[simp] theorem onWindow_free (n : Fin 8) (o : Nat) (f : Chan → Chan) (s : State) : (onWindow n o f s).free = s.free := by
  unfold onWindow
  split <;> split <;> rfl

/-! ### Buffers (R111–R114, R623) -/

/-- What an allocation does: it takes the lowest free buffer of the size's pool where the share may be served, and is charged to it; or it
takes none and counts a failure, or, for a size that no pool holds, does nothing. -/
theorem Chan.alloc_cases (c : Chan) (sh : Share) (n : Nat) (w : Option Waiter) :
    (poolFor n = none ∧ c.alloc sh n w = (none, c))
    ∨ ∃ p, poolFor n = some p ∧
      ((c.canServe p sh w = true ∧ firstGap (c.pool p).bufs 0 < poolBufs p ∧
          c.alloc sh n w = (some ⟨p, firstGap (c.pool p).bufs 0⟩,
            c.setPool p { (c.pool p) with bufs := cput (c.pool p).bufs (firstGap (c.pool p).bufs 0) sh }))
        ∨ c.alloc sh n w = (none, c.count (0x200040 + 4 * p))) := by
  unfold Chan.alloc
  cases hp : poolFor n with
  | none => exact .inl ⟨rfl, rfl⟩
  | some p =>
    refine .inr ⟨p, rfl, ?_⟩
    by_cases h : (c.canServe p sh w && decide (firstGap (c.pool p).bufs 0 < poolBufs p)) = true
    · obtain ⟨a, b⟩ := Bool.and_eq_true_iff.1 h
      exact .inl ⟨a, of_decide_eq_true b, if_pos h⟩
    · exact .inr (if_neg h)

/-- An allocation leaves the line, the keys, the jobs and the tables as they were. -/
theorem Chan.alloc_frame (c : Chan) (sh : Share) (n : Nat) (w : Option Waiter) :
    let d := (c.alloc sh n w).2
    d.line = c.line ∧ d.sec = c.sec ∧ d.ctrl = c.ctrl ∧ d.fab = c.fab ∧ d.col = c.col ∧ d.sch = c.sch ∧ d.codec = c.codec ∧ d.evr = c.evr := by
  rcases c.alloc_cases sh n w with ⟨-, h⟩ | ⟨p, -, ⟨-, -, h⟩ | h⟩ <;> rw [h] <;> simp [Chan.setPool]

/-! ### Memory -/

/-- A byte reads as it was last written, and every other byte as before. -/
theorem Memory.read_write (m : Cells Byte) (a x : Nat) (b : Byte) : Memory.read (Memory.write m a b) x = if x = a then b else Memory.read m x :=
  cget_cset ..

/-- Every write keeps the canonical form. -/
theorem Memory.wf_write (m : Cells Byte) (a : Nat) (b : Byte) (h : Memory.wf m = true) : Memory.wf (Memory.write m a b) = true :=
  cwf_cset _ _ _ _ h

/-- The memory of every channel has the canonical form at reset. -/
theorem Memory.wf_reset (n : Fin 8) : Memory.wf (State.reset.chan n).mem.region7 = true := by
  simp [State.chan, State.reset, Memory.wf, cwf]

end Sys2Proof.Machine
end

