-- ==== Sys2Proof/WellFormed.lean ====
section
/-! DEFINITION. Which commands can arrive at the interfaces they name: operands of the sizes that the spec's layouts give. A meaning is
total and needs none of this; statements about what the outside can send may assume it. -/

namespace Sys2Proof

/-- A packet carries LENGTH bytes (R77). -/
def Packet.wf (p : Packet) : Bool := decide (p.payload.length = p.length.toNat)

/-- A flit has 240 bytes of payload (R71). -/
def Flit.wf (f : Flit) : Bool := decide (f.payload.length = 240)

/-- A register access lies in its BAR; BOOT_REL has a row of its own; a channel's firmware reaches its own window only (R18, R25,
R547, R552). -/
def accessWf (m : Master) (b : Bar) (off : Nat) : Bool :=
  (match b with | .bar0 => decide (off < 0x1000000) && decide (off ≠ 0x14) | .bar2 => true)
    && (match m with | .chFw n => decide (n < 8) && decide (b = .bar2) && decide (off / 0x2000000 = n) | _ => true)

/-- A device-side mailbox party that exists (R564). -/
def Party.wf : Party → Bool
  | .none => false
  | .hubFw => true
  | .chFw n => decide (n < 8)
  | .sequencer n => decide (n < 8)

/-- Units that the health monitor fences, by class (R497). -/
def fencedClassUnit (cls u : Nat) : Bool := (decide (cls ≤ 4) && decide (u < 17)) || (decide (cls = 5) && decide (u < 2))

/-- Certificates of a hello, with their 2-byte lengths, fit the 8,192 bytes of a message (R387). -/
def HelloBody.certsFit (b : HelloBody) : Bool :=
  decide (b.device.der.length + b.inter.der.length + (b.owner.elim 0 fun x => x.der.length) ≤ 8192)

/-- The operands of a command fit the layouts of the spec. -/
def Instr.wf : Instr → Bool
  | .registerWrite m b off _ _ => accessWf m b off.toNat
  | .flitReceive _ _ f => f.wf
  | .packetReceive _ _ p => p.wf
  | .nackReceive _ p => p.wf
  | .retrainAttemptEnd _ _ _ _ _ g => decide (g.length = 4)
  | .tableWrite _ _ b => decide (b.entries.length ≤ 8176)
  | .kaHelloA _ b => b.certsFit
  | .kaHelloB _ b => b.certsFit
  | .sigHead _ _ bs => decide (bs.length = 126)
  | .margin _ _ ms => decide (ms.length = 36)
  | .ts _ _ b => decide (b.entries.length = b.count.toNat)
  | .targetedSelftestDone _ cls u _ => fencedClassUnit cls u
  | .heldUnitRetry _ cls u => fencedClassUnit cls u
  | .fenceRetest _ cls u _ => fencedClassUnit cls u
  | .sentinelSample _ _ _ _ _ _ occ => decide (occ ≤ 16)
  | .hostLinkTrain _ width rate _ _ => [1, 2, 4, 8, 16].contains width.val && decide (1 ≤ rate.val)
  | .d2hPost _ party _ => party.wf
  | .eventRecordTake _ n => decide (1 ≤ n)
  | _ => true

end Sys2Proof
end

