-- ==== Sys2Proof/Tests/Slice0.lean ====
section
/-! SUPPORT. Tests: an ill-formed operand for each check, small tests whose results come from the manual, and for each statement with
hypotheses a theorem wit_<Name> that shows, clause by clause, states and operands which meet them. -/

namespace Sys2Proof.Tests

open Sys2Proof Sys2Proof.Machine Sys2Proof.Safety

-- One theorem at a time: checked side by side, the witnesses below take more memory than a check allows.
set_option Elab.async false

/-! ### Helpers -/

/-- The hub in service with its host link up. -/
def hubUp : Hub := { failed := false, host := { mode := .cxl, width := 16, rate := 6 }, boot := { phase := 2 }, pwr := { pwrgd := true } }

/-- A module whose channel 0 is `c` and whose other channels are as at reset. -/
def mk (c : Chan) : State := { hub := hubUp, chans := Vector.ofFn fun n : Fin 8 => if n = 0 then c else {} }

/-- A channel in a PHASE. -/
def ph (p : Nat) : Chan := { boot := { phase := p } }

/-- A channel in service, and one changed. -/
def svc : Chan := ph 7

/-- The hub alone, changed. -/
def hb (h : Hub) : State := { hub := h }

/-- What answers next and meets a test. -/
def goes (o : Out) (p : State → Bool) : Bool := match o with | .next t => p t | _ => false

/-! ### Ill-formed operands (WellFormed) -/

theorem smoke_packet : Instr.wf (.packetReceive 0 0 { (default : Packet) with length := 5, payload := [] }) = false := by decide
theorem smoke_nack : Instr.wf (.nackReceive 0 { (default : Packet) with length := 1, payload := [] }) = false := by decide
theorem smoke_flit : Instr.wf (.flitReceive 0 0 { (default : Flit) with payload := [0] }) = false := by decide
theorem smoke_access : Instr.wf (.registerWrite (.chFw 1) .bar2 0 4 0) = false := by decide
theorem smoke_access_bar0 : Instr.wf (.registerWrite .host .bar0 0x1000000 4 0) = false := by decide
theorem smoke_boot_rel : Instr.wf (.registerWrite .host .bar0 0x14 4 0) = false := by decide
theorem smoke_grant : Instr.wf (.retrainAttemptEnd 0 0 true 0 0 [4]) = false := by decide
theorem smoke_margin : Instr.wf (.margin 0 default []) = false := by decide
theorem smoke_ts : Instr.wf (.ts 0 default { (default : TsBody) with count := 3, entries := [] }) = false := by decide
theorem smoke_selftest : Instr.wf (.targetedSelftestDone 0 6 0 true) = false := by decide
theorem smoke_held : Instr.wf (.heldUnitRetry 0 5 2) = false := by decide
theorem smoke_retest : Instr.wf (.fenceRetest 0 5 2 true) = false := by decide
theorem smoke_sighead : Instr.wf (.sigHead 0 default []) = false := by decide
theorem smoke_occ : Instr.wf (.sentinelSample 0 0 0 [] [] 0 17) = false := by decide
theorem smoke_link : Instr.wf (.hostLinkTrain true 3 6 false false) = false := by decide
theorem smoke_rate : Instr.wf (.hostLinkTrain true 16 0 false false) = false := by decide
theorem smoke_party : Instr.wf (.d2hPost 0 (.chFw 8) default) = false := by decide
theorem smoke_take : Instr.wf (.eventRecordTake none 0) = false := by decide
theorem smoke_sound : Instr.wf (.jobRelease 0 default) = true := by decide

/-! ### The queue, reset, presence and registers -/

theorem wit_StepRunsTheFrontCommand : ({ mk svc with pending := [.hubFail] } : State).pending = .hubFail :: [] ∧ (mk svc).pending = [] := by
  decide +kernel

theorem test_step_takes_the_front :
    goes (step { mk svc with pending := [.tick1us (some 0), .hubFail] }) (fun t => t.pending == [.hubFail] && (t.chan 0).us == 1) = true := by
  decide +kernel

theorem wit_CapsNeverChange : ∃ t, exec .hubFail (mk svc) = .next t := ⟨_, rfl⟩

theorem wit_ChannelsAreIsolated : Instr.channel (.jobRelease 0 default) = some 0 ∧ ∃ t, exec (.jobRelease 0 default) (mk svc) = .next t :=
  ⟨rfl, _, rfl⟩

theorem wit_AbsentChannelsStayEmpty : (∀ n : Fin 8, State.reset.present n = false → State.reset.chan n = {})
    ∧ (∃ t, step { hb { hubUp with caps := 0x210F0F01 } with pending := [.hubFail] } = .next t
      ∧ t.present 7 = false) := ⟨by decide +kernel, _, rfl, by decide +kernel⟩

theorem wit_AbsentUnitsReadAllOnes : (hb { hubUp with caps := 0x210F0F01 }).present 7 = false ∧ (0x1FFFFFF : Nat) < 0x2000000
    ∧ (hb { hubUp with caps := 0x2100FF01 }).mtxPresent 0 = false ∧ (0x6FFFFF : Nat) / 0x100000 = 6 := by decide +kernel

theorem test_absent_reads_ones : (hb { hubUp with caps := 0x210F0F01 }).readReg .bar2 0xE000040 0 = 0xFFFFFFFF := by decide +kernel

theorem wit_WritesToAbsentUnitsAreRefused : HostUp (mk svc) ∧ (0xE000000 : BitVec 28).toNat = 0x2000000 * (7 : Fin 8).val + 0
    ∧ (hb { hubUp with caps := 0x210F0F01 }).present 7 = false
    ∧ (hb { hubUp with caps := 0x2100FF01 }).mtxPresent 0 = false ∧ (0x600008 : Nat) % 4 = 0 ∧ (0x600008 : Nat) / 0x100000 = 6 := by
  unfold HostUp; decide +kernel

theorem wit_WritesToSealedFieldsAreRefused :
    let s := { mk { boot := { phase := 7, sealed := true } } with hub := { hubUp with boot := { phase := 2, sealed := true } } }
    HostUp s ∧ s.hasWindow 0 = true ∧ (s.chan 0).boot.phase ≠ 0 ∧ (s.chan 0).boot.sealed = true ∧ (chanRow 0xC).any (fun r => r.rws ≠ 0) = true
    ∧ s.hub.boot.sealed = true ∧ (hubRow 0xC).any (fun r => r.rws ≠ 0) = true := by unfold HostUp; decide +kernel

theorem wit_RegisterWriteStoresWritableBits :
    HostUp (mk svc) ∧ (mk svc).hasWindow 0 = true ∧ (svc.boot.phase ≠ 0) ∧ 0xC ∉ [0x4, 0x8, 0xB00014, 0xC00008, 0xE00000]
    ∧ (chanRow 0xC).any (fun r => r.rws = 0 ∨ svc.boot.sealed = false) = true := by unfold HostUp; decide +kernel

/-- HANG's fields lie within 10–255 and 1–15: a value outside goes to the nearest end. -/
theorem test_register_write_clamps :
    goes (exec (.registerWrite .host .bar2 0xC 4 0x000000FF) (mk svc)) (fun t => (t.chan 0).reg 0xC == 0x0A0A0A0F) = true := by decide +kernel

/-- A SYS_PIR below SYS_CIR goes up to SYS_CIR (R289). -/
theorem test_register_write_at_least :
    goes (exec (.registerWrite .host .bar2 0x700020 4 0x00100020) (mk svc)) (fun t => (t.chan 0).reg 0x700020 == 0x00200020) = true := by decide +kernel

theorem wit_RegisterWriteSizes : HostUp (mk svc) ∧ (8 : BitVec 28).toNat % 8 = 0
    ∧ ¬((8 : Fin 65).val = 4 ∧ (4 : BitVec 28).toNat % 4 = 0) ∧ ¬((8 : Fin 65).val = 8 ∧ (4 : BitVec 28).toNat % 8 = 0) := by
  unfold HostUp; decide +kernel

/-! ### Module architecture -/

theorem wit_HubFailLeavesChannelsRunning : (mk svc).hub.failed = false := rfl
theorem test_hub_fail : goes (exec .hubFail (mk svc)) (fun t => t.hub.failed && t.chan 0 == { svc with hubLost := true }) = true := by
  decide +kernel
theorem wit_CutoutHoldsOneChannelInReset : (mk svc).present 0 = true ∧ (mk svc).hub.pwr.pwrgd = true := by decide +kernel
theorem test_cutout : goes (exec (.converterCutout 0) (mk svc)) (fun t => (t.chan 0).boot.phase == 0 && (t.chan 0).boot.cause == 5) = true := by
  decide +kernel
theorem wit_ReferenceLossAndReturn : (mk svc).present 0 = true ∧ ((mk svc).chan 0).crystal = false
    ∧ svc.time.unit.src ≠ .module ∧ (mk { svc with crystal := true }).present 0 = true := by decide +kernel
theorem wit_TicksAreCounted : (mk svc).present 0 = true ∧ ((mk svc).chan 0).boot.phase ≠ 0 ∧ (mk svc).hub.failed = false
    ∧ svc.watched = true ∧ svc.stallLate = false
    ∧ (let c : Chan := { svc with us := 100001, ctrl := { svc.ctrl with seqIn := [⟨0, [], 0⟩] }
                                  sch := { svc.sch with stallUs := 0, stalled := [default] } }
       c.watched = true ∧ c.stallLate = true) := by decide +kernel
theorem wit_RatesAndCapacityAreReported :
    let c : Chan := { svc with ms := 1 }
    (mk c).present 0 = true ∧ c.measuring = true ∧ c.hlth.rateMs + 1 ≤ c.ms
    ∧ ({ boot := { phase := 10, tested := true } } : Chan).measuring = true
    ∧ ({ c with regs := [(0x44, 0x00100000)] } : Chan).lineNet ≠ fld (({ c with regs := [(0x44, 0x00100000)] } : Chan).reg 0x44) 31 20 := by
  decide +kernel
/-- The example of R37: worst-corner rates, and the same with two transmit pipelines fenced. -/
theorem test_cap_now :
    let c : Chan := { svc with line := { svc.line with state := .up }, regs := [(0x40, 0x3A835A00)]
                               fab := { svc.fab with ports := Vector.replicate 4 { state := .up, width := 4 } } }
    let d : Chan := { c with hlth := { c.hlth with spare := [(1, 0)], units := [(64, { st := .fenced }), (65, { st := .fenced })] } }
    goes (exec (.capNowUpdate 0) (mk c)) (fun t => (t.chan 0).reg 0x44 == 0x6D684210) = true
    ∧ goes (exec (.capNowUpdate 0) (mk d)) (fun t => (t.chan 0).reg 0x44 == 0x66F7C210) = true := by decide +kernel

/-! ### Jobs -/

/-- The checks of an admission give a slot. -/
def okIs (x : Except Nat Nat) (k : Nat) : Bool := match x with | .ok j => j == k | .error _ => false

/-- The coordinate of a listed control plane, and its envelope for job 7. -/
def cp : Coord := 0x0100000001
def env7 : CtlEnv := { src := cp, tag := 5, job := 7 }

/-- A channel of site 1, whose peer is at site 2, with an active epoch and a listed control plane. -/
def rdy : Chan :=
  { svc with cfg := { (default : Sealed) with site := 1, peerSite := 2, coord := 0x0100000000, cpList := [cp] }
             sec := { svc.sec with cur := some ⟨0, 0⟩ } }

/-- A sound JOB_ADMIT body of job 7: Stage, sites 1 and 2, 256 table entries. -/
def adm7 : AdmitBody :=
  { jobId := 7, slot := 0xFF, mode := 1, anchor := 1, opts := 0, rankCount := 4, driftS := 0, driftSteps := 0, pepoch := 0, profile := 0,
    sites := 2, firstStep := 9, entries := 256, rsvd := 0, siteMask := 6 }

/-- `c` with slot `k` as given. -/
def withSlot (c : Chan) (k : Fin 16) (x : Slot) : Chan := { c with ctrl := { c.ctrl with slots := c.ctrl.slots.set k x } }

/-- `c` with every slot holding another job, and with slot 0 holding job 7. -/
def full (c : Chan) : Chan := { c with ctrl := { c.ctrl with slots := Vector.replicate 16 { mode := .stage, body := { adm7 with jobId := 8 } } } }
def job7 : Chan := withSlot rdy 0 { mode := .stage, body := adm7, step := 9, owner := some cp }

theorem wit_JobAdmitChecksInOrder :
    Asks (mk rdy) 0 env7 ∧ rdy.admitTurn false env7 = true ∧ rdy.notReady = false
    ∧ (Asks (mk { rdy with sec := {} }) 0 env7 ∧ ({ rdy with sec := {} } : Chan).notReady ≠ false)
    ∧ ¬((0 : BitVec 8) = 1 ∨ (0 : BitVec 8) = 2)
    ∧ (rdy.admitFields adm7 = true ∧ adm7.jobId = env7.job) ∧ ¬(rdy.admitFields { adm7 with sites := 65 } = true)
    ∧ rdy.jobHeld 7 = false ∧ ¬(job7.jobHeld 7 = false) ∧ Asks (mk job7) 0 env7
    ∧ (∃ k : Nat, k < 16 ∧ rdy.slotFree k = true ∧ (adm7.slot = 0xFF ∨ adm7.slot.toNat = k))
    ∧ (¬∃ k : Nat, k < 16 ∧ (full rdy).slotFree k = true ∧ (adm7.slot = 0xFF ∨ adm7.slot.toNat = k)) ∧ (full rdy).jobHeld 7 = false
    ∧ rdy.fab.blocks.length + blocksFor adm7 ≤ 512
    ∧ ¬(({ rdy with fab := { rdy.fab with blocks := List.replicate 512 (0, 1, 0) } } : Chan).fab.blocks.length + blocksFor adm7 ≤ 512)
    ∧ rdy.admitFields { adm7 with opts := 8 } = true ∧ rdy.unitCheck false 8 ≠ 0 := by
  unfold Asks InPath
  refine ⟨by decide +kernel, by decide +kernel, by decide +kernel, by decide +kernel, by decide +kernel, by decide +kernel, by decide +kernel, by decide +kernel,
    by decide +kernel, by decide +kernel, ⟨0, by decide +kernel⟩, ?_, by decide +kernel, by decide +kernel, by decide +kernel, by decide +kernel,
    by decide +kernel⟩
  rintro ⟨k, hk, h, -⟩
  revert k
  decide +kernel

/-- `rdy` with one JOB_ADMIT waiting that came earlier, of another control plane. -/
def olderAdmit : Chan := { rdy with ctrl := { rdy.ctrl with seqIn := [⟨0x0200000000, envBytes 1 { env7 with src := 0x0200000000, job := 6 } ++ admitBytes adm7, 0⟩] } }

theorem wit_JobAdmitReservesAndForwards :
    (Asks (mk rdy) 0 env7 ∧ rdy.admitTurn false env7 = true ∧ okIs (rdy.admitCheck ((mk rdy).mtxPresent 0) true env7.job adm7) 0 = true)
    ∧ ∃ x : SeqReq, InPath (mk olderAdmit) 0 ∧ x ∈ olderAdmit.ctrl.seqIn ++ olderAdmit.ctrl.peerIn ∧ beAt x.bytes 0 2 = 1
      ∧ (∀ m : SeqReq, m ∈ olderAdmit.ctrl.seqIn → m.bytes.take 8 = envBytes 1 env7 → x.nr < m.nr)
      ∧ ∀ m : SeqReq, m ∈ olderAdmit.ctrl.peerIn → m.bytes.take 8 = envBytes 1 env7 → x.nr < m.nr := by
  unfold Asks InPath
  exact ⟨by decide +kernel, ⟨0x0200000000, envBytes 1 { env7 with src := 0x0200000000, job := 6 } ++ admitBytes adm7, 0⟩, by decide +kernel⟩

theorem test_job_admit_reserves :
    goes (exec (.jobAdmit 0 env7 adm7) (mk rdy)) (fun t => ((t.chan 0).slot 0).mode == .free && ((t.chan 0).slot 0).pend.isSome) = true := by
  decide +kernel

/-- A channel that has reserved slot 0 for job 7. -/
def pend7 : Chan := withSlot rdy 0 { body := adm7, pend := some ⟨env7, 0, 30000⟩ }

theorem wit_PeerAnswerSettlesAdmission :
    InPath (mk pend7) 0 ∧ pend7.seqFree = true ∧ pend7.reserved env7.job = some 0 ∧ (pend7.slot 0).pend = some ⟨env7, 0, 30000⟩
    ∧ pend7.isLate env7 = false ∧ ({ env7 with tag := 6 } : CtlEnv).job = 7 ∧ pend7.isLate { env7 with tag := 6 } = false := by
  unfold InPath; decide +kernel

theorem test_peer_answer_occupies :
    goes (exec (.jobAdmitPeerAnswer 0 env7 0 3) (mk pend7)) (fun t => ((t.chan 0).slot 0).mode == .stage && ((t.chan 0).slot 0).step == 9) = true := by
  decide +kernel

theorem wit_PeerTimeoutAndLateAccept :
    (InPath (mk { pend7 with us := 30001 }) 0 ∧ (pend7.slot (0 : Fin 16)).pend = some ⟨env7, 0, 30000⟩ ∧ 0 + 30000 < ({ pend7 with us := 30001 } : Chan).us)
    ∧ (let c : Chan := { rdy with ctrl := { rdy.ctrl with late := [⟨7, 5⟩] } }
       InPath (mk c) 0 ∧ c.seqFree = true ∧ (⟨env7.job, env7.tag⟩ : LateAdmit) ∈ c.ctrl.late) := by
  unfold InPath; decide +kernel

theorem wit_ForwardedAdmissionTakesLowestSlot :
    InPath (mk rdy) 0 ∧ rdy.seqFree = true ∧ rdy.admitTurn true env7 = true ∧ rdy.reserved adm7.jobId = none
    ∧ okIs (rdy.admitCheck ((mk rdy).mtxPresent 0) false env7.job adm7) 0 = true := by
  unfold InPath; decide +kernel

theorem wit_ReleaseThenSlotFree :
    (Asks (mk job7) 0 env7 ∧ job7.holds env7.job = some 0 ∧ (job7.slot 0).mode ≠ .releasing ∧ InPath (mk job7) 0 ∧ job7.seqFree = true)
    ∧ (let c := withSlot rdy 0 { mode := .releasing, body := adm7 }
       InPath (mk c) 0 ∧ (c.slot (0 : Fin 16)).mode = .releasing ∧ c.drained 0 = true) := by unfold Asks InPath; decide +kernel

theorem test_job_release :
    goes (exec (.jobRelease 0 env7) (mk job7)) (fun t => ((t.chan 0).slot 0).mode == .releasing) = true := by decide +kernel

theorem wit_StepMarkAdvancesByOne :
    Asks (mk job7) 0 env7 ∧ job7.boot.pst = 0 ∧ (List.range 16).find? (fun k => decide ((job7.slot k).mode = .stage ∨ (job7.slot k).mode = .col)
      && decide ((job7.slot k).body.jobId = env7.job)) = some 0
    ∧ (10 : BitVec 32) = (job7.slot 0).step + 1 ∧ (11 : BitVec 32) ≠ (job7.slot 0).step ∧ (11 : BitVec 32) ≠ (job7.slot 0).step + 1
    ∧ InPath (mk job7) 0 ∧ job7.seqFree = true ∧ job7.holds env7.job = some 0 ∧ (job7.slot 0).mode ≠ .releasing := by
  unfold Asks InPath; decide +kernel

/-- Steps are counted modulo 2^32 (R59). -/
theorem test_step_mark_wraps :
    goes (exec (.stepMark 0 env7 0) (mk (withSlot rdy 0 { mode := .stage, body := adm7, step := 0xFFFFFFFF })))
      (fun t => ((t.chan 0).slot 0).step == 0) = true := by decide +kernel

/-! ### The fabric port -/

/-- `c` with port 0 as given. -/
def withPort (c : Chan) (x : Port) : Chan := { c with fab := { c.fab with ports := c.fab.ports.set 0 x } }
/-- A port that is up, with nothing under way. -/
def upPort : Port := { (default : Port) with state := .up, width := 4 }
/-- A flit with its CRC. -/
def sealed (f : Flit) : Flit := { f with crc := crc32c (flitBody f) }

/-- The check value of CRC-32C, over the nine digits (R71 gives the polynomial, the initial value and the final complement). -/
theorem test_crc32c : crc32c [0x31, 0x32, 0x33, 0x34, 0x35, 0x36, 0x37, 0x38, 0x39] = 0xE3069283 := by decide +kernel

theorem wit_FlitReceiverActions :
    let c := withPort svc upPort
    let bad (f : Flit) : Prop := f.crc ≠ crc32c (flitBody f) ∨ 4 ≤ f.type.toNat
    InLife (mk c) 0 ∧ (c.port 0).state ≠ .down
    ∧ bad { sealed { (default : Flit) with type := 0 } with crc := 0 } ∧ bad (sealed { (default : Flit) with type := 4 })
    ∧ (¬bad (sealed { (default : Flit) with type := 0, seq := 0 }) ∧ (0 : BitVec 12) = upPort.rxAck + 1)
    ∧ rxRoom upPort 0 = true ∧ rxRoom { upPort with rxq := List.replicate 4 (default, 1) } 0 = false
    ∧ (¬bad (sealed { (default : Flit) with type := 0, seq := 0xC00 }) ∧ (0xC00 : BitVec 12) ≠ upPort.rxAck + 1 ∧ (upPort.rxAck - 0xC00).toNat ≤ 1023)
    ∧ (¬bad (sealed { (default : Flit) with type := 0, seq := 0xBFF }) ∧ (0xBFF : BitVec 12) ≠ upPort.rxAck + 1 ∧ 1023 < (upPort.rxAck - 0xBFF).toNat)
    ∧ ¬bad (sealed { (default : Flit) with type := 1 }) ∧ ¬bad (sealed { (default : Flit) with type := 2 })
    ∧ ¬bad (sealed { (default : Flit) with type := 3 }) ∧ upPort.state = .up
    ∧ ((withPort svc { upPort with nakDue := true }).port 0).nakDue = true := by unfold InLife; decide +kernel

theorem test_flit_in_order :
    goes (exec (.flitReceive 0 0 (sealed { (default : Flit) with type := 0, seq := 0, payload := [] })) (mk (withPort svc upPort)))
      (fun t => ((t.chan 0).port 0).rxAck == 0 && ((t.chan 0).port 0).ackOwed) = true := by decide +kernel

theorem test_flit_bad_crc_counts :
    goes (exec (.flitReceive 0 0 { (default : Flit) with type := 0, seq := 1, crc := 0, payload := [] }) (mk (withPort svc upPort)))
      (fun t => (t.chan 0).reg 0x100050 == 1 && ((t.chan 0).port 0).nakDue) = true := by decide +kernel

theorem wit_ReplayAndRetrainThresholds :
    let f := sealed { (default : Flit) with type := 2, payload := [] }
    let g : Flit := { (default : Flit) with type := 0, seq := 1, payload := [] }
    let a := withPort svc { upPort with nakRun := 7, replay := [g], progressUs := 0 }
    let b := withPort { svc with us := 21 } { upPort with timeouts := 3, replay := [g] }
    InLife (mk a) 0 ∧ (a.port (0 : Fin 4)).state = .up ∧ f.crc = crc32c (flitBody f) ∧ f.type = 2
    ∧ 8 ≤ (if (a.takeAck 0 f).1 then 0 else (a.port 0).nakRun + 1)
    ∧ (let a0 := withPort svc { upPort with nakRun := 0, replay := [g] }
       (if (a0.takeAck 0 f).1 then 0 else (a0.port 0).nakRun + 1) < 8 ∧ ((a0.takeAck 0 f).2.port 0).replay ≠ [])
    ∧ InLife (mk b) 0 ∧ (b.port 0).state = .up ∧ (b.port 0).replay ≠ [] ∧ (b.port 0).progressUs + 20 < b.us ∧ 3 ≤ (b.port 0).timeouts ∧ (upPort.timeouts < 3)
    ∧ (let r := withPort svc { upPort with resend := some 0, replay := [g] }
       InLife (mk r) 0 ∧ (r.port 0).state = .up ∧ (r.port 0).nakDue = false ∧ (r.port 0).trainDue = false ∧ (r.port 0).resend = some 0 ∧ (r.port 0).replay[0]? = some g) := by
  unfold InLife; decide +kernel

theorem wit_FlitSendUsesCredits :
    (InLife (mk (withPort svc upPort)) 0 ∧ ((withPort svc upPort).port 0).state = .up)
    ∧ (let c := withPort svc { upPort with ackOwed := true }
       InLife (mk c) 0 ∧ (c.port 0).state ≠ .down ∧ (c.port 0).ackOwed = true) := by unfold InLife; decide +kernel

theorem wit_PortRetrainRuns :
    let t (n : Nat) := withPort svc { upPort with state := .retraining, attempt := n }
    (InLife (mk (withPort svc upPort)) 0 ∧ ((withPort svc upPort).port 0).state = .up)
    ∧ InLife (mk (t 2)) 0 ∧ ((t 2).port 0).state = .retraining ∧ ((t 2).port 0).nakDue = false ∧ ((t 2).port 0).attempt < 3 ∧ 3 ≤ ((t 3).port 0).attempt
    ∧ (t 1).fab.held = [] ∧ (t 1).fab.fences = []
    ∧ (let tb := trainedBad (t 1).fab.txSpareFor (t 1).fab.txBad ((t 1).lanesOut 3) 2 0
       let rb := trainedBad (t 1).fab.rxSpareFor (t 1).fab.rxBad ((t 1).lanesOut 4) 0 0
       0 < min (widthFor (usable (spareLane (t 1).fab.txSpareFor tb 0) tb 0)) (widthFor (usable (spareLane (t 1).fab.rxSpareFor rb 0) rb 0)))
    ∧ (let d := withPort { svc with us := 1000001 } { upPort with state := .down }
       InLife (mk d) 0 ∧ (d.port 0).state = .down ∧ (d.port 0).progressUs + 1000000 < d.us) := by unfold InLife; decide +kernel

/-- A lane that failed one training is used again after one that it passes (R68); lane 16 stands in for a bad lane while it is good (R69). -/
theorem test_lane_passes_again : trainedBad none 2 0 0 0 = 0 ∧ spareLane none 2 0 = some 1 ∧ spareLane none 0x10002 0 = none := by decide +kernel

/-- A packet to the channel of `rdy`. -/
def pk : Packet := { (default : Packet) with src := cp, dest := 0x0100000000, kind := 1 }

/-- `rdy` with a full system policer. -/
def rdyP : Chan := { rdy with sch := { rdy.sch with sysPol := { tc := 100000000, tp := 100000000 } } }

theorem wit_PacketsAreSteered :
    (InPath (mk rdyP) 0 ∧ rdyP.edgeHead 0 0 = none ∧ headerBad { pk with length := 8, payload := beBytes 8 0x0002000500000007 } = (false, false)
      ∧ rdyP.transit pk = false ∧ (rdyP.police 0 { pk with length := 8, payload := beBytes 8 0x0002000500000007 }).1 = true ∧ pk.kind = 1
      ∧ rdyP.cfg.cpList.contains cp = true ∧ rdyP.seqFree = true
      ∧ (rdyP.alloc .system 32 (some (.ingress .system ((poolFor 32).getD 3) 0 pk.tc.toNat))).1.isSome = true
      ∧ reqForm (beAt (beBytes 8 0x0002000500000007) 0 2) [] = some true)
    ∧ (let p := { pk with kind := 3 }
       headerBad p = (false, false) ∧ rdyP.transit p = false ∧ (rdyP.police 0 p).1 = true ∧ p.kind = 3
       ∧ (rdyP.alloc .system 24 (some (.ingress .system ((poolFor 24).getD 3) 0 p.tc.toNat))).1.isSome = true)
    ∧ (let p := { pk with kind := 0, dest := 0x0000700004 }
       headerBad p = (false, false) ∧ job7.transit p = false ∧ (job7.police 0 p).1 = true ∧ job7.slotByTag (jobTag p.dest) false = some 0
       ∧ (job7.slot 0).body.rankCount.toNat ≤ rankOf p.dest ∧ job7.hubLost = false) := by unfold InPath; decide +kernel

theorem test_rank_range :
    goes (exec (.packetReceive 0 0 { pk with kind := 0, dest := 0x0000700004 }) (mk job7))
      (fun t => (t.chan 0).viols.length == 1 && (t.chan 0).reg 0x100060 == 1) = true := by decide +kernel

/-- A NACK of reason 4 with an empty header of a RANK packet behind its reason block. -/
def nk : Packet := { (default : Packet) with kind := 3, length := 32, payload := beBytes 1 4 ++ List.replicate 28 0 ++ [0x70, 0, 0] }

/-- The rank entry of one hop, out of port 0; and `job7` with that entry for rank 0 and the other generation current. -/
def ent0 : BitVec 128 := (1#128 <<< 126) ||| (1#128 <<< 121)
def ranked : Chan :=
  let t : Tables := { windows := [(0, (1#64 <<< 63) ||| (1#64 <<< 42))], ranks := [(0, ent0)] }
  { job7 with fab := { job7.fab with curGen := 1, gen0 := t, gen1 := t, blocks := [(0, 0, 0)], fenced := 0 } }

theorem wit_NacksAndHeldPackets :
    (InPath (mk rdy) 0 ∧ beAt [(0 : Byte)] 0 1 = 0 ∧ 4 < beAt [(5 : Byte)] 0 1 ∧ ([4] : List Byte).length < 32)
    ∧ (1 ≤ beAt nk.payload 0 1 ∧ beAt nk.payload 0 1 ≤ 4 ∧ 32 ≤ nk.payload.length ∧ (pktOf (nk.payload.drop 8)).kind = 0
       ∧ rdy.slotByTag (jobTag (pktOf (nk.payload.drop 8)).dest) false = none)
    ∧ (NackOf nk (pktOf (nk.payload.drop 8)) ∧ InPath (mk job7) 0 ∧ job7.slotByTag (jobTag (pktOf (nk.payload.drop 8)).dest) false = some 0
       ∧ (job7.nackCount (pktOf (nk.payload.drop 8))).1 < 4 ∧ job7.genOf 0 = (pktOf (nk.payload.drop 8)).gen
       ∧ job7.heldBytes + (24 + (pktOf (nk.payload.drop 8)).payload.length) ≤ 4194304
       ∧ ((nackFreed job7 nk).alloc (.slot 0) (24 + (pktOf (nk.payload.drop 8)).payload.length)).1.isSome = true)
    ∧ (let p := pktOf (nk.payload.drop 8)
       let c : Chan := { job7 with fab := { job7.fab with nackRuns := [(p.src, p.dest, p.tc, p.length.toNat, crc32c (p.payload.take 8160), 3)] } }
       c.slotByTag (jobTag p.dest) false = some 0 ∧ 4 ≤ (c.nackCount p).1)
    ∧ (let p := pktOf (nk.payload.drop 8)
       ranked.slotByTag (jobTag p.dest) false = some 0 ∧ (ranked.nackCount p).1 < 4 ∧ ranked.genOf 0 ≠ p.gen
       ∧ ranked.xlate 0 (ranked.genOf 0) (rankOf p.dest) = some ent0 ∧ entAction ent0 = 1 ∧ entPort ent0 < 4 ∧ ranked.portFenced (entPort ent0) = false
       ∧ p.fence = false)
    ∧ (let c : Chan := { ranked with fab := { ranked.fab with fences := [⟨pk, some 0, 0, 0⟩] } }
       let p : Packet := { pk with gen := c.genOf 0, hops := (entRoute ent0).1, route := (entRoute ent0).2 }
       InPath (mk c) 0 ∧ c.fab.fences = [⟨pk, some 0, 0, 0⟩] ∧ c.xlate 0 (c.genOf 0) (rankOf pk.dest) = some ent0
       ∧ c.portFenced (entPort ent0) = false ∧ c.fenceWaits p (entPort ent0) 0 = false)
    ∧ rdy.fab.fences = []
    ∧ (let c : Chan := { rdy with fab := { rdy.fab with fences := [⟨pk, none, 0, 0⟩], fenced := 0 } }
       InPath (mk c) 0 ∧ c.fab.fences = [⟨pk, none, 0, 0⟩] ∧ c.freePort = some 0 ∧ c.fenceWaits pk 0 0 = false) := by
  unfold InPath NackOf; decide +kernel

/-- A TABLE_WRITE of one empty tree entry. -/
def tw : TableBody := { table := 2, count := 1, index := 0, entries := List.replicate 32 0 }

theorem wit_TablesAreWrittenInTheShadow :
    let chg (x : GenChange) : Chan := { job7 with fab := { job7.fab with changes := [(0, x)] } }
    JobIn (mk job7) 0 env7 0 ∧ job7.tableForm 0 tw = true ∧ cget? job7.fab.changes 0 = none ∧ job7.tableContents 0 (!job7.genOf 0) tw = true
    ∧ tw.table = 2 ∧ (let w : TableBody := { table := 0, count := 1, index := 0, entries := List.replicate 8 0 }
       job7.tableForm 0 w = true ∧ job7.tableContents 0 (!job7.genOf 0) w = true)
    ∧ JobIn (mk (chg .copying)) 0 env7 0 ∧ (chg .copying).tableForm 0 tw = true ∧ cget? (chg .copying).fab.changes 0 ≠ none
    ∧ (let b : SwitchBody := { actS := 0, actNs := 99999, windowUs := 0 }
       b.actS.toNat * 1000000000 + b.actNs.toNat < job7.now + 100000)
    ∧ (let b : SwitchBody := { actS := 0, actNs := 100000, windowUs := 0 }
       b.actNs.toNat < 1000000000 ∧ job7.now + 100000 ≤ b.actS.toNat * 1000000000 + b.actNs.toNat ∧ b.rsvd = 0)
    ∧ (chg .copying).fab.changes ≠ [] ∧ job7.fab.changes = []
    ∧ JobIn (mk (chg (.armed 5 1))) 0 env7 0 ∧ (chg (.armed 5 1)).fab.changes = [(0, .armed 5 1)] := by
  unfold JobIn Asks InPath; decide +kernel

theorem wit_GenerationSwitchRuns :
    (let c : Chan := { svc with fab := { svc.fab with changes := [(0, .armed 0 100)] }
                                time := { svc.time with slots := svc.time.slots.set 1 { (default : TrigSlot) with armed := true, at_ := 0 } } }
     InLife (mk c) 0 ∧ c.fab.changes = [((0 : Fin 16).val, .armed 0 100)] ∧ c.due 1 = true ∧ c.fab.held = [] ∧ c.fab.fences = [])
    ∧ (let c : Chan := { svc with fab := { svc.fab with changes := [(0, .saddle 0)] } }
       InLife (mk { c with us := 1 }) 0 ∧ c.fab.changes = [(0, .saddle 0)] ∧ 0 < ({ c with us := 1 } : Chan).us)
    ∧ (let c : Chan := { svc with fab := { svc.fab with changes := [(0, .copying)] } }
       InPath (mk c) 0 ∧ c.fab.changes = [(0, .copying)] ∧ cwf 0 c.fab.gen0.windows = true ∧ cwf 0 c.fab.gen1.windows = true) := by
  unfold InLife InPath; decide +kernel

/-! ### The deep buffer -/

/-- An object of 8 bytes that waits in the spill queue of slot 0's TC1 traffic toward the line. -/
def spo : Spilled × Nat × Nat := (.toLine { kind := .packet, bytes := List.replicate 8 0 }, 0, 0)
/-- Job 7's channel with that queue and a running deep buffer. -/
def spilling : Chan := { job7 with mem := { job7.mem with phase := .up, spill := [(0, { objs := [spo], tail := some (0, 8) })] } }
/-- The same with a cap of 0 in the pools. -/
def noRoom : Chan := { spilling with regs := [(0x700200, 0)] }

theorem wit_SpilledObjectsReturnInOrder :
    (InPath (mk spilling) 0 ∧ spilling.memUp = true ∧ (spilling.spillQ 0 1 true).objs = spo :: []
      ∧ (linesOf (spilling.spillAddr 1 spo) (spilledBytes spo.1)).any spilling.lineWaits = false
      ∧ (spilling.alloc (.slot 0) (spilledBytes spo.1) (some (headWaiter 0 1 true (spilledBytes spo.1)))).1 = some ⟨0, 0⟩
      ∧ (BitVec.ofNat 37 (spilling.spillAddr 1 spo)).toNat / 32 ∈ linesOf (spilling.spillAddr 1 spo) (spilledBytes spo.1))
    ∧ (InPath (mk noRoom) 0 ∧ poolFor (spilledBytes spo.1) = some 0 ∧ noRoom.shareRoom 0 (.slot 0) = false)
    ∧ (let c : Chan := { spilling with mem := { spilling.mem with waiters := [.spillHead 0 1 true 0] } }
       InPath (mk c) 0 ∧ c.memUp = true ∧ c.mem.waiters.find? (c.waitsOn .slots 0) = some (.spillHead 0 1 true 0)
       ∧ (c.spillQ 0 1 true).objs = spo :: [] ∧ (linesOf (c.spillAddr 1 spo) (spilledBytes spo.1)).any c.lineWaits = false
       ∧ (c.alloc (.slot 0) (spilledBytes spo.1) (some (headWaiter 0 1 true (spilledBytes spo.1)))).1 = some ⟨0, 0⟩)
    ∧ spilling.mem.waiters.find? (spilling.waitsOn .slots 0) = none := by unfold InPath; decide +kernel

theorem wit_LostLinesAndRetiredUnits :
    (mk svc).present 0 = true ∧ (svc.regionOf (BitVec.toNat (0x1780000000 : BitVec 37))).isSome = true
    ∧ (svc.regionOf (svc.homeAddr (svc.regionBase 7))) = some (7, 0) ∧ (svc.regionOf (svc.homeAddr (svc.regionBase 0))) = some (0, 0)
    ∧ (let c : Chan := { svc with mem := { svc.mem with testing := [5] } }
       (5 : BitVec 25).toNat ∈ c.mem.testing ∧ c.spareUnit.isSome = true ∧ c.homeUnit 5 = 5
       ∧ (c.mem.retired.any fun r => r.unit == 5) = false ∧ (c.mem.copying.any fun p => p.1 == 5) = false)
    ∧ (let c : Chan := { svc with mem := { svc.mem with testing := [5], copying := [(9, 10)] }, regs := [(0x300120, 0xBC000000)] }
       (5 : BitVec 25).toNat ∈ c.mem.testing ∧ c.spareUnit = none ∧ c.mem.copying.find? (fun p => p.1 == (9 : BitVec 25).toNat) = some (9, 10)) := by
  decide +kernel

theorem test_unit_remap_done :
    goes (exec (.unitRemapCopyDone 0 9 []) (mk { svc with mem := { svc.mem with copying := [(9, 10)] } }))
      (fun t => (t.chan 0).mem.copying.isEmpty && (t.chan 0).mem.retired == [⟨9, some 10⟩]) = true := by decide +kernel

theorem wit_SelfRefreshAndRetrain :
    let m (p : MemPhase) (cl : Bool) : Chan := { svc with mem := { svc.mem with phase := p, clean := cl } }
    ((mk (m .up false)).present 0 = true ∧ (m .up false).mem.phase = .up ∧ (m .up false).mem.spill = [])
    ∧ (spilling.mem.phase = .up ∧ spilling.mem.spill ≠ [])
    ∧ (let c : Chan := { m (.entering 0) false with us := 201 }
       c.mem.phase = .entering 0 ∧ 0 + 200 < c.us) ∧ (0xFFFE : BitVec 16) ≠ BitVec.allOnes 16 ∧ svc.line.state ≠ .up
    ∧ ((m .selfRefresh true).mem.phase = .selfRefresh ∧ (m .selfRefresh true).mem.clean = true ∧ (m .selfRefresh false).mem.clean = false)
    ∧ (m .fullTraining true).mem.phase = .fullTraining ∧ (m .scrubbing true).mem.phase = .scrubbing ∧ InLife (mk svc) 0 := by
  unfold InLife; decide +kernel

theorem test_self_refresh_timeout :
    goes (exec (.selfRefreshEntryTimeout 0) (mk { svc with us := 200, mem := { svc.mem with phase := .entering 0 } }))
      (fun t => (t.chan 0).mem.phase == .entering 0) = true := by decide +kernel

/-! ### Collectives -/

/-- A group of sites 1 and 2 with two PODs that replicate and two X that own: two owners of each chunk at a site. -/
def grp : GroupEntry :=
  BitVec.ofNat 1024 (2 ^ 1023 + 2 ^ 1018 + 1 * 2 ^ (8 * 119) + 2 * 2 ^ (8 * 118) + 1 * 2 ^ (8 * 116) + 1 * 2 ^ (8 * 114))
/-- The owners of chunk 0 at site 1. -/
def own0 : Coord := 0x0100000000
def own1 : Coord := 0x0101000000

/-- A COL_COMM_OPEN body of communicator 3 and group 0: FP32, uncoded, in a role. -/
def body3 (r : BitVec 8) : CommBody :=
  { comm := 3, group := 0, algo := 1, fmt := 2, role := r, codec := 0, childIn := if r = 1 then 1 else 0, rootOrLen := if r = 1 then 1 else 2
    resultTree := 1, fwdTree := 0xFFFF, rate := 100, alignUs := 5, pullUs := 7, graceUs := 50, dlMult := 4, notify := cp }

/-- Job 7's channel with the group in both generations, its span up, and then with communicator 3 open in a role. -/
def colc : Chan :=
  { job7 with line := { job7.line with state := .up }
              fab := { job7.fab with gen0 := { job7.fab.gen0 with groups := [(0, grp)] }, gen1 := { job7.fab.gen1 with groups := [(0, grp)] } } }
def comm3 (r : BitVec 8) : Comm := { slot := 0, body := body3 r }
def colr (r : BitVec 8) : Chan := { colc with col := { comms := [comm3 r] } }

/-- The next start of communicator 3. -/
def start1 : StartBody := { comm := 3, seq := 1, step := 9, shard := 0, chunks := 4, expectUs := 100 }

/-- Its instance 1 in context 0. -/
def inst (r : BitVec 8) : Ctx :=
  { slot := 0, comm := 3, body := body3 r, group := grp, pepoch := 0, seq := 1, step := 9, shard := 0, chunks := 4, expectUs := 100, live := []
    attempt := 1, baseUs := 0, demUs := 0 }
def runc (x : Ctx) : Chan :=
  { colc with us := 200000, col := { comms := [{ slot := 0, body := x.body, lastSeq := 1 }], ctxs := [(0, x)] } }
def run (r : BitVec 8) : Chan := runc (inst r)

theorem wit_CommunicatorsAndStarts :
    (JobIn (mk colc) 0 env7 0 ∧ colc.commOk 0 (body3 1) = true ∧ colc.comm? 0 3 = none ∧ colc.col.comms.length < 256
      ∧ (colr 1).commOk 0 (body3 1) = true ∧ (colr 1).comm? 0 3 ≠ none ∧ JobIn (mk (colr 1)) 0 env7 0)
    ∧ ((run 1).comm? 0 3 ≠ none ∧ (run 1).commBusy 0 3 = true ∧ JobIn (mk (run 1)) 0 env7 0 ∧ (colr 1).commBusy 0 3 = false)
    ∧ ((colr 1).startFields 0 start1 = true ∧ start1.step = ((colr 1).slot 0).step ∧ (colr 1).comm? 0 start1.comm.toNat = some (comm3 1)
      ∧ (colr 1).group? 0 (comm3 1).body.group.toNat = some grp ∧ { start1 with seq := 2 }.seq ≠ (comm3 1).lastSeq + 1
      ∧ start1.seq = (comm3 1).lastSeq + 1 ∧ (colr 1).driftStatus 0 (comm3 1) start1.shard.toNat = none
      ∧ codecLossy (comm3 1).body.codec.toNat ≠ 3 ∧ firstGap (colr 1).col.ctxs 0 < 64 ∧ 24 ≤ (colr 1).ctxRes 2 ∧ (colr 1).line.state = .up
      ∧ (colr 1).col.pending = [])
    ∧ (fld (0x02000000000F : ExclEntry) 7 4 = 0
      ∧ (colr 1).col.ctxs.find? (fun y => y.2.slot == 0 && decide (y.2.comm = 3) && !y.2.ending) = none ∧ (comm3 1).body.role = 1
      ∧ (addEntries (comm3 1).live [(0x02000000000F : ExclEntry)]).length ≤ 16
      ∧ JobIn (mk (colr 3)) 0 env7 0 ∧ (colr 3).comm? 0 3 = some (comm3 3) ∧ (comm3 3).body.role = 3
      ∧ (colr 3).col.ctxs.find? (fun y => y.2.slot == 0 && decide (y.2.comm = 3) && !y.2.ending) = none) := by
  unfold JobIn Asks InPath; decide +kernel

theorem test_owners : ownersAt grp 4 1 0 = [own0, own1] ∧ ownersAt grp 4 3 0 = [] := by decide +kernel

theorem test_col_start :
    goes (exec (.colStart 0 env7 start1) (mk (colr 1))) (fun t => ((t.chan 0).ctx? 0).isSome && (t.chan 0).reg 0x400340 == 1) = true := by
  decide +kernel

/-- A message of instance 1. -/
def cm (line : Bool) (ct k att : Nat) (body : List Byte := []) : ColMsg :=
  { slot := 0, line := line, src := own0, body := body
    hdr := { ctype := BitVec.ofNat 8 ct, fmt := 2, comm := 3, seq := 1, chunk := BitVec.ofNat 32 k, ncontrib := 1, attempt := BitVec.ofNat 8 att } }

theorem wit_InputsOfInstances :
    (AtInstance (mk (run 1)) 0 (cm false 1 0 0) 0 (inst 1) ∧ (cm false 1 0 0).hdr.attempt.toNat < (inst 1).attempt)
    ∧ (AtInstance (mk (run 1)) 0 { cm false 1 0 1 with src := 0x0100000001 } 0 (inst 1) ∧ (0x0100000001 : Coord) ∉ (run 1).expectOwners (inst 1) 0)
    ∧ (AtInstance (mk (run 1)) 0 (cm false 1 0 1) 0 (inst 1) ∧ (cm false 1 0 1).hdr.attempt.toNat = (inst 1).attempt ∧ reducing (inst 1) = true
      ∧ (inst 1).recon = .no ∧ 0 < (inst 1).chunks ∧ 0 ∉ (inst 1).done ∧ own0 ∈ (run 1).expectOwners (inst 1) 0
      ∧ InSrc.owner own0 ∉ (cget {} (inst 1).accs 0 : Acc).srcs ∧ (run 1).roomFor (inst 1) 0 = true ∧ StillLacks (run 1) (inst 1) 0 (.owner own0))
    ∧ (AtInstance (mk (run 1)) 0 (cm true 2 3 1) 0 (inst 1) ∧ (inst 1).body.codec = 0 ∧ chunkPhase 3 = 0 ∧ 3 < (inst 1).chunks
      ∧ 3 ∉ (inst 1).done ∧ InSrc.peer ∈ ((run 1).lacking (inst 1) 3 (cget {} (inst 1).accs 3)).1 ∧ (run 1).roomFor (inst 1) 3 = true
      ∧ StillLacks (run 1) (inst 1) 3 .peer)
    ∧ (AtInstance (mk (run 6)) 0 (cm false 2 0 1) 0 (inst 6) ∧ (inst 6).body.role = 6)
    ∧ (AtInstance (mk (run 2)) 0 (cm true 3 0 1) 0 (inst 2) ∧ (inst 2).body.role = 2 ∧ (inst 2).drift = false ∧ 0 ∉ (inst 2).results
      ∧ (inst 2).results.length + 1 < (inst 2).chunks)
    ∧ (AtInstance (mk (run 3)) 0 (cm false 4 0 1 (beBytes 4 64)) 0 (inst 3) ∧ (inst 3).body.role = 3
      ∧ siteOut (inst 3).live (run 3).peerSite = false ∧ 1 ≤ beAt (beBytes 4 64) 0 4 ∧ beAt (beBytes 4 64) 0 4 ≤ 64)
    ∧ (InPath (mk colc) 0 ∧ (colc.slot (0 : Fin 16)).mode = .stage ∧ colc.comm? 0 3 = none ∧ (cm false 1 0 1).hdr.ctype ≠ 4)
    ∧ (InPath (mk (colr 2)) 0 ∧ (colr 2).comm? 0 3 = some (comm3 2) ∧ (cm true 4 0 1).hdr.pepoch = ((colr 2).slot 0).pepoch
      ∧ (colr 2).col.ctxs = [] ∧ seqLater (cm true 4 0 1).hdr.seq.toNat (comm3 2).lastSeq.toNat = true ∧ (colr 2).col.pending.length < 256
      ∧ (comm3 2).body.role = 2 ∧ (colr 2).line.state = .up ∧ PhaseOk (cm true 4 0 1) (comm3 2) ∧ (cm true 4 0 1).hdr.seq ∉ (comm3 2).warned
      ∧ (cm true 4 0 1).hdr.seq ∈ ({ comm3 2 with warned := [1] } : Comm).warned)
    ∧ (¬PhaseOk (cm true 4 0xC0000000 1) (comm3 2) ∧ ¬PhaseOk (cm true 4 0x40000000 1) (comm3 2)) := by
  unfold AtInstance StillLacks PhaseOk InPath; and_intros <;> decide +kernel

theorem test_stale_input :
    goes (exec (.contribReceive 0 (cm false 1 0 0)) (mk (run 1))) (fun t => (t.chan 0).reg 0x400354 == 1 && (t.chan 0).ctx? 0 == some (inst 1)) = true := by
  decide +kernel

/-- The instance at its deadline, having pulled everything and demanded it of the peer. -/
def atDl (x : Ctx) : Ctx := { x with pulled := [(0, 4)], asked := [(0, 4)], nextDem := 4 }
/-- 16 excluded PODs. -/
def many : List ExclEntry := (List.range 16).map fun k => BitVec.ofNat 48 (1 * 2 ^ 40 + (100 + k) * 2 ^ 32 + 7)

theorem wit_DemandsDeadlinesAndEnds :
    (InPath (mk (run 1)) 0 ∧ (run 1).ctx? (0 : Fin 64) = some (inst 1) ∧ (inst 1).ending = false ∧ (inst 1).recon = .no
      ∧ (run 1).nextRange (inst 1) = some (0, 4) ∧ chunkPhase (inst 1).nextDem = 0 ∧ 0 ≤ (run 1).rateChunks (inst 1) (inst 1).demUs
      ∧ (∀ j : Nat, j < 4 → (run 1).lacking (inst 1) (0 + j) {} ≠ ([], 0)))
    ∧ (let x : Ctx := { inst 1 with body := { body3 1 with codec := 0x03 } }
       ctxLow x = true ∧ reducing x = true ∧ x.recon = .no ∧ x.lowrank.nextPull < x.chunks ∧ x.lowrank.nextPull ≤ (runc x).rateChunks x x.baseUs
       ∧ (∀ j : Nat, j < min 64 (x.chunks - x.lowrank.nextPull) → (runc x).lacking x (x.lowrank.nextPull + j) {} ≠ ([], 0)))
    ∧ (({ run 1 with us := 0 } : Chan).us ≤ (inst 1).baseUs + ({ run 1 with us := 0 } : Chan).deadline (inst 1))
    ∧ ((inst 1).baseUs + (run 1).deadline (inst 1) < (run 1).us ∧ (inst 1).sent1 = false
      ∧ (runc (atDl (inst 1))).missing (atDl (inst 1)) ≠ [] ∧ (run 1).isCoord (inst 1) = true ∧ (run 3).isCoord (inst 3) = false)
    ∧ (let x := atDl (inst 1)
       x.body.role = 1 ∧ x.drift = false ∧ x.sent2 = false ∧ x.peerLate = false
       ∧ x.baseUs + (runc x).deadline x + 2 * (runc x).rttUs < (runc x).us ∧ (∃ r ∈ x.asked, ∃ j : Nat, j < r.2 ∧ r.1 + j ∉ x.fromPeer))
    ∧ ((run 1).isCoord (inst 1) = true ∧ (inst 1).baseUs + (run 1).deadline (inst 1) + (run 1).grace (inst 1) < (run 1).us
      ∧ (run 1).prov.backlog = [] ∧ (run 1).prov.queue.length < 8 ∧ ({ inst 1 with notStarted := [(0x02000000000F, .peer)] } : Ctx).notStarted ≠ []
      ∧ (inst 1).notStarted = [] ∧ ({ inst 1 with lateOver := true } : Ctx).lateOver = true
      ∧ 16 < (addEntries many [(0x02000000000F : ExclEntry)]).length ∧ (inst 1).lateOver = false ∧ (addEntries many []).length ≤ 16
      ∧ someEmpty grp 4 [0x01000000000F, 0x02000000000F] = true ∧ someEmpty grp 4 [0x02000000000F] = false
      ∧ fld ((run 1).reg 0x400300) 27 26 ≤ ({ inst 1 with attempt := 3 } : Ctx).attempt ∧ ({ inst 1 with attempt := 0 } : Ctx).attempt < fld ((run 1).reg 0x400300) 27 26)
    ∧ ((run 3).isCoord (inst 3) = false ∧ (inst 3).baseUs + (run 3).deadline (inst 3) + 2 * (run 3).grace (inst 3) < (run 3).us)
    ∧ (AtInstance (mk (run 2)) 0 (cm true 5 0 2) 0 (inst 2) ∧ (run 2).isCoord (inst 2) = false
      ∧ fromParent (inst 2).body.role.toNat (inst 2).drift (cm true 5 0 2).line = true ∧ (inst 2).attempt < (cm true 5 0 2).hdr.attempt.toNat
      ∧ beAt (beBytes 1 0x11) 0 1 ≠ 0x10 ∧ AtInstance (mk (run 2)) 0 (cm true 6 0 1) 0 (inst 2)
      ∧ endWay (inst 2).body.role.toNat (inst 2).drift (cm true 6 0 1).line = true)
    ∧ (AtInstance (mk (run 1)) 0 (cm true 7 0 1 [1, 0]) 0 (inst 1) ∧ fromChild (inst 1).body.role.toNat (cm true 7 0 1 [1, 0]).line = true
      ∧ beAt (cm true 7 0 1 [1, 0]).body 0 1 = 1 ∧ AtInstance (mk (run 2)) 0 (cm false 7 0 1 [1, 0]) 0 (inst 2)
      ∧ fromChild (inst 2).body.role.toNat (cm false 7 0 1 [1, 0]).line = true ∧ (inst 2).body.role = 2 ∧ (inst 2).drift = false) := by
  unfold AtInstance PhaseOk InPath; and_intros <;> decide +kernel

/-! ### Compression and error feedback -/

/-- Communicator 3 with an error-fed codec in colc, the bind of its shard 0, and its extent at place 1. -/
def efc : Chan := { colc with col := { comms := [{ slot := 0, body := { body3 1 with codec := 0x81 } }] } }
def bind0 : BindBody := { comm := 3, shardLo := 0, shardCnt := 1, chunks := 1, rows := 0, cols := 0 }
def ext0 (place size : Nat) : Extent := { idx := 0, slot := 0, comm := 3, shard := 0, baseMib := place, sizeMib := size, chunks := 1 }

theorem wit_ExtentsAndFlowFormats :
    (let m : Comm := { slot := 0, body := { body3 1 with codec := 0x81 } }
     let busy : Chan := { efc with col := { efc.col with ctxs := [(0, inst 1)] } }
     let size := talusMib 2 0x81 1 0 0
     let jam : Chan := { efc with codec := { efc.codec with extents := [{ ext0 1 (efc.regionMib 3) with shard := 1 }] } }
     JobIn (mk busy) 0 env7 0 ∧ busy.comm? 0 3 = some m ∧ bindOk m bind0 = true ∧ busy.extent? 0 3 0 = none ∧ busy.commBusy 0 3 = true
     ∧ JobIn (mk efc) 0 env7 0 ∧ efc.comm? 0 3 = some m ∧ efc.extent? 0 3 0 = none ∧ efc.commBusy 0 3 = false
     ∧ lowestFree (efc.codec.extents.map Extent.idx) 4096 = some 0 ∧ firstFit efc.talusRuns (efc.regionMib 3) size = some 1
     ∧ JobIn (mk jam) 0 env7 0 ∧ jam.commBusy 0 3 = false ∧ jam.extent? 0 3 0 = none
     ∧ firstFit jam.talusRuns (jam.regionMib 3) size = none)
    ∧ (shardRange 0 4096 = true ∧ shardRange 65535 1 = true ∧ (colr 1).comm? 0 3 ≠ none ∧ (colr 1).commBusy 0 3 = false
      ∧ (run 1).comm? 0 3 ≠ none ∧ (run 1).commBusy 0 3 = true ∧ JobIn (mk (run 1)) 0 env7 0)
    ∧ (let c := withSlot rdy 0 { mode := .stage, body := { adm7 with opts := 1 }, opts := 1, step := 9, owner := some cp }
       JobIn (mk c) 0 env7 0 ∧ (c.slot 0).mode = .stage ∧ bitOf (c.slot 0).opts 0 = true
       ∧ bitOf (job7.slot 0).opts 0 = false ∧ JobIn (mk job7) 0 env7 0) := by
  unfold JobIn Asks InPath; and_intros <;> decide +kernel

/-- A packet object of 8 payload bytes for rank 0 of job 7, to be coded under format 1; its channel, with rank 0 at port 0. -/
def pko : LineObj := { kind := .packet, bytes := pktBytes { pk with kind := 0, dest := 0x0000700000, length := 8, payload := List.replicate 8 0 }, code := 1 }
def ent5 : BitVec 128 := BitVec.ofNat 128 (1 * 2 ^ 126 + 1 * 2 ^ 121 + 0x0100000005)
def packc : Chan :=
  { colc with
    fab := { colc.fab with fenced := 0, blocks := [(0, 0, 0)]
                           gen0 := { colc.fab.gen0 with windows := [(0, BitVec.ofNat 64 (2 ^ 63 + 256 * 2 ^ 42))], ranks := [(0, ent5)] } }
    codec := { colc.codec with packQ := [.object 0 1 pko] } }
/-- The bytes of the coded packet, and the place of its packer among the waiters. -/
def pkb : List Byte := pko.bytes.take 24 ++ (flowBlocks 1 [] (pko.bytes.drop 24)).flatMap Prod.fst
def wpk : Waiter := .packer 0 ((poolFor pkb.length).getD 3)
/-- The coded packet as it comes from the line, and one with a damaged block header. -/
def pkc : RxObj := { kind := .coded, bytes := pkb }
def pkd : RxObj := { pkc with bytes := pko.bytes.take 24 ++ List.replicate 16 0xFF }
def expc (o : RxObj) : Chan := { packc with codec := { colc.codec with expQ := [.packet 0 1 o] } }
/-- Whether an expansion succeeds. -/
def expOk (o : RxObj) : Bool := match expandPacket (pktOf o.bytes).length.toNat (o.bytes.drop 24) with | .ok e => e.bytes.take 8 == List.replicate 8 0 | .error _ => false

theorem test_blocks_round_trip : expOk pkc = true ∧ expOk pkd = false := by decide +kernel

theorem wit_BlocksAreCodedAndExpanded :
    (InPath (mk packc) 0 ∧ packc.codec.packQ = [.object 0 1 pko] ∧ pko.code ≠ 0 ∧ ({ pko with code := 0 } : LineObj).code = 0
      ∧ tooLong 1 { pko with code := 0 } = false ∧ (packc.alloc (.slot 0) pkb.length (some wpk)).1 = some ⟨0, 0⟩
      ∧ (({ packc with regs := [(0x700200, 0)] } : Chan).alloc (.slot 0) pkb.length (some wpk)).1 = none
      ∧ ({ pko with buf := some ⟨0, 0⟩ } : LineObj).buf = some ⟨0, 0⟩)
    ∧ (InPath (mk (expc pkc)) 0 ∧ (expc pkc).codec.expQ = [.packet 0 1 pkc] ∧ pkc.kind = .coded ∧ (expc pkc).relays 0 pkc = false
      ∧ 24 ≤ pkc.bytes.length ∧ expOk pkc = true ∧ (pktOf pkc.bytes).fence = false
      ∧ (expc pkc).xlate 0 ((expc pkc).genOf 0) (rankOf (pktOf pkc.bytes).dest) = some ent5 ∧ entAction ent5 = 1 ∧ entPort ent5 < 4
      ∧ (expc pkc).portFenced (entPort ent5) = false ∧ portTxBytes ((expc pkc).port (entPort ent5)) < 16384
      ∧ 16384 ≤ portTxBytes { upPort with txq := [{ pk with length := 16384, payload := List.replicate 16384 0 }] })
    ∧ (InPath (mk (expc pkd)) 0 ∧ (expc pkd).codec.expQ = [.packet 0 1 pkd] ∧ pkd.kind = .coded ∧ (expc pkd).relays 0 pkd = false
      ∧ (expc pkd).expStalled (.packet 0 1 pkd) = false ∧ expOk pkd = false ∧ pkd.copy = false ∧ ({ pkd with copy := true } : RxObj).copy = true
      ∧ ({ pkd with buf := some ⟨0, 0⟩ } : RxObj).buf = some ⟨0, 0⟩) := by
  unfold InPath; and_intros <;> decide +kernel

/-! ### The matrix engine -/

/-- A descriptor of RESID with 2 tasks, a task of it, and a channel with a matrix engine as given. -/
def tk0 : Task := ⟨0, 0, 0, 0⟩
def dsc : Desc := { kernel := .resid, fmt := 2, rlog := 0, slot := 0, comm := 3, shard := 0, seq := 1, attempt := 0, rows := 32, cols := 32, tasks := 2, extent := 0 }
def tsk (m : Mtx) : Chan := { svc with mtx := m, us := 1001 }
/-- No tile in service. -/
def noTile (c : Chan) : Chan := { c with hlth := { c.hlth with units := (List.range 17).map fun k => (k, { st := .fenced }) } }

theorem wit_TilesRunTasks :
    (hb { hubUp with caps := 0x2100FF01 }).mtxPresent 0 = false
    ∧ (InLife (mk (noTile svc)) 0 ∧ (mk svc).mtxPresent 0 = true ∧ (noTile svc).tilesUp = [])
    ∧ (let c := tsk { moved := [tk0] }
       InLife (mk c) 0 ∧ (mk c).mtxPresent 0 = true ∧ c.freeTile = some 0 ∧ (∀ e ∈ c.mtx.descs, e.2.noTileUs = none) ∧ c.mtx.moved = [tk0])
    ∧ (let c := tsk { descs := [(0, dsc)] }
       InLife (mk c) 0 ∧ c.freeTile = some 0 ∧ (∀ e ∈ c.mtx.descs, e.2.noTileUs = none) ∧ c.mtx.moved = [] ∧ c.nextDesc = some (0, dsc))
    ∧ (let c (ds : Cells Desc) := tsk { descs := ds, tiles := (Vector.replicate 17 []).set 16 [tk0] }
       InLife (mk (c [])) 0 ∧ (mk (c [])).mtxPresent 0 = true ∧ vget (c []).mtx.tiles 16 = [tk0] ∧ cget? (c []).mtx.descs 0 = none
       ∧ cget? (c [(0, dsc)]).mtx.descs 0 = some dsc ∧ dsc.pass = tk0.pass ∧ dsc.done + 1 < dsc.tasks
       ∧ ({ dsc with done := 1 } : Desc).tasks ≤ ({ dsc with done := 1 } : Desc).done + 1 ∧ ({ dsc with kernel := .orth } : Desc).kernel = .orth
       ∧ ({ dsc with kernel := .orth, pass := 1 } : Desc).pass < 2 ∧ (scalarFmt dsc.fmt).isSome = true)
    ∧ (let c : Chan := { runc { inst 1 with body := { body3 1 with codec := 0x03 } } with
         mtx := { descs := [(0, dsc)], tiles := (Vector.replicate 17 []).set 0 [tk0] }, codec := { extents := [ext0 1 1] } }
       (c.ctx? tk0.ctx).isSome = true ∧ ((c.ctx? tk0.ctx).bind c.ctxExtent).isSome = true)
    ∧ (let d : Desc := { dsc with noTileUs := some 0 }
       let c := noTile (tsk { descs := [(0, d)] })
       InLife (mk c) 0 ∧ (mk c).mtxPresent 0 = true ∧ cget? c.mtx.descs (0 : Fin 64) = some d ∧ d.noTileUs = some 0 ∧ c.tilesUp = [] ∧ 0 + 1000 < c.us)
    ∧ (let d : Desc := { dsc with kernel := .orth, factor := true }
       let c := tsk { descs := [(63, d)] }
       InLife (mk c) 0 ∧ (mk c).mtxPresent 0 = true ∧ cget? c.mtx.descs (63 : Fin 64) = some d ∧ d.factor = true)
    ∧ (let b : PendBind := { env := env7, slot := 0, comm := 3, shards := [0, 1] }
       let c := tsk { binds := [b] }
       InLife (mk c) 0 ∧ (mk c).mtxPresent 0 = true ∧ c.mtx.binds = b :: [] ∧ b.shards = 0 :: [1]
       ∧ ({ b with shards := [0] } : PendBind).shards = 0 :: []) := by unfold InLife; and_intros <;> decide +kernel

/-! ### Scheduling -/

/-- A channel with its line up, an epoch, and a scheduler as given; a system TU; and a record at the start of the ring. -/
def schc (x : Sch) : Chan := { job7 with line := { job7.line with state := .up }, sch := x }
def stu : Tu := { tc := 0, sys := true, body := List.replicate 52 0 }
def rec0 : RtxRec := { first := 0, latest := 0, kepoch := 0, prev := 0, tu := stu, pos := 65536, size := 80, sentUs := 0, queued := true }
/-- An open class TC0 with bytes in its bucket, and slot 0 with an object in TC1 whose shaper is above 0. -/
def pko1 : LineObj := { pko with code := 0, buf := some ⟨0, 0⟩ }
def flw : Sch := { flows := [(1, { objs := [pko1], bucket := 1000 })], classB := [1000, 1000, 1000, 1000] }

theorem wit_SelectionsAndEncryption :
    InPath (mk svc) 0
    ∧ (let c := schc { stalled := [stu], sysFifo := List.replicate 63 stu }
       c.sch.stalled = stu :: [] ∧ c.sch.sysFifo.length < 64 ∧ (schc { sysFifo := List.replicate 64 stu }).sch.sysFifo.length = 64)
    ∧ (InPath (mk job7) 0 ∧ job7.line.state ≠ .up ∧ job7.sch.open3 = none)
    ∧ (let c := schc { sysFifo := [stu], classB := [1, 0, 0, 0] }
       InPath (mk c) 0 ∧ c.line.state = .up ∧ c.mayEncrypt = true ∧ c.sch.open3 = none ∧ c.clsOpen 0 = true ∧ c.sch.sysFifo = stu :: []
       ∧ c.rtxBlocked (16 + tuLen stu) = false ∧ ({ c with line := { c.line with rtx := [rec0] } } : Chan).rtxBlocked (16 + tuLen stu) = true)
    ∧ (let c := schc flw
       InPath (mk c) 0 ∧ c.sch.open3 = none ∧ c.pick 4 = some (.flow 0 1) ∧ c.storeFull (.flow 0 1) = false
       ∧ c.rtxBlocked (16 + 12 + (tuBody 1 (nextObjs 1 (c.flow 0 1).objs)).length) = false
       ∧ (c.flow 0 1).objs = pko1 :: [] ∧ pko1.buf = some ⟨0, 0⟩ ∧ (⟨0, 0⟩ : Buf).pool < 4)
    ∧ (let c := schc { open3 := some { sections := 33, at_ := 32 } }
       InPath (mk c) 0 ∧ c.sch.open3 = some { sections := 33, at_ := 32 } ∧ c.pick 2 = none)
    ∧ (let c := schc { open3 := some { sections := 33, at_ := 32 }, sysFifo := [stu], classB := [1, 0, 0, 0] }
       c.pick 2 = some .sys ∧ c.sch.sysFifo = stu :: [] ∧ c.rtxBlocked (16 + tuLen stu) = false
       ∧ (let d : Chan := { c with line := { c.line with rtx := [rec0] } }
          d.pick 2 = some .sys ∧ d.rtxBlocked (16 + tuLen stu) = true))
    ∧ (let c := schc { toCipher := [{ tu := some stu }] }
       InPath (mk c) 0 ∧ c.mayEncrypt = true ∧ c.sch.toCipher = { tu := some stu } :: [] ∧ (c.sec.cur = some ⟨0, 0⟩)
       ∧ stu.tc < 2 ∧ 2 ≤ ({ stu with tc := 3 } : Tu).tc ∧ c.line.elem3 = none
       ∧ ({ c.line with elem3 := some ([], 0, 0) } : Line).elem3 ≠ none) := by
  unfold InPath; and_intros <;> decide +kernel

theorem test_tu_takes_next_tseq :
    goes (exec (.tuEncrypt 0 false) (mk (schc { toCipher := [{ tu := some stu }] })))
      (fun t => (t.chan 0).line.tseq == 2 && (t.chan 0).line.rtx.length == 1) = true := by decide +kernel

/-! ### The line -/

/-- The channel in service with another line; one receiving lane; a channel that has seen light on every lane. -/
def ln (x : Line) : Chan := { svc with line := x }
def lane (a : Align) (good bad : Nat) : Line := { svc.line with lanes := Vector.replicate 32 { align := a, good := good, bad := bad, dark := false } }
def darkL (st : LineState) : Chan := { ln { svc.line with state := st, lanes := Vector.replicate 32 { dark := true, darkUs := 0 } } with us := 11 }

theorem wit_LanesAndLineStates :
    (let c : Chan := { ln (lane .hunt 0 0) with opt := { svc.opt with rxMap := Vector.replicate 32 { phys := 35 } |>.set 31 { phys := 31 } } }
     InLife (mk c) 0 ∧ c.lineRuns = true ∧ c.line.state ≠ .downLof ∧ logicalOf c.opt.rxMap (31 : Fin 36) = some 31
     ∧ fasFits (BitVec.ofNat 48 fas) (~~~BitVec.ofNat 48 fas) = false ∧ (vget c.opt.rxMap 31).pair = 0x3F ∧ c.opt.rxOps = [] ∧ c.opt.rxPend = none
     ∧ (vget c.line.lanes 31).dark = false ∧ (vget (lane .presync 2 0).lanes 31).align = .presync ∧ (vget (lane .sync 0 4).lanes 31).align = .sync
     ∧ popcount (BitVec.ofNat 48 fas ^^^ BitVec.ofNat 48 fas) 48 ≤ 6 ∧ ¬popcount (~~~(BitVec.ofNat 48 fas) ^^^ BitVec.ofNat 48 fas) 48 ≤ 6
     ∧ (248 : BitVec 8).toNat / 8 = 31)
    ∧ (let c : Chan := { ln { lane .hunt 0 0 with state := .downLof } with opt := { svc.opt with rxMap := svc.opt.rxMap.set 31 { phys := 31 } } }
       InLife (mk c) 0 ∧ c.lineRuns = true ∧ c.line.state = .downLof ∧ 31 = (248 : BitVec 8).toNat / 8
       ∧ (31 : Fin 36).val ∈ entLanes (vget c.opt.rxMap 31))
    ∧ (let c : Chan := { ln (lane .hunt 0 0) with opt := { svc.opt with rxMap := svc.opt.rxMap.set 0 { ook := true, phys := 0, pair := 32 } } }
       InLife (mk c) 0 ∧ c.lineRuns = true ∧ c.line.state ≠ .downLof ∧ logicalOf c.opt.rxMap (32 : Fin 36) = some 0
       ∧ (vget c.opt.rxMap 0).pair ≠ 0x3F ∧ (vget c.line.lanes 0).half = none)
    ∧ (InLife (mk svc) 0 ∧ svc.lineRuns = true ∧ fasFits (~~~BitVec.ofNat 48 fas) (~~~BitVec.ofNat 48 fas) = true
       ∧ logicalOf svc.opt.rxMap (35 : Fin 36) = none)
    ∧ ((darkL .downLos).line.state = .downLos ∧ (darkL .up).line.state ≠ .downLos ∧ (darkL .up).los = true ∧ (ln (lane .sync 0 0)).los = false
      ∧ InLife (mk (darkL .up)) 0)
    ∧ (let c := { ln { svc.line with state := .downLof, oof := false, inUs := 0 } with us := 40951 }
       InLife (mk c) 0 ∧ c.line.state = .downLof ∧ c.line.oof = false ∧ c.line.inUs + 10 * fld (c.reg 0x800008) 11 0 < c.us)
    ∧ (let c := { ln { svc.line with state := .up, oof := true, oofUs := 0 } with us := 40951 }
       InLife (mk c) 0 ∧ c.line.state = .up ∧ c.line.oof = true ∧ c.line.oofUs + 10 * fld (c.reg 0x800008) 23 12 < c.us) := by
  unfold InLife; and_intros <;> decide +kernel

/-- With no operation and no map armed, nothing waits for a boundary. -/
theorem wit_LanesAndLineStates_quiet (c : Chan) (h : c.opt.rxOps = []) (g : c.opt.rxPend = none) : RxQuiet c := by simp [RxQuiet, h, g]

theorem test_los_takes_the_line_down :
    goes (exec (.losDetect 0) (mk (darkL .up))) (fun t => (t.chan 0).line.state == .downLos && (t.chan 0).reg 0x800108 == 1) = true := by
  decide +kernel

/-- Lanes whose overhead holds the same byte all through, scrambled as the line sends it. -/
def lanesOf (b : Byte) : List (List Byte) := (List.replicate 32 (List.replicate 16 b)).zipIdx.map fun p => scramble p.2 p.1
def cohIn (ls : List (List Byte)) : Coh := cohOf ((ls.zipIdx.map fun (p : List Byte × Nat) => scramble p.2 p.1).flatMap fun l => (l.drop 10).take 6)
/-- A relay's coordinate, upstream in leg 0 and downstream in leg 0. -/
def legc : Chan := { rdy with regs := [(0x800020, 0x80000005), (0x800024, 7), (0x800040, 0x80000005), (0x800044, 7)] }
/-- A seal header under epoch 0. -/
def seal0 : SealHdr := { ksel := 0, kepoch := 0, mseq := 0, tagOk := true }

/-- A block is sound with its own parity rows, and decoding leaves it; without rows it is not, and stays so where the free decoder's answer
has none. -/
theorem wit_FramesAndRelaySignalling_blocks (prev blk : List (List Byte)) (rest : List RxBlock) :
    (staircaseOk prev blk (parityOf prev blk) = true ∧ decodeOldest prev ⟨blk, parityOf prev blk⟩ rest = ⟨blk, parityOf prev blk⟩)
    ∧ staircaseOk prev blk [] = false
    ∧ ((Config.staircase prev (((⟨blk, []⟩ : RxBlock) :: rest).map fun x => (x.lanes, x.parity))).2 = [] →
        let x := decodeOldest prev ⟨blk, []⟩ rest
        staircaseOk prev x.lanes x.parity = false) := by
  have h0 (x : List (List Byte)) : staircaseOk prev x [] = false := by simp [staircaseOk, parityOf]
  refine ⟨⟨by simp [staircaseOk], by simp [staircaseOk, decodeOldest]⟩, h0 blk, fun h => ?_⟩
  simp only [decodeOldest, h0, Bool.false_eq_true, if_false, h]

theorem wit_FramesAndRelaySignalling :
    (InLife (mk svc) 0 ∧ svc.boot.pst = 0 ∧ svc.lineRuns = true ∧ ({ svc with boot := { svc.boot with pst := 2 } } : Chan).boot.pst ≠ 0)
    ∧ (svc.line.oof = true
      ∧ (let c := ln { svc.line with oof := false, window := List.replicate 7 ⟨lanesOf 0, []⟩ }
         InLife (mk c) 0 ∧ c.lineRuns = true ∧ c.line.oof = false ∧ c.line.window.length < 8)
      ∧ (let o : RxBlock := ⟨lanesOf 0, []⟩
         let c := ln { svc.line with oof := false, window := List.replicate 8 o }
         InLife (mk c) 0 ∧ c.lineRuns = true ∧ c.line.oof = false ∧ c.line.window = o :: List.replicate 7 o ∧ (List.replicate 7 o).length = 7)
      ∧ (let c := ln { svc.line with oof := false, state := .rxUp, bdiRun := 7 }
         InLife (mk c) 0 ∧ c.lineRuns = true ∧ c.line.oof = false ∧ c.boot.phase ≠ 8 ∧ c.line.state = .rxUp ∧ c.line.bdiRun = 7)
      ∧ (cohIn (lanesOf 0)).bdi = false ∧ (cohIn (lanesOf 0xFF)).bdi = true
      ∧ (ln { svc.line with oof := false, state := .up, bdiRun := 6 }).line.bdiRun < 7)
    ∧ (InPath (mk rdy) 0 ∧ Opens rdy 4 seal0 ∧ ¬Opens rdy 4 { seal0 with tagOk := false })
    ∧ (let c : Chan := { rdy with line := { rdy.line with capDue := true } }
       InLife (mk c) 0 ∧ c.line.capDue = true ∧ c.sec.cur = some ⟨0, 0⟩)
    ∧ (InPath (mk rdy) 0 ∧ rdy.hubLost = false ∧ (∀ j : Nat, j < 4 → rdy.legCoord 0x800020 j ≠ some 9)
      ∧ legc.legCoord 0x800020 0 = some 0x0500000007 ∧ InPath (mk legc) 0)
    ∧ (let c : Chan := { rdy with us := 10001, line := { svc.line with state := .up, legs := Vector.replicate 4 { inAis := true, lastUs := 0 } } }
       InPath (mk c) 0 ∧ (vget c.line.legs 3).inAis = true ∧ (vget c.line.legs 3).lastUs + 10000 < c.us ∧ c.line.state = .up
       ∧ c.mayEncrypt = true ∧ (vget c.line.legs 3).tuSuper ≠ some c.line.txSuper ∧ c.sch.stalled = [] ∧ c.sch.sysFifo.length < 64)
    ∧ (let c : Chan := { svc with line := { svc.line with state := .up, legs := Vector.replicate 4 { inAis := true, tuSuper := some 0 } } }
       InPath (mk c) 0 ∧ (vget c.line.legs 3).inAis = true ∧ (vget c.line.legs 3).tuSuper = some c.line.txSuper)
    ∧ (let c : Chan := { legc with ms := 1, line := { legc.line with aisTx := [(0, 2)] }, fab := { legc.fab with fenced := 0 } }
       InLife (mk c) 0 ∧ c.line.aisMs < c.ms ∧ c.line.aisTx = [(0, 2)] ∧ c.legCoord 0x800040 0 = some 0x0500000007
       ∧ (∀ j : Nat, j < 4 → 0 < j → c.legCoord 0x800040 j = none) ∧ c.freePort = some 0)
    ∧ (let c : Chan := { legc with ms := 1, line := { legc.line with aisTx := [], state := .downLos }, fab := { legc.fab with fenced := 0 } }
       InLife (mk c) 0 ∧ c.line.aisMs < c.ms ∧ c.line.aisTx = [] ∧ c.line.state = .downLos ∧ c.legCoord 0x800040 0 = some 0x0500000007
       ∧ c.freePort = some 0) := by
  unfold InLife InPath Opens; and_intros <;> decide +kernel

/-- Job 7's channel with slot 3 of the peer; a first send of one byte in TC1 of that slot, and its seal. -/
def rxc (x : Line) : Chan :=
  { withSlot rdy 0 { mode := .stage, body := adm7, step := 9, owner := some cp, peerSlot := some 3 } with line := { x with state := .up } }
def el0 : Element := { tc := 1, slot := 3, len := 13, kepoch := 0, tseq := 1, body := [], tag := [] }
def keys0 (c : Chan) : EpochKeys := c.keysOf ⟨0, 0⟩
def ctr0 (c : Chan) : List Byte := ctrBody c.suite (keys0 c).rxEnc 0 1 [0]
def el1 (c : Chan) : Element := { el0 with body := ctr0 c, tag := tuTag c.suite (keys0 c).rxMac { el0 with body := ctr0 c } }

/-- One byte under a counter stream. -/
theorem ctr_one (su : Bool) (k : BitVec 256) (ep : BitVec 8) (n : Nat) : ∃ x : Byte, ∀ y : Byte, ctrBody su k ep n [y] = [y ^^^ x] :=
  ⟨BitVec.ofNat 8 ((Config.blockCipher su k (ctrBlock ep n 1)).toNat >>> 120), fun _ => rfl⟩

/-- The counter stream undoes itself. -/
theorem opens_el1 (c : Chan) : c.openTu (keys0 c) (el1 c) = some [0] := by
  obtain ⟨x, h⟩ := ctr_one c.suite (keys0 c).rxEnc 0 1
  have h0 : ctr0 c = [x] := by
    unfold ctr0
    rw [h]; simp
  have ht : (el1 c).tag = tuTag c.suite (keys0 c).rxMac (el1 c) := rfl
  have hb : ctrBody c.suite (keys0 c).rxEnc (el1 c).kepoch (el1 c).tseq (el1 c).body = [0] := by
    show ctrBody c.suite (keys0 c).rxEnc 0 1 (ctr0 c) = [0]
    rw [h0, h]; simp
  unfold Chan.openTu
  rw [if_pos ht, hb]

theorem opens_not (c : Chan) : c.openTu (keys0 c) el0 = none := by
  have h : ¬ el0.tag = tuTag c.suite (keys0 c).rxMac el0 := by
    intro e; have := congrArg List.length e; simp [el0, tuTag, beBytes] at this
  unfold Chan.openTu
  rw [if_neg h]

theorem wit_SelectiveRepeat :
    (let c := rxc { rdy.line with rxq := [{ el0 with kepoch := 1 }] }
     InPath (mk c) 0 ∧ c.line.rxq = { el0 with kepoch := 1 } :: [] ∧ c.epochKey 1 = none)
    ∧ (let c := rxc { rdy.line with rxq := [el0] }
       InPath (mk c) 0 ∧ c.epochKey el0.kepoch = some (keys0 c) ∧ c.openTu (keys0 c) el0 = none)
    ∧ (∀ hs : List Hole, ∀ n : Nat,
       let e := el1 (rxc rdy.line)
       let c := rxc { rdy.line with rxq := [e], holes := hs, highest := n }
       c.line.rxq = e :: [] ∧ c.epochKey e.kepoch = some (keys0 c) ∧ c.openTu (keys0 c) e = some [0] ∧ c.line.awaited = [] ∧ e.rsnd = false ∧ e.sys = false
       ∧ e.tseq = 1 ∧ c.ownSlot e.slot.toNat = some 0 ∧ e.tc = 1 ∧ (objectsOf 1 [(0 : Byte)]).isSome = true
       ∧ [(0 : Byte)].all (fun b => b = 0xFF) = false)
    ∧ (let c (hs : List Hole) (n : Nat) := rxc { rdy.line with holes := hs, highest := n }
       InPath (mk (c [] 0)) 0 ∧ (c [] 1).openSeq 1 = false ∧ tsAfter 1 (c [] 1).line.highest = false ∧ (c [] 0).spilling 0 1 false = false
       ∧ ((c [] 0).alloc (.slot 0) 1).1 = some ⟨0, 0⟩
       ∧ (1 = ((c [] 0).line.highest + 1) % tsMod ∧ (c [] 0).line.highest < tsMod ∧ ∀ h ∈ (c [] 0).line.holes, h.tseq ≠ 1)
       ∧ (∃ h ∈ (c [⟨1, 0, 0, 0⟩] 2).line.holes, h.tseq = 1) ∧ tsAfter 1 (c [⟨1, 0, 0, 0⟩] 2).line.highest = false)
    ∧ (rdy.line.waiting.find? rdy.ready = none)
    ∧ (let t : RxTu := { first := 1, tseq := 1, prev := 0, tc := 0, slot := 0, sys := true, mode := 0, body := objBytes 3 [1, 2] }
       let u : RxTu := { first := 1, tseq := 1, prev := 0, tc := 2, slot := 0, sys := false, mode := 1, body := [1], buf := some ⟨0, 0⟩ }
       let c (w : RxTu) := rxc { rdy.line with waiting := [w] }
       InPath (mk (c t)) 0 ∧ (c t).line.waiting.find? (c t).ready = some t ∧ t.sys = true ∧ objectsOf t.body.length t.body = some [(3, [1, 2])]
       ∧ InPath (mk (c u)) 0 ∧ (c u).line.waiting.find? (c u).ready = some u ∧ u.sys = false ∧ u.tc = 2 ∧ u.slot < 16 ∧ (c u).col.ctxs = []
       ∧ (c u).codec.expQ = [] ∧ u.buf = some ⟨0, 0⟩ ∧ (c u).col.comms = [] ∧ beAt u.body 0 1 = 1)
    ∧ (InPath (mk rdy) 0 ∧ rdy.line.state ≠ .up)
    ∧ (let c := rxc { rdy.line with holes := [⟨1, 0, 0, 0⟩, ⟨2, 0, 0, 15⟩], highest := 3, upUs := 100000 }
       InPath (mk c) 0 ∧ c.line.state = .up ∧ c.line.awaited = [] ∧ (c.line.holes.map Hole.tseq).Nodup
       ∧ (∃ h ∈ c.line.holes, h.lastUs + c.nakGap < c.line.upUs ∧ h.reports < c.nakMax) ∧ (∃ h ∈ c.line.holes, c.nakMax ≤ h.reports)
       ∧ (∃ h ∈ c.line.holes, h.foundUs + c.rtxWin < c.line.upUs)) := by
  unfold InPath
  refine ⟨by and_intros <;> decide +kernel, ⟨by decide +kernel, rfl, opens_not _⟩, ?_, by and_intros <;> decide +kernel,
    by decide +kernel, by and_intros <;> decide +kernel, by and_intros <;> decide +kernel, by and_intros <;> decide +kernel⟩
  intro hs n
  exact ⟨rfl, rfl, opens_el1 _, rfl, rfl, rfl, rfl, rfl, rfl, rfl, rfl⟩

/-! ### Optics -/

/-- Lane states: all in one; and a vector with one of another. -/
def lns (x : OLane) : Vector OLane 36 := Vector.replicate 36 x
def lns1 (x : OLane) (p : Fin 36) (y : OLane) : Vector OLane 36 := (lns x).set p y
/-- A map of lanes 0 to 31, written out at both ends. -/
def map0 : Vector MapEnt 32 := (((Vector.replicate 32 { phys := 20 }).set 0 { phys := 0 }).set 1 { phys := 1 }).set 31 { phys := 31 }

/-- A channel in service with an optical engine, its line up, an epoch, long after its start; one with trigger slots 4 and 5 due. -/
def optc (o : Opt) : Chan := { rdy with opt := o, us := 1000000, ms := 1000000000, line := { rdy.line with state := .up } }
def optd (o : Opt) : Chan := { optc o with time := { rdy.time with slots := ((rdy.time.slots.set 4 { armed := true }).set 5 { armed := true }) } }
/-- A measured eye of lane `p`, wide and shut; its margins. -/
def eye (p : BitVec 6) : LaneMeas := { phys := p, mu := [0, 100, 200, 300], sg := [10, 10, 10, 10], corrected := 0, bits := 1000, rxPwr := 0, txPwr := 0, sync := true }
def shut (p : BitVec 6) : LaneMeas := { eye p with mu := [0, 1, 2, 3] }

/-- R348: 5 / 2.144 is 3.67 dB, and 0.05 / 2.144 is −16.32 dB, rounded down to units of 0.05 dB. -/
theorem test_margin : marginOf false (eye 0) = 73 ∧ marginOf false (shut 0) = -327 := by decide +kernel

theorem wit_MarginsCalibrationAndSafety :
    (let o : Opt := { rx := lns { st := .mapped }, rxMap := map0 }
     let p : Opt := { rx := lns1 { st := .mapped } 0 { st := .mapped, low := 2 } |>.set 35 { st := .spare, margin := 100 }, rxMap := map0 }
     InLife (mk (optc o)) 0 ∧ (optc o).due 4 = false ∧ (optd o).due 4 = true ∧ (eye 35).phys.toNat < 36
     ∧ (vget (optd o).opt.rx 35).st = .mapped ∧ (optd o).opt.rxOps = [] ∧ (optd o).opt.mt ≠ .running
     ∧ (∀ q : Nat, q < 36 → (vget (optd o).opt.rx q).low < 2)
     ∧ InLife (mk (optd p)) 0 ∧ (optd p).line.state = .up ∧ (optd p).sec.cur = some ⟨0, 0⟩ ∧ (vget (optd p).opt.rx 0).st = .mapped
     ∧ (vget (optd p).opt.rx 0).low = 2 ∧ marginOf false (shut 0) < (optd p).spareTh
     ∧ (∀ k : Nat, k < 36 → k ≠ 0 → (vget (optd p).opt.rx k).low < 2) ∧ logicalOf (optd p).opt.rxMap 0 = some 0
     ∧ (optd p).spares (vget (optd p).opt.rx 0).tried = 35 :: [] ∧ (optd p).spareTh + 20 ≤ (vget (optd p).opt.rx 35).margin)
    ∧ (let o : Opt := { rings := Vector.replicate 76 { locked := true } }
       let ob (below : Bool) (t : Int) : RingObs := { ring := 75, below := below, own := 5, prev := 4, next := 4, trim := t }
       InLife (mk (optc o)) 0 ∧ (ob true 0).ring.toNat < 76 ∧ (vget (optc o).opt.rings 75).locked = true
       ∧ (ob true 0).below = true ∧ ¬((ob false 0).below = true ∨ (ob false 0).own < (ob false 0).prev ∨ (ob false 0).own < (ob false 0).next)
       ∧ 256 ≤ (ob false (-256)).trim.natAbs ∧ (ob false 191).trim.natAbs < 192 ∧ 192 ≤ (ob false 192).trim.natAbs
       ∧ (ob false 255).trim.natAbs < 256 ∧ (vget (optc o).opt.rings 75).trim.natAbs < 192 ∧ (optc o).opt.txOps = [])
    ∧ (((99 : Int) - 0).natAbs < 100 ∧ 100 ≤ ((-100 : Int) - 0).natAbs)
    ∧ (let o : Opt := { fullRecalMs := 1000000000 }
       ¬(o.fullRecalMs + fld ((optc o).reg 0x900004) 7 3 * 3600000 ≤ (optc o).ms)
       ∧ (optc {}).opt.fullRecalMs + fld ((optc {}).reg 0x900004) 7 3 * 3600000 ≤ (optc {}).ms)
    ∧ (let o : Opt := { calQ := [175], tx := lns1 { st := .mapped } 35 { st := .spare } }
       let c : Chan := { optc o with time := { rdy.time with slots := rdy.time.slots.set 5 { armed := true } } }
       InLife (mk c) 0 ∧ c.due 5 = true ∧ (optd o).hubLost = false ∧ (optd o).allowed 36 = false ∧ 40 < (41 : BitVec 10).toInt
       ∧ (40 : BitVec 10).toInt ≤ 40 ∧ (optd o).allowed 31 = true ∧ (vget (optd { o with tx := lns {} }).opt.tx 31).st ≠ .mapped ∧ (optd o).opt.calQ = [175])
    ∧ ((List.replicate 36 (0x80 : Byte)).length = 36 ∧ Opens (optc {}) 4 seal0 ∧ InLife (mk (optc {})) 0)
    ∧ ((optc {}).sec.cur = some ⟨0, 0⟩ ∧ (optc { marginMs := 999999001 }).ms < (optc { marginMs := 999999001 }).opt.marginMs + 1000
      ∧ (optc { marginMs := 999999000 }).opt.marginMs + 1000 ≤ (optc { marginMs := 999999000 }).ms)
    ∧ ((mk (ph 0)).present 0 = true ∧ ((mk (ph 0)).chan 0).boot.phase = 0 ∧ InLife (mk (ph 5)) 0 ∧ 5 ≤ (ph 5).boot.phase
      ∧ (ph 5).opt.safeTrip = false ∧ (ph 4).boot.phase = 4) := by
  unfold InLife Opens; and_intros <;> decide +kernel

/-- R344: a ring on its neighbour's tone unlocks. -/
theorem test_wrong_lock :
    goes (exec (.wrongLockCheck 0 [{ ring := 3, below := false, own := 1, prev := 2, next := 0, trim := 0 }])
        (mk (optc { rings := Vector.replicate 76 { locked := true } })))
      (fun t => !(vget (t.chan 0).opt.rings 3).locked && (t.chan 0).reg 0x90004C == 1) = true := by decide +kernel

/-- A request of operation 7 for logical lane 1 onto lane 35, and an operation of it at a stage. -/
def rq : SpareReq := ⟨7, 1, 1, 35, 0xFF, 0⟩
def oop (st : OpStage) : OptOp := { req := rq, stage := st, startUs := 0, old := { phys := 1 } }
def bop (st : OpStage) : OptOp := { oop st with burst := true, best := some (16, 200) }

theorem wit_BurstsAndMarginTest :
    (let o : Opt := { tx := lns1 { st := .mapped } 31 { st := .retired } }
     InLife (mk (optc o)) 0 ∧ Opens (optc o) 4 seal0 ∧ (∀ x ∈ (optc o).opt.txOps, x.req.op ≠ 7) ∧ (vget (optc o).opt.tx 31).st = .retired
     ∧ (optc o).opt.txOps.length < 4 ∧ inOps (optc o).opt.txOps 31 = false ∧ (optc o).allowed 31 = true ∧ (optc o).sec.cur = some ⟨0, 0⟩
     ∧ ¬((vget (optc o).opt.tx 0).st = .spare ∨ (vget (optc o).opt.tx 0).st = .retired) ∧ (optc o).allowed 36 = false ∧ (optc o).hubLost = false)
    ∧ (let c (k : Nat) : Chan := optc { txOps := [bop (.burst k)] }
       InLife (mk (c 0)) 0 ∧ (c 0).opt.txOps.find? (fun o => decide (o.req.op = 7) && o.burst) = some (bop (.burst 0))
       ∧ (({ c 0 with us := 20000 } : Chan).us ≤ (bop (.burst 0)).startUs + 20000 * (0 + 1)) ∧ (bop (.burst 31)).startUs + 20000 * (31 + 1) < (c 31).us
       ∧ (bop (.burst 32)).startUs + 20000 * (32 + 1) < (c 32).us
       ∧ newOnly (bop (.burst 32)) = [35])
    ∧ (let c (st : OpStage) : Chan := optc { rxOps := [bop st] }
       InLife (mk (c .requested)) 0 ∧ (c .requested).opt.rxOps.find? (fun o => decide (o.req.op = 7) && o.burst) = some (bop .requested)
       ∧ ({ c (.burst 1) with us := 20000 } : Chan).us ≤ (bop (.burst 1)).startUs + 20000 * 1
       ∧ (bop (.burst 31)).startUs + 20000 * 31 < (c (.burst 31)).us ∧ (bop (.burst 31)).best = some (16, 200)
       ∧ (bop (.burst 32)).startUs + 20000 * 32 < (c (.burst 32)).us ∧ marginOf false (eye 35) ≤ 200 ∧ (bop (.burst 32)).req.phys.toNat < 36
       ∧ (c (.burst 32)).opt.rxOps = [bop (.burst 32)] ∧ (c (.burst 32)).opt.burstQ = [] ∧ (c (.burst 32)).sec.cur = some ⟨0, 0⟩
       ∧ (c (.burst 32)).opt.refit = false)
    ∧ ((optc { mt := .running }).opt.mt = .running ∧ (optc {}).opt.mt ≠ .running)
    ∧ (let r (k : Nat) : MtRun := { step := 2, sinceUs := 0, trial := k }
       let c (k : Nat) : Chan := { optc { mtRun := some (r k) } with sec := {} }
       InLife (mk (c 0)) 0 ∧ (c 0).opt.mtRun = some (r 0) ∧ (r 0).step = 2 ∧ ({ c 0 with us := 20000 } : Chan).us ≤ (r 0).sinceUs + 20000 * ((r 0).trial + 1)
       ∧ (r 31).sinceUs + 20000 * ((r 31).trial + 1) < (c 31).us ∧ (r 31).trial < 32 ∧ cget? (r 31).best 35 = none
       ∧ (r 32).sinceUs + 20000 * ((r 32).trial + 1) < (c 32).us ∧ 32 ≤ (r 32).trial)
    ∧ (let r (k : Nat) : MtRun := { step := k, sinceUs := 0, best := [(35, 16, 700)] }
       let c (k : Nat) : Chan := { optd { mt := .running, mtRun := some (r k), rx := lns { st := .shadow, margin := 200 } } with
         sec := {}, line := { rdy.line with oof := false } }
       InLife (mk (c 3)) 0 ∧ (c 3).due 4 = true ∧ (c 3).opt.rxOps = [] ∧ (c 3).opt.mt = .running ∧ (c 3).opt.mtRun = some (r 3) ∧ (r 3).step = 3
       ∧ (c 3).line.oof = false ∧ (r 3).best ≠ [] ∧ (c 3).sec.cur = none ∧ (c 3).sec.hs = none
       ∧ ({ c 3 with line := rdy.line, us := 50000 } : Chan).line.oof = true ∧ ({ c 3 with us := 50000 } : Chan).us ≤ (r 3).sinceUs + 50000
       ∧ InLife (mk (c 4)) 0 ∧ (c 4).due 4 = true ∧ (r 4).step = 4 ∧ (r 4).sinceUs + 20000 + (c 4).rttUs < (c 4).us
       ∧ ({ r 4 with peerFit := true } : MtRun).peerFit = true
       ∧ InLife (mk (c 5)) 0 ∧ (c 5).due 4 = true ∧ (r 5).step = 5 ∧ (r 5).sinceUs + 500000 < (c 5).us
       ∧ 32 ≤ ((c 5).plan.filter fun p => decide ((c 5).mtPass ≤ (vget (c 5).opt.rx p).margin)).length
       ∧ (chooseMap (c 5).mtPass ((c 5).plan.map fun p => (p, (vget (c 5).opt.rx p).margin, -512))).isSome = true)
    ∧ ((35 : BitVec 8).toNat < 36 ∧ (optc {}).opt.txOps.find? (fun o => o.burst && decide (o.req.phys = 35)) = none
      ∧ (optc { txOps := [bop (.burst 32)] }).opt.txOps.find? (fun o => o.burst && decide (o.req.phys = 35)) = some (bop (.burst 32)))
    ∧ (instantOf 0 1000000000 = none ∧ instantOf 0 999999999 = some 999999999 ∧ Opens (optc {}) 4 seal0)
    ∧ (let m : MapArmed := { at_ := 0, ents := [{ phys := 5 }] }
       let s (o : Opt) : State := { mk (optc o) with hub := { hubUp with boot := { phase := 2, sealed := true } } }
       let n : MapArmed := { m with due := true }
       let c : Chan := { optc { rxMap := map0, rxPend := some n } with line := { lane .sync 0 0 with state := .up } }
       let d : Chan := optc { txPend := some n }
       InLife (s { rxPend := some m }) 0 ∧ m.due = false ∧ (∀ j : Nat, j < 6 → (vget (optc {}).time.slots j).armed = false)
       ∧ (optc {}).line.oof = true ∧ ({ rdy.line with oof := false } : Line).oof = false
       ∧ (∃ e ∈ [({ phys := 40 } : MapEnt)], ∃ p ∈ entLanes e, (optc {}).allowed p = false) ∧ (optc {}).hubLost = false
       ∧ InLife (mk c) 0 ∧ n.due = true ∧ c.lineRuns = true ∧ c.opt.rxOps = [] ∧ c.opt.rxPend = some n ∧ c.line.state ≠ .downLof
       ∧ fasFits (BitVec.ofNat 48 fas) (BitVec.ofNat 48 fas) = true ∧ fasFits (BitVec.ofNat 48 fas) (~~~BitVec.ofNat 48 fas) = false
       ∧ logicalOf c.opt.rxMap (31 : Fin 36) = some 31 ∧ (248 : BitVec 8).toNat / 8 = 31 ∧ (vget c.opt.rxMap 31).pair = 0x3F
       ∧ (vget c.line.lanes 31).dark = false ∧ (vget c.line.lanes 31).align = .sync
       ∧ InLife (mk d) 0 ∧ d.boot.pst = 0 ∧ d.lineRuns = true ∧ d.opt.txOps = [] ∧ d.opt.txPend = some n ∧ d.line.mfasTx = 0
       ∧ (s {}).hub.boot.sealed = true ∧ 7 ≤ (optc {}).boot.phase ∧ (optc {}).opt.rxOps = []
       ∧ (optc {}).opt.txOps = [] ∧ m.at_ ≤ (optc {}).now ∧ (optc { rxPend := some m }).opt.txPend = none
       ∧ (∀ e ∈ m.ents, ∀ p ∈ entLanes e, (optc {}).allowed p = true))
    ∧ ((optc { mt := .failed, mtFailMs := 999939999 }).opt.mt = .failed ∧ (optc { mt := .failed, mtFailMs := 999939999 }).opt.mtFailMs + 60000 < 1000000000
      ∧ ¬((optc { mt := .failed, mtFailMs := 999940000 }).opt.mtFailMs + 60000 < 1000000000)) := by
  unfold InLife Opens; and_intros <;> decide +kernel

theorem wit_SparesAndCombs :
    (InLife (mk (optc {})) 0 ∧ ¬Opens (optc {}) 4 { seal0 with tagOk := false } ∧ Opens (optc {}) 4 seal0)
    ∧ (let o : Opt := { tx := lns1 { st := .mapped } 31 { st := .spare }, txMap := map0 }
       let r : SpareReq := { rq with phys := 31 }
       (optc { o with answered := [(r, 0)] }).opt.answered.find? (fun a => decide (a.1 = r)) ≠ none ∧ (optc o).opt.txOps = []
       ∧ (optc o).sec.cur = some ⟨0, 0⟩ ∧ (optc o).opt.answered.find? (fun a => decide (a.1 = r)) = none
       ∧ (optc o).spareStatus { r with phys := 0 } = 2 ∧ (optc o).spareStatus { r with phys := 36 } = 1 ∧ (optc o).spareStatus r = 0
       ∧ (optc o).hubLost = false)
    ∧ (let c := optc { rxOps := [oop .requested], rx := lns { st := .mapped } }
       InLife (mk c) 0 ∧ c.opt.rxOps.find? (fun o => decide (o.req.op = 7) && !o.burst && decide (o.stage = .requested)) = some (oop .requested)
       ∧ c.opt.rxOps = [oop .requested] ∧ (oop .requested).burst = false ∧ (oop .requested).cold = false
       ∧ (∀ p ∈ entLanes (oop .requested).old, (vget c.opt.rx p).low < 3) ∧ c.sec.cur = some ⟨0, 0⟩
       ∧ (oop .requested).startUs + 50000 + c.rttUs < c.us ∧ ({ c with us := 50000 } : Chan).us ≤ (oop .requested).startUs + 50000 + c.rttUs)
    ∧ (let c : Chan := { optc { txOps := [oop .mirroring] } with time := { rdy.time with aligned := true } }
       InLife (mk c) 0 ∧ c.opt.txOps.find? (fun o => decide (o.req.op = 7) && decide (o.stage = .mirroring)) = some (oop .mirroring)
       ∧ instantOf 0 0 = some 0 ∧ c.isAligned = true ∧ (oop .mirroring).burst = false
       ∧ c.opt.txOps.find? (fun o => decide (o.req.op = 7) && beforeSwitch o) = some (oop .mirroring))
    ∧ (let s (o : Opt) : State := { mk (optc o) with hub := { hubUp with boot := { phase := 2, sealed := true } } }
       InLife (s { rxOps := [oop (.armed 0)] }) 0 ∧ (s {}).hub.boot.sealed = true ∧ 7 ≤ (optc {}).boot.phase
       ∧ (optc { rxOps := [oop (.armed 0)] }).opt.rxPend = none ∧ (optc { rxOps := [oop (.armed 0)] }).opt.txPend = none
       ∧ (oop (.armed 0)).stage = .armed 0 ∧ (optc {}).mapDue 0 = true ∧ ({ rdy.line with oof := false } : Line).oof = false
       ∧ (optc { rxOps := [oop (.armed 0)] }).opt.txOps = []
       ∧ (optc { txOps := [oop (.armed 0)] }).opt.rxOps = [])
    ∧ (let c : Chan := { optc { rxMap := map0, rxOps := [oop (.due 0)] } with line := { lane .sync 0 0 with state := .up } }
       let d : Chan := optc { txOps := [oop (.due 0)] }
       InLife (mk c) 0 ∧ c.lineRuns = true ∧ (oop (.due 0)).stage = .due 0 ∧ (oop (.due 0)).cold = false ∧ (oop (.due 0)).req.lane.toNat < 32
       ∧ (oop (.due 0)).req.kind = 1 ∧ c.opt.rxPend = none ∧ c.opt.txPend = none ∧ c.opt.txOps = [] ∧ c.sec.cur = some ⟨0, 0⟩
       ∧ fasFits (BitVec.ofNat 48 fas) (BitVec.ofNat 48 fas) = true ∧ fasFits (BitVec.ofNat 48 fas) (~~~BitVec.ofNat 48 fas) = false
       ∧ c.line.state ≠ .downLof ∧ logicalOf c.opt.rxMap (31 : Fin 36) = some 31 ∧ (248 : BitVec 8).toNat / 8 = 31
       ∧ (vget c.opt.rxMap 31).pair = 0x3F ∧ (vget c.line.lanes 31).dark = false ∧ (vget c.line.lanes 31).align = .sync
       ∧ InLife (mk d) 0 ∧ d.lineRuns = true ∧ d.boot.pst = 0 ∧ d.opt.rxOps = [] ∧ d.line.mfasTx = 0)
    ∧ (let c : Chan := { optc { rxOps := [oop (.copying 0)] } with time := { rdy.time with unit := { rdy.time.unit with now := 20000000 * 65536 } } }
       InLife (mk c) 0 ∧ c.opt.takeover = false ∧ (oop (.copying 0)).stage = .copying 0 ∧ (oop (.copying 0)).req.kind ≠ 3
       ∧ 0 + 2 * c.rttNs ≤ c.now ∧ c.opt.burstQ = [] ∧ ({ oop (.copying 0) with doneIn := true } : OptOp).doneIn = true
       ∧ (oop (.copying 0)).doneIn = false)
    ∧ (let c := optc { takeover := true, tx := lns { st := .mapped, comb := true } }
       InLife (mk c) 0 ∧ c.opt.rxOps = [] ∧ c.opt.txOps = [] ∧ c.opt.takeover = true
       ∧ (∀ p : Nat, p < 36 → (vget c.opt.tx p).st = .mapped → (vget c.opt.tx p).comb ≠ c.opt.combSel))
    ∧ ((optc { moveQ := [3] }).opt.moveQ ≠ [] ∧ (optc {}).opt.moveQ = [] ∧ (optc {}).opt.rxOps = [] ∧ (optc {}).spares [] = []
      ∧ (optc { rx := lns1 {} 35 { st := .spare } }).spares [] = [35])
    ∧ (({ oop .requested with sentUs := 994999 } : OptOp).sentUs + 5000 < (optc {}).us ∧ (optc {}).us ≤ ({ oop .requested with sentUs := 995000 } : OptOp).sentUs + 5000
      ∧ (optc {}).opt.combReq = false)
    ∧ (let c : Chan := { optc { rxMap := map0, rx := lns1 {} 35 { st := .spare } } with line := { rdy.line with state := .downLof } }
       InLife (mk c) 0 ∧ c.opt.rxOps = [] ∧ (vget c.line.lanes 31).dark = true ∧ (vget c.line.lanes 31).darkUs + 100000 < c.us
       ∧ c.line.state = .downLof ∧ (optc {}).line.state ≠ .downLof ∧ logicalOf c.opt.rxMap 31 = some 31
       ∧ c.spares (vget c.opt.rx 31).tried = 35 :: [] ∧ c.sec.cur = some ⟨0, 0⟩)
    ∧ ((optc { takeover := true }).opt.takeover = true
      ∧ ¬((fld ((optc {}).reg 0x900004) 15 8 : Int) ≤ (vget (optc {}).opt.combs 0).ref - (0 : BitVec 10).toInt)
      ∧ (fld ((optc {}).reg 0x900004) 15 8 : Int) ≤ (vget (optc {}).opt.combs 0).ref - (-20 : BitVec 10).toInt
      ∧ (∃ p : Nat, p < 36 ∧ (vget (optc { tx := lns { st := .spare } }).opt.tx p).st = .spare) ∧ (vget (optc {}).opt.combs 1).st = .off)
    ∧ ((vget (optc {}).opt.combs 1).st ≠ .warming ∧ (vget (optc { combs := Vector.replicate 2 { st := .warming } }).opt.combs 1).st = .warming)
    ∧ ((vget (optc { combs := Vector.replicate 2 { st := .failed } }).opt.combs 1).st = .failed
      ∧ (vget (optc { combs := Vector.replicate 2 { st := .locked } }).opt.combs 1).st = .locked
      ∧ (let c := optc { tx := lns { st := .mapped, peer := some (-20) } }
         ∀ p : Nat, p < 36 → (vget c.opt.tx p).st = .mapped → (vget c.opt.tx p).peer = some (-20) ∧ (-20 : Int) * 2 < c.spareTh)) := by
  unfold InLife Opens; and_intros <;> decide +kernel

/-! ### Keys -/

/-- A channel at end A (site 1 of 1 and 2) or end B (site 3 of 3 and 2) with a security domain, its line up, and its microsecond count. -/
def seca (x : Sec) : Chan := { rdy with sec := x, us := 10000000, line := { rdy.line with state := .up } }
def secb (x : Sec) : Chan := { seca x with cfg := { rdy.cfg with site := 3 } }
def ep0 : Epoch := ⟨0, 0⟩
def sec0 : Sec := { cur := some ep0 }
/-- A certificate that verifies up to the channel's root; a sound HELLO body of site 2 with the curve's base point, one of another
version, and a sound KA_HELLO_B. -/
def cert0 : Cert := { der := [], serial := 1, key := 7, notBefore := 0, notAfter := 0, sigOk := true, root := (default : Sealed).yupRoot }
def hello : HelloBody :=
  { ver := 1, suite := 0, site := 2, rsvd := 0, device := cert0, inter := { cert0 with serial := 2 }, owner := some { cert0 with serial := 3, root := (default : Sealed).ownerRoot }
    point := 0x32C4AE2C1F1981195F9904466A39C9948FE30BBFF2660BE1715A4589334C74C7BC3736A2F4F6779C59BDCEE36B692153D0A9877CC62A474002DF32E52139F0A0 }
def hello2 : HelloBody := { hello with ver := 2 }
def helloConf (own : BitVec 512) : HelloBody := { hello with conf := Config.sm2Conf own hello.point false }

theorem hello_conf (c : Chan) : decide ((helloConf c.sec.ownPoint).conf = Config.sm2Conf c.sec.ownPoint (helloConf c.sec.ownPoint).point false) = true :=
  decide_eq_true rfl

/-- A seal header under the handshake key. -/
def sealH : SealHdr := { ksel := 1, kepoch := 0, mseq := 0, tagOk := true }
def hk0 : BitVec 256 × BitVec 256 := (1, 2)
/-- The confirmation value that end B expects in KA_FINISH, and another. -/
def confA (c : Chan) : BitVec 256 := Config.sm2Conf (BitVec.ofNat 512 (beAt c.sec.helloA 4 64)) c.sec.ownPoint true

/-- No value is its own successor. -/
theorem ne_succ (x : BitVec 256) : x + 1 ≠ x := by bv_omega

theorem wit_KeyAgreement :
    ((InLife (mk (seca {})) 0 ∧ (seca {}).isA = true ∧ (seca {}).sec.phase = .none ∧ (seca {}).sec.holdUs = none ∧ (seca {}).line.state = .up)
      ∧ ¬((secb {}).isA = true))
    ∧ ((seca {}).isA = true ∧ (secb {}).isA = false ∧ (secb {}).sec.answer = none ∧ (secb {}).helloFail hello2 none = some 1
      ∧ (secb {}).helloFail hello none = none ∧ (secb {}).sec.held = []
      ∧ (let c := secb { phase := .handshake, helloA := helloBytes hello false, answer := some (2, [1]) }
         InLife (mk c) 0 ∧ c.isA = false ∧ c.sec.phase = .handshake ∧ c.sec.helloA = helloBytes hello false ∧ c.sec.answer = some (2, [1])))
    ∧ ((seca { phase := .hello }).isA = true ∧ (seca { phase := .hello }).sec.phase = .hello ∧ (seca {}).sec.phase ≠ .hello
      ∧ (seca { phase := .hello }).helloFail hello2 (some true) = some 1 ∧ (seca { phase := .hello }).helloFail hello2 (some false) = some 1
      ∧ (seca { phase := .hello }).helloFail (helloConf 0) (some true) = none)
    ∧ (let c (n : Nat) := secb { phase := .handshake, hs := some hk0, answer := some (n, [1]) }
       InLife (mk (c 2)) 0 ∧ Opens (c 2) 2 sealH ∧ (c 2).isA = false ∧ (c 2).sec.phase = .handshake ∧ (c 2).sec.hs = some hk0
       ∧ (c 2).sec.answer = some (2, [1]) ∧ (c 4).sec.answer = some (4, [1]) ∧ instantOf 0 5 = some 5 ∧ InLife (mk (c 4)) 0 ∧ Opens (c 4) 2 sealH)
    ∧ (let c := seca { phase := .handshake, hs := some hk0, t0 := 5, repeating := some (3, [1]) }
       InLife (mk c) 0 ∧ Opens c 2 sealH ∧ c.isA = true ∧ c.sec.hs = some hk0 ∧ c.sec.repeating = some (3, [1]) ∧ instantOf 0 5 = some c.sec.t0
       ∧ instantOf 0 6 ≠ some c.sec.t0)
    ∧ ((seca {}).sec.rekey = none ∧ (seca {}).sec.resumeUs = none ∧ (seca {}).sec.phase ≠ .service ∧ (seca { phase := .service }).sec.phase = .service
      ∧ (9 : BitVec 8) ≠ 0x0A ∧ (seca { resumeUs := some 0 }).sec.resumeUs ≠ none ∧ (seca { rekey := some { num := 1, rA := 3, at_ := 0 } }).sec.rekey ≠ none)
    ∧ ((seca { startedUs := some 8999999 }).sec.startedUs = some 8999999 ∧ 8999999 + 1000000 < (seca {}).us ∧ (seca {}).us ≤ 9000000 + 1000000)
    ∧ (let c (t : Nat) := seca { sec0 with hs := some hk0, repeating := some (t, [1]), repeatUs := 9994999 }
       InLife (mk (c 1)) 0 ∧ (c 1).sec.repeating = some (1, [1]) ∧ (c 1).sec.repeatUs + 5000 < (c 1).us ∧ kaSeal 1 = none
       ∧ (kaSeal 3 = some true ∧ (c 3).sec.hs ≠ none) ∧ (kaSeal 0x10 = some false ∧ (c 0x10).sec.cur ≠ none)
       ∧ (seca { repeating := some (1, [1]), repeatUs := 9995000 }).us ≤ 9995000 + 5000)
    ∧ (let c (t : Nat) := seca { sec0 with next := some ⟨1, 7, t⟩ }
       let s (t : Nat) : State := { mk (c t) with hub := { hubUp with boot := { phase := 2, sealed := true } } }
       InLife (s 0) 0 ∧ (s 0).hub.boot.sealed = true ∧ (c 0).boot.phase = 7 ∧ (c 0).boot.recov = none ∧ (c 0).sec.next = some ⟨1, 7, 0⟩
       ∧ 0 ≤ (c 0).now ∧ (c 1).now < 1 ∧ ({ c 1 with line := { rdy.line with state := .downLof } } : Chan).line.state ≠ .up)
    ∧ ((seca { saddle := some 9999999 }).sec.saddle = some 9999999 ∧ 9999999 < (seca {}).us ∧ (seca {}).us ≤ 10000000) := by
  unfold InLife Opens; and_intros <;> decide +kernel

/-- The two outcomes of a confirmation value are both possible. -/
theorem wit_KeyAgreement_conf (c : Chan) : confA c = confA c ∧ confA c + 1 ≠ confA c := ⟨rfl, ne_succ _⟩

theorem test_kaHelloB_confirmed :
    (seca { phase := .hello }).helloFail (helloConf 0) (some (decide ((helloConf 0).conf = Config.sm2Conf 0 (helloConf 0).point false))) = none := by
  have h := hello_conf (seca { phase := .hello })
  rw [show (decide ((helloConf 0).conf = Config.sm2Conf 0 (helloConf 0).point false)) = true from h]
  decide +kernel

theorem wit_RekeysStopsAndResume :
    (InLife (mk (seca sec0)) 0 ∧ ¬Opens (seca sec0) 2 { seal0 with tagOk := false })
    ∧ (let c := seca { sec0 with phase := .service, txBytes := 2 ^ 60 }
       InLife (mk c) 0 ∧ c.sec.cur = some ep0 ∧ c.isA = true ∧ c.sec.phase = .service ∧ c.sec.saddle = none ∧ c.sec.holdUs = none ∧ c.rekeyDue = true
       ∧ (seca { sec0 with phase := .service }).rekeyDue = false)
    ∧ (let r : Rekey := { num := 1, rA := 3, at_ := 0 }
       InLife (mk (secb sec0)) 0 ∧ Opens (secb sec0) 2 seal0 ∧ (secb sec0).isA = false ∧ (secb sec0).sec.cur = some ep0 ∧ instantOf 0 0 = some 0
       ∧ (2 : BitVec 8) ≠ ep0.num + 1 ∧ (1 : BitVec 8) = ep0.num + 1 ∧ (secb sec0).sec.rekey = none
       ∧ (secb { sec0 with rekey := some r, answer := some (0x11, [1]) }).sec.rekey = some r ∧ r.rA = 3
       ∧ (secb { sec0 with rekey := some r, answer := some (0x11, [1]) }).sec.answer = some (0x11, [1]))
    ∧ (let r : Rekey := { num := 1, rA := 3, at_ := 0 }
       let c := seca { sec0 with rekey := some r }
       InLife (mk c) 0 ∧ Opens c 2 seal0 ∧ c.isA = true ∧ c.sec.cur = some ep0 ∧ c.sec.rekey = some r ∧ r.stage = 1)
    ∧ (let r : Rekey := { num := 1, rA := 3, rB := 4, at_ := 0, stage := 2 }
       let c := secb { sec0 with rekey := some r }
       InLife (mk c) 0 ∧ Opens c 2 seal0 ∧ c.isA = false ∧ c.sec.cur = some ep0 ∧ c.sec.rekey = some r ∧ c.sec.next = none)
    ∧ (let r : Rekey := { num := 1, rA := 3, at_ := 0 }
       let c : Chan := { seca { sec0 with rekey := some r, rekeyFails := 1 } with line := { rdy.line with state := .rxUp } }
       let s : State := { mk c with hub := { hubUp with boot := { phase := 2, sealed := true } } }
       InLife s 0 ∧ s.hub.boot.sealed = true ∧ c.boot.phase = 7 ∧ c.boot.recov = none ∧ c.isA = true ∧ c.sec.cur = some ep0 ∧ c.sec.next = none
       ∧ c.sec.rekey = some r ∧ r.at_ ≤ c.now ∧ c.sec.rekeyFails < 2 ∧ c.line.state ≠ .up)
    ∧ (let c (n : Nat) := seca { sec0 with txBytes := n }
       (c 0).sec.cur.isSome = true ∧ (c 0).sec.stop = false ∧ 2 ^ (c 0).rollLog ≤ (c (2 ^ (c 0).rollLog)).sec.txBytes
       ∧ ¬(2 ^ (c 0).rollLog ≤ (c (2 ^ (c 0).rollLog - 1)).sec.txBytes
            ∨ fld ((c 0).reg 0xA00004) 29 22 * 60000 + 60000 ≤ (c (2 ^ (c 0).rollLog - 1)).ms - (c 0).sec.actMs))
    ∧ ((seca { rngFailUs := some 8999999 }).sec.rngFailUs = some 8999999 ∧ 8999999 + 1000000 < (seca {}).us ∧ (seca {}).us ≤ 9000000 + 1000000)
    ∧ (InLife (mk (seca sec0)) 0 ∧ Opens (seca sec0) 2 seal0 ∧ tsAfter (((1 : BitVec 48).toNat + tsMod - 1) % tsMod) (seca sec0).line.highest = false
      ∧ (0 : BitVec 8) = ep0.num ∧ (9 : BitVec 8) ≠ ep0.num ∧ (∃ p : EpochKeys, (seca { sec0 with prev := some ⟨9, 0, 0, 0, 0, 0⟩ }).sec.prev = some p ∧ p.num = 9)
      ∧ secHolds (seca sec0).sec { seal0 with kepoch := 9 } = false ∧ Opens (seca { sec0 with prev := some ⟨9, 0, 0, 0, 0, 0⟩ }) 2 seal0)
    ∧ (let c : Chan := seca { sec0 with resumeUs := some 5 }
       let d : Chan := { c with boot := { phase := 8, recov := some { step := 9, stepUs := 0, startUs := 0 } } }
       InLife (mk c) 0 ∧ Opens c 2 seal0 ∧ c.sec.resumeUs = some 5 ∧ c.sec.cur = some ep0 ∧ c.boot.recov = none
       ∧ tsAfter (((1 : BitVec 48).toNat + tsMod - 1) % tsMod) c.line.highest = false
       ∧ InLife (mk d) 0 ∧ Opens d 2 seal0 ∧ d.boot.phase = 8 ∧ d.sec.rekey = none ∧ d.boot.recov = some { step := 9, stepUs := 0, startUs := 0 })
    ∧ (let c : Chan := seca { sec0 with resumeUs := some 9000000 }
       let d : Chan := seca { sec0 with resumeUs := some 10000000 }
       c.sec.resumeUs = some 9000000 ∧ 9000000 + 2 * c.rttUs + 100000 < c.us ∧ d.sec.resumeUs = some 10000000
       ∧ d.us ≤ 10000000 + 2 * d.rttUs + 100000) := by
  unfold InLife Opens
  refine ⟨by and_intros <;> decide +kernel, by and_intros <;> decide +kernel, by and_intros <;> decide +kernel, by and_intros <;> decide +kernel,
    by and_intros <;> decide +kernel, by and_intros <;> decide +kernel, by and_intros <;> decide +kernel, by and_intros <;> decide +kernel, ?_,
    by and_intros <;> decide +kernel, by and_intros <;> decide +kernel⟩
  refine ⟨by decide +kernel, by decide +kernel, by decide +kernel, by decide, by decide, ⟨⟨9, 0, 0, 0, 0, 0⟩, rfl, rfl⟩, by decide +kernel, by decide +kernel⟩

/-! ### Provenance and attestation -/

/-- A commit cairn of slot 0, its chain, and job 7's channel with a provenance unit, memory and line up. -/
def crn (kind : Nat) : Cairn := { slot := 0, kind := kind, comm := 3, job := 7, seq := 1, stamp := 0, data := List.replicate 32 0 }
def chn : Chain := { job := 7, next := 5, unsigned := 5, oldestMs := 0 }
def prvc (p : Prov) : Chan := { job7 with mem := { job7.mem with phase := .up }, line := { job7.line with state := .up }, ms := 1000000, prov := p }
def head1 : SpanHead := { job := 7, comm := 3, seq := 1, kind := 1, span := 0 }
def span1 (ps : List (Nat × List Byte)) : Span := { slot := 0, comm := 3, digest := [], pairs := ps }

theorem wit_ProvenanceChain :
    (InPath (mk svc) 0 ∧ svc.memUp = false
      ∧ (let c (k : Nat) := prvc { queue := [crn k], chains := [(0, chn)], spans := [span1 []] }
         InPath (mk (c 1)) 0 ∧ (c 1).memUp = true ∧ (c 1).prov.queue = crn 1 :: [] ∧ (c 1).prov.backlog = [] ∧ (c 1).prov.pending = []
         ∧ RoomForRecord (c 1) ∧ cget? (c 1).prov.chains (crn 1).slot = some chn ∧ chn.unsigned < 1023
         ∧ ({ chn with unsigned := 1022 } : Chain).unsigned < 1023 ∧ (crn 1).kind ∈ [1, 2, 3, 7] ∧ (crn 7).kind ∈ [1, 2, 3, 7] ∧ (crn 5).kind = 5
         ∧ (crn 6).kind = 6 ∧ chn.trig = 0 ∧ ({ chn with trig := 2 } : Chain).trig ≠ 0 ∧ (c 1).prov.wr + 1 < (c 1).prov.rel + (c 1).provCap ∧ (c 1).prov.spans.find? (fun p => p.slot == (crn 1).slot && p.comm == (crn 1).comm) = some (span1 [])))
    ∧ (let c (t : Nat) := prvc { chains := [(15, { chn with oldestMs := t })] }
       InPath (mk (c 0)) 0 ∧ (c 0).prov.chains = [(15, { chn with oldestMs := 0 })] ∧ chn.unsigned ≠ 0
       ∧ 0 + fld ((c 0).reg 0xB00004) 31 24 * 1000 < (c 0).ms ∧ ¬(1000000 + fld ((c 0).reg 0xB00004) 31 24 * 1000 < (c 0).ms) ∧ chn.next ≠ 0)
    ∧ (let h : Chain := { chn with trig := 2, trigLast := 4 }
       let c := prvc { chains := [(15, h)] }
       InPath (mk c) 0 ∧ c.memUp = true ∧ cget? c.prov.chains (15 : Fin 16) = some h ∧ h.trig ≠ 0 ∧ RoomForRecord c ∧ c.line.state = .up
       ∧ c.sec.cur = some ⟨0, 0⟩ ∧ ¬(bitOf h.trig 4 = true) ∧ h.trigLast < h.next ∧ bitOf ({ h with trig := 16 } : Chain).trig 4 = true
       ∧ h.next = h.trigLast + 1)
    ∧ (InPath (mk (prvc {})) 0 ∧ ¬Opens (prvc {}) 3 { seal0 with tagOk := false } ∧ Opens (prvc {}) 3 seal0)
    ∧ (let c (ps : List (Nat × List Byte)) := prvc { spans := [span1 ps], chains := [(0, chn)] }
       (c []).slotOfJob 8 = none ∧ (c []).slotOfJob head1.job.toNat = some 0
       ∧ (c []).prov.spans.find? (fun (x : Span) => x.slot == 0 && x.comm == head1.comm.toNat) = some (span1 [])
       ∧ (span1 [(1, List.replicate 32 0)]).pairs.find? (fun p => p.1 == head1.seq.toNat) = some (head1.seq.toNat, List.replicate 32 0)
       ∧ beBytes 32 head1.span.toNat = List.replicate 32 0 ∧ beBytes 32 ({ head1 with span := 1 } : SpanHead).span.toNat ≠ List.replicate 32 0
       ∧ (span1 []).pairs.find? (fun p => p.1 == head1.seq.toNat) = none ∧ (span1 [(0, [])]).pairs.all (fun p => seqLater head1.seq.toNat p.1) = true
       ∧ (span1 [(2, [])]).pairs.all (fun p => seqLater head1.seq.toNat p.1) = false
       ∧ (span1 [(2, [])]).pairs.find? (fun p => p.1 == head1.seq.toNat) = none ∧ (c []).prov.pending.length < 1024)
    ∧ (let bs : List Byte := beBytes 2 0 ++ beBytes 4 7 ++ List.replicate 120 0
       (prvc {}).slotOfJob (beAt bs 2 4) = some 0 ∧ RoomForRecord (prvc {}))
    ∧ (let c (t : Nat) := prvc { pending := [(head1, t)] }
       InPath (mk (c 0)) 0 ∧ (c 0).prov.pending = [(head1, 0)] ∧ 0 + fld ((c 0).reg 0xB00004) 23 16 * 1000 < (c 0).ms
       ∧ ¬(1000000 + fld ((c 0).reg 0xB00004) 23 16 * 1000 < (c 0).ms))
    ∧ (let c : Chan := { svc with prov := { svc.prov with wr := 5 }, regs := [(0xB00010, 5)] }
       HostUp (mk c) ∧ (mk c).hasWindow 0 = true ∧ (0 : Word).toNat * 4294967296 + (c.reg 0xB00010).toNat ≤ c.prov.wr
       ∧ c.prov.rel ≤ (0 : Word).toNat * 4294967296 + (c.reg 0xB00010).toNat
       ∧ ¬((1 : Word).toNat * 4294967296 + (c.reg 0xB00010).toNat ≤ c.prov.wr)
       ∧ (hb { hubUp with caps := 0x210F0F01 }).hasWindow 7 = false) := by
  unfold InPath HostUp RoomForRecord Opens; and_intros <;> decide +kernel

/-- A signature verifies or does not; the model says which only of the opaque function. -/
theorem wit_ProvenanceChain_sig (d : BitVec 256) (bs : List Byte) (x : BitVec 512) :
    Config.sm2Verify d bs x = true ∨ Config.sm2Verify d bs x = false := by cases Config.sm2Verify d bs x <;> simp

/-- The hub with a responder. -/
def spdmS (p : Spdm) : State := hb { hubUp with spdm := p }

theorem wit_SpdmResponder :
    (hb { hubUp with failed := true }).hub.failed = true ∧ (hb {}).hub.host.mode = .down ∧ (hb { hubUp with boot := {} }).hub.boot.phase = 0
    ∧ (spdmS {}).hub.failed = false ∧ (spdmS {}).hub.host.mode ≠ .down ∧ (spdmS {}).hub.boot.phase ≠ 0
    ∧ (spdmS {}).hub.spdm.stage = 0 ∧ (spdmS { stage := 1 }).hub.spdm.stage ≠ 0 ∧ (spdmS { stage := 1 }).hub.spdm.stage < 2
    ∧ 2 ≤ (spdmS { stage := 2 }).hub.spdm.stage ∧ (0x11 : BitVec 8) ≠ 0x12 ∧ (0x11 : BitVec 8) ≠ 0x13 ∧ (spdmS { stage := 2 }).hub.spdm.stage ≠ 3
    ∧ (spdmS { stage := 3 }).hub.spdm.stage = 3 ∧ (spdmS { stage := 3 }).hub.slotChain (7 : Fin 8) = none
    ∧ (spdmS { stage := 3, slot1 := [1] }).hub.slotChain (1 : Fin 8) = some [1] ∧ 4 ≤ ([1, 2] : List Nat).length + ([3, 4] : List Nat).length
    ∧ ([1, 2] : List Nat).length + ([3] : List Nat).length < 4
    ∧ (spdmS {}).measurements.filter (fun m => (0x99 : BitVec 8) = 0xFF || m.1 == (0x99 : BitVec 8).toNat) = []
    ∧ ((spdmS {}).measurements.filter (fun m => (0xFF : BitVec 8) = 0xFF || m.1 == (0xFF : BitVec 8).toNat)).length ≠ 0
    ∧ 3 ∈ ({ pendingS := [3] } : Spdm).pendingS ∧ 3 ∉ ({ openS := [3] } : Spdm).pendingS ∧ 3 ∈ ({ openS := [3] } : Spdm).openS
    ∧ 3 ∉ ({ pendingS := [3] } : Spdm).openS := by and_intros <;> decide +kernel

/-! ### Time -/

/-- A channel with a time unit; one that follows MODULE alone, its update due; one that follows PEER. -/
def timc (x : Time) : Chan := { rdy with time := x, us := 1000000, ms := 1000 }
def modc (u : TimeUnit) : Chan := { timc { unit := u } with regs := [(0xC00004, 0x4140640A)] }
def peerc (x : Time) : Chan := { timc x with regs := [(0xC00004, 0x8140640A)] }
def tfr : TimeFrame := { pos36 := true, mark := 5, rxMark := 3, rxStamp := none, state := 0, crcOk := true, arrival := 7 }

theorem wit_ChannelTime :
    (InPath (mk (timc {})) 0 ∧ ({ tfr with crcOk := false } : TimeFrame).crcOk = false ∧ tfr.crcOk = true ∧ tfr.rxStamp = none ∧ tfr.pos36 = true
      ∧ ({ tfr with pos36 := false } : TimeFrame).pos36 = false
      ∧ (let c := peerc { deps := [(3, 100)], lane37 := true }
         let f : TimeFrame := { tfr with rxStamp := some 50 }
         InPath (mk c) 0 ∧ f.crcOk = true ∧ f.pos36 = true ∧ f.rxStamp = some 50 ∧ cget? c.time.deps (markNo f.rxMark (c.atPigtail f / 65536000000)) = some 100 ∧ c.timeSrc = .peer
         ∧ c.time.aligned = false ∧ c.time.unit.everLocked = false ∧ c.time.lane37 = true))
    ∧ (let c : Chan := { timc { unit := { now := 65536000000 } } with regs := [(0x90000C, 0x100)], opt := { tlTx := true } }
       InPath (mk c) 0 ∧ c.timeEn = true ∧ c.opt.tlTx = true ∧ c.time.sentMark < c.time.unit.now / (1000000 * 65536)
       ∧ (timc {}).opt.tlTx = false)
    ∧ (let e : TsEntry := ⟨some 1, some 4, none⟩
       let b : TsBody := { firstMark := 5, count := 1, state := 0, mode := 1, unc := 0, entries := [e] }
       let c := timc { aligned := true, arr36 := [(5, 2)], deps := [(5, 3)] }
       InPath (mk c) 0 ∧ ¬Opens c 1 { seal0 with tagOk := false } ∧ Opens c 1 seal0 ∧ ({ b with count := 0 } : TsBody).count = 0
       ∧ 16 < ({ b with count := 17 } : TsBody).count.toNat ∧ ({ b with entries := [] } : TsBody).entries.length ≠ b.count.toNat ∧ b.count = 1
       ∧ b.entries = [e] ∧ c.time.aligned = true ∧ c.time.frameMode = false ∧ e.dep = some 1 ∧ e.arr37 = some 4 ∧ e.arr36 = none
       ∧ b.mode = 1 ∧ 1 ≤ b.count.toNat ∧ b.count.toNat ≤ 16 ∧ b.entries.length = b.count.toNat
       ∧ ({ b with mode := 2 } : TsBody).mode ≠ (if c.time.frameMode then 2 else 1)
       ∧ cget? c.time.arr36 (markNo b.firstMark c.markRef) = some 2 ∧ cget? c.time.deps (markNo b.firstMark c.markRef) = some 3)
    ∧ ((timc {}).sec.cur = some ⟨0, 0⟩ ∧ (timc {}).time.deps = [] ∧ (timc { deps := [(1, 1)], tsMs := 985 }).ms < 985 + 16
      ∧ (timc { deps := [(1, 1)], tsMs := 984 }).time.deps ≠ [] ∧ (timc { deps := [(1, 1)], tsMs := 984 }).time.tsMs + 16 ≤ (timc {}).ms)
    ∧ ((mk (timc { unit := { updMs := 937 } })).present 0 = true ∧ (timc { unit := { updMs := 937 } }).ms < 937 + 64)
    ∧ (let c (v : Nat) := modc { updMs := 936, state := .locked, src := .module, everLocked := true, voidRun := v }
       OnModule (mk (c 0)) 0 ∧ (c 0).time.unit.state = .locked ∧ (c 0).time.unit.src = .module ∧ (c 0).time.unit.everLocked = true
       ∧ -65536000000000 ≤ -(fld ((c 0).reg 0xC00004) 19 8 * 65536000 : Int) - 1
       ∧ (c 1).time.unit.voidRun < 2 ∧ 2 ≤ (c 2).time.unit.voidRun)
    ∧ (let c (st : TState) (n : Nat) := modc { updMs := 936, state := st, src := .module, lockRun := n, primRun := n }
       OnModule (mk (c .acquire 63)) 0 ∧ (c .acquire 63).time.unit.everLocked = false ∧ (c .acquire 63).time.unit.state = .acquire
       ∧ (c .acquire 63).time.unit.src = .module ∧ 63 ≤ (c .acquire 63).time.unit.lockRun ∧ (c .acquire 62).time.unit.lockRun < 63
       ∧ (c .freerun 15).time.unit.state = .freerun ∧ 15 ≤ (c .freerun 15).time.unit.primRun ∧ (c .freerun 14).time.unit.primRun < 15
       ∧ (0 : Int) < fld ((c .acquire 0).reg 0xC00004) 27 20 * 65536 / 10)
    ∧ (InLife (mk (timc {})) 0 ∧ ({ timc {} with regs := [(0x90000C, 0)] } : Chan).timeEn = false ∧ (timc {}).time.frameMode = false ∧ (timc { frameMode := true }).time.frameMode = true
      ∧ ({ timc { laneUs := 0 } with us := 1000001 } : Chan).time.laneUs + 1000000 < 1000001)
    ∧ (HostUp (mk svc) ∧ HostUp (hb { hubUp with caps := 0x210F0F01 }) ∧ (hb { hubUp with caps := 0x210F0F01 }).hasWindow 7 = false
      ∧ (mk (timc {})).hasWindow 0 = true ∧ (timc {}).boot.phase ≠ 0 ∧ ({} : Chan).boot.phase = 0 ∧ (mk {}).hasWindow 0 = true)
    ∧ ((timc {}).time.unit.jump = none ∧ (timc { unit := { jump := some 5 } }).time.unit.jump = some 5)
    ∧ (let c : Chan := { timc { slots := (Vector.replicate 16 {}).set 14 { armed := true } } with
         fab := { rdy.fab with fenced := 0 }, regs := [(0xC00040, 0x80000001), (0xC00044, 1)] }
       InPath (mk c) 0 ∧ (timc {}).due 14 = false ∧ c.due 14 = true ∧ c.freePort = some 0 ∧ c.subscriber 0 = some cp
       ∧ (∀ k : Nat, k < 8 → 0 < k → c.subscriber k = none) ∧ c.cfg.cpList.contains env7.src = true
       ∧ (∃ k : Nat, k < 8 ∧ c.subscriber k = some env7.src) ∧ ¬(∃ k : Nat, k < 8 ∧ (timc {}).subscriber k = some env7.src) ∧ c.hubLost = false) := by
  unfold InPath InLife Opens OnModule HostUp; and_intros <;> decide +kernel

/-- The 64th small offset in ACQUIRE locks the unit (R439). -/
theorem test_time_locks :
    goes (exec (.timeUpdate (some 0) (some 0)) (mk (modc { updMs := 936, state := .acquire, src := .module, lockRun := 63 })))
      (fun t => (t.chan 0).time.unit.state == .locked) = true := by decide +kernel

/-- A hub with module time, its tick, and the source of TIME.CFG. -/
def gt (src : Nat) (g : GTime) : State :=
  hb { hubUp with gtime := g, ms := 10000, regs := [(0x200004, BitVec.ofNat 32 (src * 2 ^ 28 + 0x00280000)), (0x20001C, 1)] }

theorem wit_ModuleTimeAndPins :
    ((hb { hubUp with failed := true }).hub.failed = true)
    ∧ (let g : GTime := { ppsOk := true, ppsOfs := 65536000, unit := { state := .locked, src := .module, everLocked := true } }
       (gt 0 g).hub.failed = false ∧ (gt 0 g).hub.gtime.unit.updMs + 64 ≤ (gt 0 g).hub.ms ∧ fld ((gt 0 g).hub.reg 0x200004) 31 28 = 0
       ∧ (gt 0 g).hub.gtime.ppsOk = true ∧ (gt 0 g).hub.gtime.unit.state = .locked ∧ (gt 0 g).hub.gtime.unit.src = .module
       ∧ (gt 0 g).hub.gtime.unit.everLocked = true ∧ (gt 0 g).hub.gtime.ppsOfs.natAbs ≤ 65536000
       ∧ fld ((gt 15 g).hub.reg 0x200004) 31 28 = 8 + (7 : Fin 8).val ∧ (gt 15 g).present 7 = true ∧ ((gt 15 g).chan 7).time.unit.state ≠ .locked)
    ∧ ((gt 0 { todArmed := true }).hub.gtime.todArmed = true ∧ (gt 0 {}).hub.gtime.todArmed = false ∧ (gt 0 {}).hub.gtime.todSet = false
      ∧ (gt 0 { todSet := true }).hub.gtime.todSet = true
      ∧ (let off (t : Nat) : Int :=
           if t % 65536000000000 * 2 < 65536000000000 then (t % 65536000000000 : Nat) else ((t % 65536000000000 : Nat) : Int) - 65536000000000
         (off 65536000).natAbs ≤ 65536000 ∧ 65536000 < (off 65536001).natAbs ∧ (off (65536000000000 - 65536000)).natAbs ≤ 65536000))
    ∧ ((gt 0 { ppsLastMs := 8000 }).hub.ms ≤ 8000 + 2000 ∧ (gt 0 { ppsLastMs := 7999 }).hub.gtime.ppsLastMs + 2000 < (gt 0 {}).hub.ms)
    ∧ (let s := gt 0 { unit := { state := .locked } }
       bitOf (s.hub.reg 0x20001C) 0 = true ∧ s.hub.gtime.unit.state ≠ .freerun ∧ s.hub.gtime.lastPps ≠ some 0 ∧ (gt 0 {}).hub.gtime.unit.state = .freerun)
    ∧ (let g (n : Nat) : GTime := { caps := Vector.replicate 4 (List.replicate n 5), lastEdge := Vector.replicate 4 (some 0) }
       (∃ p ∈ vget (g 0).lastEdge 3, 256000 ≤ p + 256000) ∧ ¬(∃ p ∈ vget (g 0).lastEdge 3, 256001 ≤ p + 256000)
       ∧ (vget (g 15).caps 3).length < 16 ∧ 16 ≤ (vget (g 16).caps 3).length)
    ∧ (let s (ns : Word) (g : GTime) : State := hb { hubUp with gtime := g, regs := [(0x200178, ns)] }
       1000000000 ≤ ((s 1000000000 {}).hub.reg (0x200100 + 16 * (7 : Fin 8).val + 8)).toNat
       ∧ ((s 999999999 {}).hub.reg (0x200100 + 16 * (7 : Fin 8).val + 8)).toNat < 1000000000
       ∧ (s 0 { unit := { now := 65536 } }).hub.now = 1 ∧ (s 5 {}).hub.now ≤ 5
       ∧ (let g : GTime := { slots := Vector.replicate 8 { armed := true, at_ := 0, period := 100, width := 2 } }
          (vget (s 0 g).hub.gtime.slots 7).armed = true ∧ (vget (s 0 g).hub.gtime.slots 7).at_ ≤ (s 0 g).hub.now
          ∧ (vget (s 0 {}).hub.gtime.slots 7).armed = false
          ∧ (∀ n : Fin 8, (s 0 g).present n = true → ((s 0 g).chan n).live = true → ((s 0 g).chan n).turn 16 0 = true)
          ∧ (∀ i : Nat, i < 0 → (vget (s 0 g).hub.gtime.slots i).armed = false)
          ∧ (∃ i : Nat, i < 7 ∧ (vget (s 0 g).hub.gtime.slots i).armed = true ∧ (vget (s 0 g).hub.gtime.slots i).at_ = 0)
          ∧ (let c : Chan := timc { slots := (Vector.replicate 16 {}).set 4 { armed := true } }
             (mk c).present 0 = true ∧ c.live = true ∧ 0 ≤ c.now ∧ c.turn 16 0 = false))) := by
  and_intros <;> decide +kernel

/-! ### Partitions, drift and unit health -/

/-- Job 7's channel with a partition state, a time and counts; the same with communicator 3 open and its line up; and slot 0 in Col mode. -/
def prtc (p : Part) : Chan := { job7 with part := p, ms := 100000000, us := 100000000, sec := { rdy.sec with rngOk := true } }
def prtm (r : BitVec 8) (p : Part) : Chan := { colr r with part := p, ms := 100000000, us := 100000000 }
def colSlot (p : Part) : Chan := withSlot (prtc p) 0 { mode := .col, body := adm7, step := 9, owner := some cp }

/-- A PART_EPOCH and a PART_MODE body at an instant of `ns`. -/
def epb (e : BitVec 8) (ns : BitVec 32) : EpochBody := { pepoch := e, windowUs := 0, actS := 0, actNs := ns }
def mob (m o : BitVec 8) (ns : BitVec 32) (rev : BitVec 48) : ModeBody := { mode := m, opts := o, windowUs := 0, actS := 0, actNs := ns, revS := rev, revNs := 0 }
/-- Armed changes. -/
def epx (at_ : Nat) (sd : Option Nat) : EpochChange := { to_ := 1, at_ := at_, windowUs := 0, saddle := sd }
def mdx (at_ : Nat) : ModeChange := { toCol := true, opts := 0, at_ := at_, rev := at_, windowUs := 0 }
/-- A shard of communicator 3 in drift, and an offer of it. -/
def offer (flags : BitVec 8) : OfferBody := { job := 7, comm := 3, shard := 0, index := 0, count := 1, lastSeq := 5, step := 9, n := 1, flags := flags }
def dsh : DriftShard := { slot := 0, comm := 3, shard := 0 }
def lbd : LedgerBody := { comm := 3, lo := 0, cnt := 1, chunks := 1 }

/-- A region 7 that holds bytes from its start on, and the channel with it and one notice of so many bytes. -/
def reg7 (bs : List Byte) : Cells Byte := (bs.zipIdx).foldl (fun (r : Cells Byte) (x : Byte × Nat) => Memory.write r x.2 x.1) []
def notc (bs : List Byte) (ptr n : Word) : Chan :=
  { prtc {} with mem := { job7.mem with phase := .up, region7 := reg7 bs }, ctrl := { job7.ctrl with notices := [(0, #v[ptr, 0, n, 0])] } }
/-- A GEN_SWITCH of job 7 at an instant of 0.0001 s, the head of a package for it from site 2, and one that is cut short. -/
def gsw : List Byte := beBytes 2 0x0011 ++ beBytes 2 0 ++ beBytes 4 7 ++ beBytes 6 0 ++ beBytes 4 100000 ++ beBytes 4 0 ++ beBytes 2 0
def pkg : List Byte := beBytes 4 packMagic ++ [1, 2, 1, 4] ++ beBytes 4 7 ++ beBytes 4 11 ++ beBytes 8 128 ++ beBytes 4 0 ++ List.replicate 100 0

theorem wit_PartitionsAndDrift_requests :
    (JobIn (mk (prtc {})) 0 env7 0 ∧ (epb 2 0).pepoch ≠ ((prtc {}).slot 0).pepoch + 1 ∧ (epb 1 0).pepoch = ((prtc {}).slot 0).pepoch + 1
      ∧ instantOf (epb 1 99999).actS (epb 1 99999).actNs = some 99999 ∧ 99999 < (prtc {}).now + 100000 ∧ (prtc {}).now + 100000 ≤ 100000
      ∧ (epb 1 0).rsvd1 = 0 ∧ (epb 1 0).rsvd14 = 0 ∧ cget? (prtc { epochs := [(0, epx 5 none)] }).part.epochs 0 ≠ none
      ∧ (let m : ModeChange := { mdx 100000 with rev := 200000000 }
         let c := prtc { modes := [(0, m)] }
         JobIn (mk c) 0 env7 0 ∧ c.now + 100000 ≤ 100000 ∧ cget? c.part.modes 0 = some m ∧ 100000 ∈ modeIntervals m
         ∧ c.overlap 100000 0 100000 m.windowUs = true ∧ (∀ i ∈ modeIntervals m, c.overlap 100000000 0 i m.windowUs = false))
      ∧ JobIn (mk (prtc { epochs := [(0, epx 5 none)] })) 0 env7 0 ∧ cget? (prtc {}).part.epochs 0 = none ∧ cget? (prtc {}).part.modes 0 = none)
    ∧ (instantOf (mob 2 0 100000 1).revS (mob 2 0 100000 1).revNs = some 1000000000 ∧ (mob 1 0 0 1).mode = (if ((prtc {}).slot 0).mode = .col then 2 else 1)
      ∧ 100000 + (prtc {}).windowNs (mob 2 0 100000 1).windowUs.toNat + 1000000 ≤ 1000000000 ∧ (prtc {}).drifting 0 = false
      ∧ ((mob 2 1 0 1).mode = 2 ∧ (mob 2 1 0 1).opts.toNat < 2 ∧ ((prtc {}).slot 0).mode = .stage)
      ∧ ((mob 1 7 0 1).mode = 1 ∧ (mob 1 7 0 1).opts.toNat < 8 ∧ ((colSlot {}).slot 0).mode = .col ∧ JobIn (mk (colSlot {})) 0 env7 0))
    ∧ ((3 : BitVec 8) ≠ 1 ∧ (3 : BitVec 8) ≠ 2 ∧ (prtc { epochs := [(0, epx 5 none)] }).part.epochs = [(0, epx 5 none)] ∧ (epx 5 none).saddle = none
      ∧ (prtc { epochs := [(0, epx 5 none)] }).part.modes = [] ∧ JobIn (mk (prtc { modes := [(0, mdx 5)] })) 0 env7 0
      ∧ (prtc { modes := [(0, mdx 5)] }).part.modes = [(0, mdx 5)] ∧ (mdx 5).reverted = false ∧ (mdx 5).acted = false
      ∧ ({ mdx 5 with acted := true } : ModeChange).acted = true)
    ∧ (let c := prtm 1 {}
       JobIn (mk c) 0 env7 0 ∧ c.comm? 0 lbd.comm.toNat = some (comm3 1) ∧ (comm3 1).body.algo = 1 ∧ shardRange lbd.lo.toNat lbd.cnt.toNat = true
       ∧ lbd.cnt = 1 ∧ lbd.rsvd = 0 ∧ 1 ≤ lbd.chunks.toNat ∧ lbd.chunks.toNat ≤ 16777215 ∧ c.ledger? 0 lbd.comm.toNat lbd.lo.toNat = none
       ∧ c.commBusy 0 lbd.comm.toNat = false ∧ c.regionSize 4 ≠ 0 ∧ lowestFree (c.part.ledgers.map Ledger.idx) 4096 = some 0
       ∧ firstFit c.ledgerRuns (c.regionMib 4) (ledgerMib 2 1) = some 1 ∧ firstFit [(1, c.regionMib 4)] (c.regionMib 4) (ledgerMib 2 1) = none)
    ∧ (let b : UnbindBody := { comm := 3, lo := 0, cnt := 1 }
       JobIn (mk (prtm 1 { shards := [dsh] })) 0 env7 0 ∧ (prtm 1 {}).comm? 0 b.comm.toNat ≠ none ∧ shardRange b.lo.toNat b.cnt.toNat = true ∧ b.rsvd = 0
       ∧ (∃ x ∈ (prtm 1 { shards := [dsh] }).part.shards, x.slot = 0 ∧ inShards b x.comm x.shard = true)
       ∧ ¬(∃ x ∈ (prtm 1 {}).part.shards, x.slot = 0 ∧ inShards b x.comm x.shard = true))
    ∧ ((prtm 1 {}).commBusy 0 3 = false ∧ seqLater 0 (comm3 1).lastSeq.toNat = false ∧ seqLater 1 (comm3 1).lastSeq.toNat = true
      ∧ (prtm 1 { shards := [dsh] }).driftShard 0 3 0 = some dsh ∧ dsh.action ≠ some .reload
      ∧ (prtm 1 { shards := [{ dsh with action := some .reload }] }).driftShard 0 3 0 = some { dsh with action := some .reload })
    ∧ (let c (x : DriftShard) := prtm 1 { shards := [x], drifts := [(0, { sinceMs := 0, far := false })] }
       JobIn (mk (c dsh)) 0 env7 0 ∧ (c dsh).startFields 0 start1 = true ∧ start1.step = ((c dsh).slot 0).step ∧ (c dsh).comm? 0 3 = some (comm3 1)
       ∧ (c dsh).group? 0 0 = some grp ∧ (c dsh).commBusy 0 3 = false ∧ start1.seq = (comm3 1).lastSeq + 1
       ∧ ((c dsh).reconPart 0 (comm3 1) 0).1 ≠ 0 ∧ ((c { dsh with action := some .merge }).reconPart 0 (comm3 1) 0) = (0, .merge)
       ∧ codecLossy (comm3 1).body.codec.toNat ≠ 3 ∧ firstGap (c dsh).col.ctxs 0 < 64 ∧ 24 ≤ (c dsh).ctxRes 2 ∧ (c dsh).line.state = .up
       ∧ (c dsh).col.pending = [])
    ∧ ((prtc {}).sec.rngOk = true ∧ (∃ x ∈ (prtc { shards := [dsh] }).part.shards, x.slot = 0) ∧ job7.sec.rngOk = false
      ∧ (let c : Chan := { prtc {} with mem := { job7.mem with phase := .up } }
         JobIn (mk c) 0 env7 0 ∧ (∀ x ∈ c.part.shards, x.slot ≠ 0) ∧ c.memUp = true ∧ (c.package 0).length ≤ c.regionSize 7)) := by
  unfold JobIn Asks InPath; and_intros <;> decide +kernel

theorem wit_PartitionsAndDrift_changes :
    (let f (t : Nat) : Drift := { sinceMs := t, far := true }
     InPath (mk (prtc { drifts := [(0, f 0)] })) 0 ∧ (prtc { drifts := [(0, f 0)] }).part.drifts = [(0, f 0)] ∧ (f 0).far = true ∧ (f 0).limit = false
     ∧ (f 0).sinceMs + 1000 * (prtc {}).driftSecs 0 < (prtc {}).ms ∧ ¬((f 100000000).sinceMs + 1000 * (prtc {}).driftSecs 0 < (prtc {}).ms))
    ∧ (let x : DriftShard := { dsh with mine := some (offer 1) }
       let c := prtm 1 { shards := [x], drifts := [(0, { sinceMs := 0, far := false })] }
       InPath (mk c) 0 ∧ ¬Opens c 4 { seal0 with tagOk := false } ∧ Opens c 4 seal0 ∧ c.holds (offer 0).job = some 0 ∧ c.comm? 0 (offer 0).comm.toNat = some (comm3 1)
       ∧ c.driftShard 0 3 0 = some x ∧ x.mine = some (offer 1) ∧ x.peer = none ∧ x.acked = false ∧ x.action = none
       ∧ cget? c.part.drifts 0 = some { sinceMs := 0, far := false } ∧ c.sec.cur = some ⟨0, 0⟩ ∧ c.part.shards = [x]
       ∧ (let y : DriftShard := { x with peer := some (offer 1), action := some .merge }
          y.peer = some (offer 1) ∧ (offer 1).count = 1 ∧ y.acked = false ∧ y.action = some .merge)
       ∧ c.line.state = .up ∧ x.sentUs + 5000 < c.us ∧ ({ c with us := 5000 } : Chan).us ≤ x.sentUs + 5000)
    ∧ (let c (t : Nat) (sd : Option Nat) := prtc { epochs := [(15, epx t sd)] }
       InLife (mk (c 0 none)) 0 ∧ (c 0 none).part.epochs = [(15, epx 0 none)] ∧ (c 1 none).jobDue 1 = false ∧ (c 0 none).jobDue 0 = true
       ∧ (epx 0 (some 99999999)).saddle = some 99999999 ∧ 99999999 < (c 0 none).us ∧ (c 0 none).us ≤ 100000000 ∧ (c 0 none).col.ctxs = []
       ∧ (let d : Chan := { withSlot (prtc { epochs := [(0, epx 0 (some 5))] }) 0 { mode := .stage, body := adm7, pepoch := 1 } with
            col := { comms := [comm3 1], ctxs := [(0, inst 1)] } }
          InLife (mk d) 0 ∧ 5 < d.us ∧ d.col.ctxs = [(0, inst 1)] ∧ (inst 1).slot = 0 ∧ (inst 1).ending = false ∧ (inst 1).pepoch ≠ (d.slot 0).pepoch
          ∧ d.prov.backlog = [] ∧ d.prov.queue.length < 8))
    ∧ (let c (m : ModeChange) := prtc { modes := [(0, m)] }
       InLife (mk (c (mdx 0))) 0 ∧ (c (mdx 0)).part.modes = [(0, mdx 0)] ∧ (mdx 0).acted = false ∧ (c (mdx 1)).jobDue (mdx 1).at_ = false ∧ (c (mdx 0)).jobDue (mdx 0).at_ = true
       ∧ (mdx 0).toCol = true ∧ (c (mdx 0)).bareSlot 0 = true ∧ ((c (mdx 0)).slot 0).mode = .stage ∧ (c (mdx 0)).prov.backlog = []
       ∧ (c (mdx 0)).prov.queue.length < 8 ∧ ({ mdx 0 with toCol := false } : ModeChange).toCol = false
       ∧ (prtm 1 { modes := [(0, mdx 0)] }).bareSlot 0 = false ∧ InLife (mk (prtm 1 { modes := [(0, mdx 0)] })) 0 ∧ (mdx 0).missed = false
       ∧ (mdx 0).reverted = false ∧ (prtm 1 {}).sec.cur = some ⟨0, 0⟩ ∧ ({ mdx 0 with saddle := some 99999999 } : ModeChange).saddle = some 99999999 ∧ 99999999 < (c (mdx 0)).us ∧ (c (mdx 0)).us ≤ 100000000
       ∧ ({ mdx 0 with acted := true, applied := true, missed := true } : ModeChange).missed = true ∧ (c { mdx 0 with acted := true }).jobDue (mdx 0).rev = true)
    ∧ (InPath (mk (prtc {})) 0 ∧ Opens (prtc {}) 4 seal0 ∧ (prtc {}).holds 7 = some 0 ∧ cget? (prtc {}).part.modes 0 = none
      ∧ cget? (prtc {}).part.unarmed 0 ≠ some ((0 : BitVec 48) ++ (5 : BitVec 32)) ∧ (prtc {}).sec.cur = some ⟨0, 0⟩
      ∧ cget? (prtc { unarmed := [(0, (0 : BitVec 48) ++ (5 : BitVec 32))] }).part.unarmed 0 = some ((0 : BitVec 48) ++ (5 : BitVec 32)))
    ∧ (InPath (mk (prtc {})) 0 ∧ (prtc {}).ctrl.notices = [] ∧ (notc [] 0 0).ctrl.notices = (0, #v[0, 0, 0, 0]) :: [] ∧ (notc [] 0 0).hubLost = false
      ∧ (1 : Fin 8).val * 8589934592 > 0 ∧ (0 : Fin 8).val * 8589934592 ≤ 0 ∧ 0 < (0 : Fin 8).val * 8589934592 + 3221225472
      ∧ ((0 : Fin 8).val + 1) * 8589934592 < 8589934590 + 3 ∧ 0 + 0 ≤ ((0 : Fin 8).val + 1) * 8589934592
      ∧ (let c := notc [5] 0xC0000000 1
         beAt (c.readStage 0 (min 1 4)) 0 4 ≠ packMagic ∧ cutReqs 8192 (c.readStage 0 1) = none ∧ 0 + 1 ≤ c.regionSize 7 ∧ c.memUp = true)
      ∧ (let c := notc (beBytes 4 packMagic) 0xC0000000 4
         beAt (c.readStage 0 (min 4 24)) 0 4 = packMagic ∧ 0 + 4 ≤ c.regionSize 7)
      ∧ InPath (mk (notc gsw 0xC0000000 24)) 0
      ∧ (vget (#v[0xC0000000, 0, 24, 0] : Vector Word 4) 0).toNat + (vget (#v[0xC0000000, 0, 24, 0] : Vector Word 4) 1).toNat * 4294967296
          = (0 : Fin 8).val * 8589934592 + 3221225472 + 0
      ∧ (let c := notc gsw 0xC0000000 24
         0 + 128 ≤ c.regionSize 7 ∧ c.memUp = true ∧ beAt (c.readStage 0 24) 0 2 = 0x0011 ∧ beAt (c.readStage 0 4) 0 4 ≠ packMagic
         ∧ c.stageLost 0 24 = false
         ∧ c.holds (BitVec.ofNat 32 (beAt (c.readStage 0 24) 4 4)) = some 0 ∧ (c.slot 0).mode ≠ .releasing ∧ beAt (c.readStage 0 24) 22 2 = 0
         ∧ c.fab.changes = [] ∧ beAt (c.readStage 0 24) 14 4 < 1000000000
         ∧ c.now + 100000 ≤ beAt (c.readStage 0 24) 8 6 * 1000000000 + beAt (c.readStage 0 24) 14 4)
      ∧ (let c := notc pkg 0xC0000000 128
         let bs := c.readStage 0 128
         c.stageLost 0 128 = false ∧ beAt (c.readStage 0 4) 0 4 = packMagic ∧ beAt bs 0 4 = packMagic ∧ beAt bs 4 1 = 1 ∧ beAt bs 5 1 = c.peerSite
         ∧ beAt bs 6 1 = c.ownSite ∧ beAt bs 16 8 = 128 ∧ beAt bs 24 4 = 0 ∧ c.holds (BitVec.ofNat 32 (beAt bs 8 4)) = some 0
         ∧ (c.slot 0).mode ≠ .releasing)) := by
  unfold InLife InPath Opens; and_intros <;> decide +kernel

/-- A channel with its health state, long after its start. -/
def hlc (x : Hlth) : Chan := { svc with hlth := x, ms := 100000000, us := 100000000 }
def un (cls u : Nat) (x : HUnit) : Hlth := { units := [(64 * cls + u, x)] }
def mism : Mismatch := { stream := 3, unit := 16, first := [1], second := [2], temp := 0, load := 15, us := 99998999 }

theorem wit_UnitHealth :
    (let x : HUnit := { demerit := 400 * 2 ^ 32 }
     InLife (mk (hlc {})) 0 ∧ ({ hlc {} with ms := 59999 } : Chan).ms < ((hlc {}).hlth.decays + 1) * 60000
     ∧ ((hlc (un 5 63 x)).hlth.decays + 1) * 60000 ≤ (hlc {}).ms ∧ (hlc (un 5 63 x)).hlth.units = [(64 * 5 + 63, x)] ∧ x.st = .healthy ∧ 600 ≤ unitScore x)
    ∧ (let t : HUnit := { st := .testing }
       let h : HUnit := { st := .held, demerit := 701 * 2 ^ 32, askedMs := 99939999 }
       let low : Hlth := { units := (List.range 16).map fun v => (64 + v, if v = 0 then t else { st := .fenced }) }
       let c := hlc (un 1 0 t)
       ((hlc {}).unit 1 0).st ≠ .testing ∧ (c.unit 1 0).st = .testing ∧ c.hlth.granted = [] ∧ ¬(c.standing 1 0 < c.floor 1)
       ∧ ¬(fld (c.reg 0xD00000) 31 28 ≤ c.recentFences 1) ∧ (hlc low).standing 1 0 < (hlc low).floor 1 ∧ ((hlc low).unit 1 0).st = .testing
       ∧ (let d := hlc { un 1 0 t with fences := List.replicate 15 (1, 100000000) }
          ¬(d.standing 1 0 < d.floor 1) ∧ fld (d.reg 0xD00000) 31 28 ≤ d.recentFences 1)
       ∧ (let d := hlc (un 1 0 h)
          (d.unit 1 0).st = .held ∧ (d.unit 1 0).askedMs + 60000 < d.ms ∧ unitScore (d.unit 1 0) < 300 ∧ ¬(d.standing 1 0 < d.floor 1)
          ∧ 300 ≤ unitScore { h with demerit := 700 * 2 ^ 32 } ∧ d.ms ≤ ({ h with askedMs := 99940000 } : HUnit).askedMs + 60000))
    ∧ (let c (t : Nat) (r : Option Nat) := hlc { un 1 15 { readmitMs := r } with granted := [⟨1, 15, t⟩] }
       InLife (mk (c 0 none)) 0 ∧ (c 0 none).hlth.granted = [⟨1, 15, 0⟩] ∧ (c 100000000 none).us ≤ 100000000 ∧ 99999999 < (c 0 none).us
       ∧ (∀ v : Nat, v < 17 → v ≠ 15 → unitOut ((c 0 none).unit 1 v) = false) ∧ cget? (c 0 none).hlth.spare 1 = none
       ∧ ((c 0 (some 13600000)).unit 1 15).readmitMs = some 13600000 ∧ 13600000 + 86400000 ≤ (c 0 none).ms ∧ (c 0 none).ms < 13600001 + 86400000)
    ∧ (let x (p : Nat) : HUnit := { st := .fenced, passes := p, fencedMs := 98199999 }
       let c (p : Nat) := hlc { un 1 15 (x p) with spare := [(1, 15)] }
       InLife (mk (c 0)) 0 ∧ ((c 0).unit 1 15).st = .fenced ∧ ((c 0).unit 1 15).fencedMs + 900000 * (((c 0).unit 1 15).passes + 1) < (c 0).ms
       ∧ ((c 1).unit 1 15).fencedMs + 900000 * (((c 1).unit 1 15).passes + 1) < (c 1).ms ∧ 1 ≤ ((c 1).unit 1 15).passes
       ∧ (∀ v : Nat, v < 17 → v ≠ 15 → unitOut ((c 1).unit 1 v) = false) ∧ ((hlc {}).unit 1 15).st ≠ .fenced)
    ∧ ((hlc {}).streamOn ((mk (hlc {})).mtxPresent 0) 3 = true ∧ (hlc { spare := [(2, 0)] }).streamOn ((mk (hlc {})).mtxPresent 0) 3 = false)
    ∧ ((hlc {}).hlth.mismatches = [] ∧ (hlc { mismatches := [mism] }).hlth.mismatches = mism :: [] ∧ mism.stream < 4 ∧ mism.unit < 17 ∧ mism.first ≠ mism.second
      ∧ ([3] : List Byte) ≠ mism.first ∧ ([3] : List Byte) ≠ mism.second ∧ mism.us + 1000 < (hlc {}).us
      ∧ (hlc {}).us ≤ ({ mism with us := 99999000 } : Mismatch).us + 1000) := by
  unfold InLife; and_intros <;> decide +kernel

/-- A self-test that passes sets D to 450 (R499). -/
theorem test_selftest_passes :
    goes (exec (.targetedSelftestDone 0 1 0 true) (mk (hlc (un 1 0 { st := .testing }))))
      (fun t => ((t.chan 0).unit 1 0).demerit == 450 * 2 ^ 32 && ((t.chan 0).unit 1 0).st == .suspect) = true := by decide +kernel

/-- No transmit pipeline but the 15th is out, of all that a number may name. -/
theorem wit_UnitHealth_others (x : HUnit) (v : Nat) (h : v ≠ 15) : unitOut ((hlc (un 1 15 x)).unit 1 v) = false := by
  simp [Chan.unit, hlc, un, unitKey, cget, unitOut, show ¬(64 + 15 = 64 + v) by omega]

/-! ### Start-up, recovery and power states -/

/-- A hub that has just seen power good; a hub that runs an image; an image no hub takes. -/
def pgood : Hub := { failed := false, pwr := { pwrgd := true } }
def ran (b : HubBoot) : Hub := { hubUp with boot := { b with phase := 2 } }
def badImg : ImageIn := {}
/-- What the steps find, with the last one that ends. -/
def ends (k : Nat) : StepFacts := { ends := k }
/-- A channel with a boot state, long after its start. -/
def btc (b : Boot) : Chan := { rdy with boot := b, us := 100000000, ms := 100000 }
def held1 : Chan := btc { phase := 1, hold := true }

theorem wit_StartUp :
    ((hb hubUp).hub.boot.phase ≠ 0 ∧ (hb { pgood with pwr := {} }).hub.pwr.pwrgd = false
      ∧ (let s := hb pgood
         s.hub.failed = false ∧ s.hub.pwr.pwrgd = true ∧ s.hub.boot.phase = 0 ∧ fld (0 : BitVec 4) 1 0 = 0 ∧ (0 : BitVec 4).getLsbD 3 = false
         ∧ s.imageReason badImg ≠ 0 ∧ (∀ n : Fin 8, (vget (Vector.replicate 8 (ends 1)) n).ends ≤ 1)
         ∧ regRecords (imgOfType badImg 0x11) = []))
    ∧ ((mk held1).hub.failed = false ∧ (mk held1).present 0 = true ∧ ((mk held1).chan 0).boot.hold = true ∧ bitOf (1 : Word) 0 = true
      ∧ (∀ m : Fin 8, m ≠ 0 → bitOf (1 : Word) m = false) ∧ (ends 2).ends ≤ 2 ∧ 3 ≤ (ends 3).ends ∧ held1.poolBad = false
      ∧ ({ held1 with regs := [(0x20001C, 0)] } : Chan).poolBad = false ∧ ({ held1 with regs := [(0x20001C, 0xFFFFFFFF)] } : Chan).poolBad = true
      ∧ ({ ends 3 with stagesOk := false } : StepFacts).stagesOk = false ∧ ({ ends 3 with core0 := false, core1 := false } : StepFacts).core1 = false
      ∧ 4 ≤ (ends 4).ends ∧ (ends 4).core0 = true ∧ (held1.unit 5 0).st ≠ .permanent ∧ (ends 4).badUnits = [] ∧ held1.layoutBad = false
      ∧ ({ held1 with regs := [(0x300100, 0)] } : Chan).layoutBad = true ∧ ({ ends 4 with trained := 0x7FFF } : StepFacts).trained ≠ BitVec.allOnes 16
      ∧ (ends 4).trained = BitVec.allOnes 16
      ∧ held1.planBad = false ∧ ({ held1 with regs := [(0x900008, 0)] } : Chan).planBad = true)
    ∧ (let c (l : Bool) := btc { phase := 3, late := l, stepUs := 0 }
       (mk (c true)).present 0 = true ∧ 1 ≤ (c true).boot.phase ∧ (c true).boot.phase ≤ 6 ∧ (c true).boot.hold = false
       ∧ ¬((c true).boot.phase = 4) ∧ ¬((c true).boot.phase = 5)
       ∧ (c true).boot.stepUs + 2 * (c true).startBound ((mk (c true)).hub.retiredOf 0).length < (c true).us ∧ (c true).boot.late = true
       ∧ (c false).boot.late = false ∧ (ends 3).ends ≤ 3 ∧ ¬((btc { phase := 3, stepUs := 99400000 }).boot.stepUs + 2 * (c true).startBound 0 < 100000000)
       ∧ (btc { phase := 5 }).boot.phase = 5 ∧ (btc { phase := 5 }).peerLit = false)
    ∧ (let s : State := { hub := ran { advance := true, fuseSvn := 3, imgSvn := 4 }, chans := Vector.replicate 8 (btc { phase := 7, served := true }) }
       s.hub.failed = false ∧ (∀ n : Fin 8, s.present n = true → (s.chan n).boot.served = true) ∧ s.hub.boot.advance = true ∧ s.hub.boot.phase = 2
       ∧ s.hub.boot.fuseSvn < s.hub.boot.imgSvn ∧ ¬((hb hubUp).hub.boot.advance = true))
    ∧ (let s (p : Nat) (cause : Nat) (hot : BitVec 8) : State := { mk (btc { phase := p, cause := cause }) with
         hub := { ran {} with pwr := { pwrgd := true, hot := hot } } }
       (s 11 0 0).hub.failed = false ∧ (s 11 0 0).hub.boot.phase = 2 ∧ (s 11 0 0).present 0 = true ∧ ((s 11 0 0).chan 0).boot.phase = 11
       ∧ ((s 0 5 1).chan 0).boot.phase = 0 ∧ ((s 0 5 1).chan 0).boot.cause = 5 ∧ bitOf (s 0 5 1).hub.pwr.hot 0 = true
       ∧ bitOf (s 0 5 0).hub.pwr.hot 0 = false ∧ ((s 7 0 0).chan 0).boot.phase ∉ [0, 11] ∧ ((s 11 0 0).chan 0).oldEvr = none
       ∧ (let c (t : Nat) : Chan := { btc { phase := 11 } with oldEvr := some ⟨{}, 0, t⟩ }
          (mk (c 0)).hub.boot.phase = 2 ∧ (c 90000).boot.phase = 11 ∧ (c 90000).oldEvr = some ⟨{}, 0, 90000⟩ ∧ (c 90000).ms ≤ 90000 + 10000
          ∧ 89999 + 10000 < (c 89999).ms)) := by
  and_intros <;> decide +kernel

/-- R523: with no image that can be taken, no channel starts. -/
theorem test_no_image :
    goes (exec (.powerGoodStart { primary := badImg, golden := badImg }) (hb pgood)) (fun t => t.hub.boot.phase == 3 && t.chan 0 == {}) = true := by
  decide +kernel

/-- A channel in recovery at a step, and one in a power state. -/
def rec1 (k : Nat) : Recov := { step := k, stepUs := 99990000, startUs := 99990000 }
def rcv (k : Nat) : Chan := btc { phase := 8, recov := some (rec1 k) }
def rcvh (k : Nat) : Chan := btc { phase := 8, held := true, recov := some (rec1 k) }
def memAt (c : Chan) (p : MemPhase) : Chan := { c with mem := { c.mem with phase := p } }
def portsAt (c : Chan) (p : Port) : Chan := { c with fab := { c.fab with ports := Vector.replicate 4 p } }
def pwr (b : Boot) : Chan := btc { b with phase := 7 }
def dma : DmaReq := { write := true, addr := 0x1000, len := 64 }

theorem wit_RecoveryAndPower :
    ((mk svc).present 0 = true ∧ (ph 2).boot.phase < 3 ∧ 8 < (ph 9).boot.phase ∧ 3 ≤ (ph 3).boot.phase ∧ (ph 8).boot.phase ≤ 8 ∧ (ph 8).boot.phase ≠ 7
      ∧ svc.boot.phase = 7 ∧ svc.recentRecovs.length < fld (svc.reg 0xC) 7 0
      ∧ (let c := btc { phase := 7, recovs := List.replicate 255 99999 }
         fld (c.reg 0xC) 7 0 ≤ c.recentRecovs.length ∧ c.boot.phase = 7))
    ∧ ((ph 10).boot.phase = 10 ∧ (ph 0).boot.phase = 0 ∧ (ph 11).boot.phase = 11
      ∧ (btc { phase := 8, recov := some { step := 1, stepUs := 0, startUs := 0 } }).recovLate = true ∧ (rcv 9).recovLate = false
      ∧ (btc { phase := 8, recov := some { step := 9, stepUs := 0, startUs := 95999999 } }).boot.recov = some { step := 9, stepUs := 0, startUs := 95999999 }
      ∧ 95999999 + 4000000 < (rcv 9).us ∧ (rcv 9).us ≤ 96000000 + 4000000
      ∧ HostUp (mk svc) ∧ (mk svc).hasWindow 0 = true ∧ HostUp (hb { hubUp with caps := 0x210F0F01 })
      ∧ (hb { hubUp with caps := 0x210F0F01 }).hasWindow 7 = false)
    ∧ ((rcv 1).boot.phase = 8 ∧ (rcv 1).boot.recov = some (rec1 1) ∧ (rec1 1).relockUs = none ∧ (memAt (rcv 2) .up).mem.phase = .up
      ∧ (memAt (rcv 2) .off).mem.phase = .off ∧ (rcvh 3).boot.held = true ∧ (rcvh 3).opt.safeTrip = false ∧ (rcvh 3).inProgress = []
      ∧ (∀ k : Nat, k < 16 → ((rcvh 3).slot k).pend = none) ∧ ({ rcv 4 with hubLost := true } : Chan).hubLost = true ∧ (rcv 4).hubLost = false
      ∧ ({ stagesOk := false } : RecovFacts).stagesOk = false
      ∧ ({} : RecovFacts).stagesOk = true ∧ ({} : RecovFacts).core0 = true ∧ ((rcv 5).unit 5 0).st ≠ .permanent ∧ ({} : RecovFacts).badUnits = []
      ∧ (memAt (rcv 6) .failed).mem.phase = .failed ∧ (∃ p : Fin 4, ((portsAt (rcv 7) { state := .training }).port p).state ≠ .up ∧ ((portsAt (rcv 7) { state := .training }).port p).state ≠ .down)
      ∧ (∀ p : Fin 4, ((portsAt (rcvh 7) upPort).port p).state = .up ∨ ((portsAt (rcvh 7) upPort).port p).state = .down)
      ∧ ({ rcv 9 with sec := {} } : Chan).sec.cur = none ∧ (rcv 9).sec.cur.isSome = true ∧ (rcv 9).sec.resumeUs = none
      ∧ ({ rcv 9 with sec := { sec0 with phase := .service } } : Chan).sec.phase = .service)
    ∧ ((ph 2).watched = false ∧ (ph 3).watched = true ∧ (ph 8).watched = true ∧ svc.boot.spareOk = true
      ∧ (btc { phase := 7, spareOk := false }).boot.spareOk = false ∧ (btc { phase := 7, spareOk := false }).recentRecovs.length < fld (svc.reg 0xC) 7 0
      ∧ fld (svc.reg 0xC) 7 0 ≤ (btc { phase := 7, recovs := List.replicate 255 99999, spareOk := false }).recentRecovs.length
      ∧ (btc { phase := 3, spareOk := false }).boot.phase ≠ 7 ∧ (btc { phase := 3, spareOk := false }).watched = true)
    ∧ (let c (t : Option Nat) := btc { phase := 7, ckptMs := t }
       InLife (mk (c none)) 0 ∧ (c (some 0)).boot.ckptMs = some 0 ∧ 0 + fld ((c none).reg 0xC) 15 8 ≤ (c none).ms
       ∧ ¬(100000 + fld ((c none).reg 0xC) 15 8 ≤ (c none).ms))
    ∧ (InPath (mk (pwr {})) 0 ∧ 3 < (4 : BitVec 8).toNat ∧ (3 : BitVec 8).toNat ≤ 3 ∧ (pwr {}).isA = true
      ∧ ({ pwr {} with cfg := { rdy.cfg with site := 3 } } : Chan).isA = false ∧ instantOf 0 5 = some 5 ∧ 5 ≠ 0)
    ∧ ((pwr { pst := 1 }).boot.pst ≠ 0 ∧ (pwr { offerMs := 99901 }).ms < 99901 + 100 ∧ (pwr {}).boot.pst = 0 ∧ (pwr { offerMs := 99900 }).boot.offerMs + 100 ≤ (pwr {}).ms
      ∧ (pwr {}).wantState = 0 ∧ ({ pwr {} with regs := [(8, 0x7FFF0000)] } : Chan).wantState = 3 ∧ (pwr { entryAt := some 5 }).boot.entryAt ≠ none
      ∧ job7.occupied ≠ [] ∧ (pwr { peerMs := some 99699 }).boot.peerMs = some 99699 ∧ 99699 + 300 < (pwr {}).ms ∧ (pwr {}).ms ≤ 99700 + 300
      ∧ (pwr { entryAt := some 1 }).now < 1 ∧ 0 ≤ (pwr { entryAt := some 0 }).now ∧ min (pwr {}).boot.offer (pwr {}).boot.peerOffer = 0
      ∧ min (pwr { offer := 3, peerOffer := 1 }).boot.offer (pwr { offer := 3, peerOffer := 1 }).boot.peerOffer ≠ 0
      ∧ ¬(min (pwr { offer := 3, peerOffer := 3 }).boot.offer (pwr { offer := 3, peerOffer := 3 }).boot.peerOffer = 3 ∧ (pwr {}).mem.spill ≠ [])
      ∧ ({ (pwr {}).mem with spill := [(0, default)] } : Mem).spill ≠ [])
    ∧ ((pwr { pst := 3 }).boot.pst ≠ 0 ∧ (pwr { pst := 3 }).boot.pst ≠ 4 ∧ (pwr { pst := 4 }).boot.pst = 4 ∧ wakeLatency 3 ≤ fld (25000 * 65536 : Word) 31 16
      ∧ fld (24999 * 65536 : Word) 31 16 < wakeLatency 3)
    ∧ (let c : Chan := { btc { phase := 7 } with regs := [(0x300, 0x1000), (0x308, 1), (0x30C, 2)] }
       (hb { hubUp with caps := 0x210F0F01 }).present 7 = false ∧ (ph 0).live = false ∧ InLife (mk c) 0 ∧ (mk c).hub.failed = false ∧ c.dmaOk dma = true
       ∧ c.boot.dmaQ = [] ∧ 0 < c.boot.dmaBucket ∧ (btc { phase := 7, dmaBucket := 0 }).boot.dmaBucket ≤ 0 ∧ c.dmaOk { dma with write := false } = false
       ∧ c.dmaOk { dma with addr := 0x1FC1 } = false ∧ c.hubLost = false) := by
  unfold InLife InPath HostUp; and_intros <;> decide +kernel

/-- Step 4 of a recovery finds its sections as they were, or not. -/
theorem wit_RecoveryAndPower_image (x : ChanImg) :
    (let c : Chan := btc { phase := 8, recov := some (rec1 4), fwDigest := imgFw x, secDigest := imgSec x }
     c.hubLost = false ∧ imgFw x = c.boot.fwDigest ∧ imgSec x = c.boot.secDigest)
    ∧ imgFw x ≠ (btc { phase := 8, recov := some (rec1 4), fwDigest := imgFw x + 1 }).boot.fwDigest :=
  ⟨⟨rfl, rfl, rfl⟩, (ne_succ _).symm⟩

/-- R541: the last byte of a window may be reached, and one past it may not. -/
theorem test_dma_window :
    let c : Chan := { btc { phase := 7 } with regs := [(0x300, 0x1000), (0x308, 1), (0x30C, 2)] }
    c.dmaOk { dma with addr := 0x1FC0 } = true ∧ c.dmaOk { dma with addr := 0x1FC1 } = false := by decide +kernel


/-! ### Host port -/

/-- A channel whose deep buffer is up, the hub with every window open, and a channel mailbox route. -/
def hdmc : Chan := { svc with mem := { svc.mem with phase := .up } }
def hdmS (c : Chan) (h : HostPort) : State := { mk c with hub := { hubUp with regs := [(0xC, 0xFFFFFF)], host := h } }
def cxlUp : HostPort := hubUp.host
/-- The hub with H2D mailbox 0 and D2H mailbox 0 as given, at 100 ms, and route register 0 as given. -/
def mbx (m d : Mailbox) (route : Word) : State :=
  { mk svc with hub := { hubUp with ms := 100, regs := [(0x500000, 0x000A0000), (0x500100, route)], host := { cxlUp with h2d := vset cxlUp.h2d 0 m, d2h := vset cxlUp.d2h 0 d } } }
def box1 : Mailbox := { full := true, sinceMs := 89 }

theorem wit_HostPortCommands :
    ((hb { hubUp with failed := true }).hub.failed = true ∧ (hb hubUp).hub.failed = false ∧ (hb pgood).hub.pwr.pwrgd = true
      ∧ (hb { hubUp with pwr := {} }).hub.pwr.pwrgd = false ∧ (8 : Fin 17).val = 8 ∧ ¬((4 : Fin 17).val = 16 ∨ (4 : Fin 17).val = 8) ∧ (6 : Fin 7).val = 6
      ∧ (mbx box1 box1 0).hub.host.h2d[0].full = true ∧ (mbx box1 box1 0).hub.host.d2h[0].full = true)
    ∧ (let s := hdmS hdmc cxlUp
       ((0 : BitVec 30).toNat * 64 = 8589934592 * (0 : Fin 8).val + 0 ∧ (0x7FFFFFF : BitVec 30).toNat * 64 = 8589934592 * (0 : Fin 8).val + 0x1FFFFFFC0
         ∧ (0x8000000 : BitVec 30).toNat * 64 = 8589934592 * (1 : Fin 8).val + 0 ∧ (0x1FFFFFFC0 : Nat) < 8589934592)
       ∧ (hdmS hdmc {}).hub.host.mode ≠ .cxl ∧ s.hub.host.mode = .cxl
       ∧ (sliceMap 0 = (5, 0) ∧ sliceMap 0x7FFFFFC0 = (5, 0x7FFFFFC0) ∧ sliceMap 0x80000000 = (6, 0) ∧ sliceMap 0xC0000000 = (7, 0)
         ∧ sliceMap 0x1FFFFFFC0 = (7, 0x13FFFFFC0))
       ∧ s.present 0 = true ∧ bitOf (s.hub.reg 0xC) (3 * 0 + 5 - 5) = true ∧ bitOf (s.hub.reg 0xC) (3 * 0 + 7 - 5) = true
       ∧ 65536 < hdmc.mapped 5 ∧ 0 < hdmc.mapped 6 ∧ 0 < ({ hdmc with regs := [(0x30011C, 0x4000)] } : Chan).mapped 7 ∧ ¬(0x13FFFFFC0 < hdmc.mapped 7)
       ∧ hdmc.hdmOff = false ∧ svc.hdmOff = true ∧ hdmc.badUnits 5 = [] ∧ hdmc.badUnits 6 = [] ∧ 65536 < hdmc.mapped 6
       ∧ (∀ l ∈ linesOf (hdmc.regionBase 5 + 65536) 64, hdmc.lineBad l = false)
       ∧ (let l := (hdmc.regionBase 5 + 65536) / 32
          let c : Chan := { hdmc with mem := { hdmc.mem with lost := [l] } }
          c.hdmOff = false ∧ ∃ l ∈ linesOf (c.regionBase 5 + 65536) 64, c.lineBad l = true)
       ∧ (let c : Chan := { hdmc with evr := { hdmc.evr with hist := [(0, .lost 1 2 .warn)] } }
          cget? c.evr.hist ((65536 - 65536) / 256) = some (.lost 1 2 .warn))
       ∧ (hb { hubUp with caps := 0x210F0F01 }).present 7 = false)
    ∧ ((0x80000000 : Word).getLsbD 31 = true ∧ (0 : Word).getLsbD 31 = false ∧ (vget (mbx box1 {} 0).hub.host.h2d (0 : Fin 32).val).full = true
      ∧ (vget (mbx {} {} 0).hub.host.h2d (0 : Fin 32).val).full = false)
    ∧ ((mbx box1 {} 0).route (0 : Fin 32).val = .none ∧ (mbx box1 {} 0x10000000).route (0 : Fin 32).val = .hubFw
      ∧ (mbx box1 {} 0x20000000).route (0 : Fin 32).val = .chFw (0 : Fin 8) ∧ (mbx box1 {} 0x30000000).route (0 : Fin 32).val = .sequencer (0 : Fin 8)
      ∧ ((mbx box1 {} 0x30000000).chan 0).inPath = true ∧ (mbx box1 {} 0x20000000).hub.host.mode = .cxl
      ∧ bitOf (vget box1.words 3) 15 = false ∧ (hb { hubUp with host := { hubUp.host with mode := .pcieOnly } }).hub.host.mode ≠ .cxl
      ∧ bitOf (vget ({ box1 with words := #v[0, 0, 0, 0x8000] } : Mailbox).words 3) 15 = true)
    ∧ ((mbx {} {} 0x10000000).partyUp .hubFw = true ∧ (mbx {} {} 0).route (0 : Fin 32).val ≠ .hubFw ∧ (mbx {} {} 0x20000000).partyUp (.chFw 0) = true
      ∧ (vget (mbx {} box1 0x10000000).hub.host.d2h (0 : Fin 32).val).full = true ∧ (vget (mbx {} {} 0x10000000).hub.host.d2h (0 : Fin 32).val).full = false)
    ∧ (let full : Mailbox := { box1 with sinceMs := 90 }
       let timeout := fld ((mbx {} {} 0).hub.reg 0x500000) 31 16
       box1.sinceMs + timeout < (mbx box1 box1 0).hub.ms ∧ (mbx full full 0).hub.ms ≤ full.sinceMs + timeout)
    ∧ (let v : Viol := { source := .fabric, ch := 0, kind := .readOnly, addr := 8 }
       let c (l : Nat) : Chan := { svc with viols := [v], violLost := l }
       (mk svc).present 0 = true ∧ ((mk svc).chan 0).violLost = 0 ∧ ((mk svc).chan 0).viols = [] ∧ ((mk (c 0)).chan 0).viols = v :: [] ∧ (c 3).violLost ≠ 0)
    ∧ ((spdmS {}).hub.spdm.openS.contains 1 = false ∧ (spdmS { openS := [1] }).hub.spdm.openS.contains 1 = true ∧ (spdmS {}).hub.host.mode ≠ .down
      ∧ (hb { hubUp with host := {} }).hub.host.mode = .down) := by
  and_intros <;> decide +kernel

/-- A write to a sealed window of region 7 keeps the bytes whose enables are off (R556). -/
theorem test_hdm_write :
    goes (exec (.hdmAccess 0x3000000 (some (Vector.ofFn fun i => if i = 1 then some 0xAB else none)))
        (hdmS { hdmc with regs := [(0x30011C, 0x4000)] } cxlUp))
      (fun t => (t.chan 0).mem.region7 == [(1, 0xAB)] && t.hub.host.hdm == .written) = true := by decide +kernel


/-! ### Event recorder -/

/-- A channel with a recorder, its memory up or not; a raised event; a record; the hub with a recorder. -/
def evc (p : MemPhase) (r : Recorder) : Chan := { svc with ms := 5000, mem := { svc.mem with phase := p }, evr := r }
def evh (r : Recorder) : State := hb { hubUp with evr := r }
def raised (e : Ev) : Raised := { ev := e }
def rcd (q : Nat) (s : Sev) : EvtRec := { rseq := q, sev := s, code := 0x502, stamp := 0, unc := 0, ch := 0, reps := 0, body := raised .codecRecode }
/-- A channel whose second turns at 3601 s, 1 ms after or less, with one open window. -/
def winc (late : Nat) (k : Nat) (w : MetricWin) : Chan :=
  { evc .up { closedS := 3599, openW := [(k, w)] } with
    time := { svc.time with unit := { svc.time.unit with now := (3601 * 1000000000 + late) * 65536 }
                            slots := vset svc.time.slots 3 { at_ := 3601 * 1000000000, armed := true } } }
/-- A module in which channel 0 seals, its area's head sector holding `pages` pages. -/
def seals (r : Recorder) (run : Option Nat) (q : List Nat) (pages : Nat) : State :=
  { mk (evc .up r) with hub := { hubUp with sealing := run, sealQ := q
                                            areas := vset hubUp.areas 0 { sectors := [(0, { sseq := some 0, pages := List.replicate pages none })] } } }

theorem victim_replicate (r : Recorder) (s : Sev) (p : Nat × EvtRec) (n : Nat) (hr : r.ring = List.replicate (n + 1) p)
    (h : sevNum p.2.sev ≤ sevNum s) (hf : p.2.sev ≠ .fatal) : victimSlot r s = some p := by
  have key : ∀ m : Nat, (List.replicate m p).foldl (fun (best : Option (Nat × EvtRec)) p =>
      if sevNum p.2.sev ≤ sevNum s && decide (p.2.sev ≠ .fatal) then
        match best with
        | some b => if rseqAge r.rseq b.2.rseq < rseqAge r.rseq p.2.rseq then some p else best
        | none => some p
      else best) (some p) = some p := by
    intro m
    induction m with
    | zero => rfl
    | succ m ih => rw [List.replicate_succ, List.foldl_cons, if_pos (by simp [h, hf])]; simp only [ite_self]; exact ih
  unfold victimSlot
  rw [hr, List.replicate_succ, List.foldl_cons, if_pos (by simp [h, hf])]
  exact key n

/-- A full ring: of FATAL records alone, and of records that may go. -/
theorem wit_RecorderCommands_full :
    (let r : Recorder := { ring := List.replicate 16384 (0, rcd 0 .fatal), input := [raised .codecRecode] }
     16384 ≤ (evc .up r).evr.ring.length ∧ (∀ p ∈ (evc .up r).evr.ring, p.2.sev = .fatal ∨ sevNum (evSev .codecRecode) < sevNum p.2.sev))
    ∧ (let r : Recorder := { ring := List.replicate 16384 (0, rcd 0 .info), input := [raised .codecRecode] }
       16384 ≤ (evc .up r).evr.ring.length
       ∧ victimSlot { (evc .up r).evr with rseq := ((evc .up r).evr.rseq + 1) % 4294967296 } (evSev .codecRecode) = some (0, rcd 0 .info)) := by
  refine ⟨⟨Nat.le_of_eq (List.length_replicate (n := 16384)).symm, fun p h => .inl ?_⟩, Nat.le_of_eq (List.length_replicate (n := 16384)).symm, ?_⟩
  · have h : p ∈ List.replicate 16384 (0, rcd 0 .fatal) := h
    rw [(List.mem_replicate.1 h).2]; rfl
  · exact victim_replicate _ _ (0, rcd 0 .info) 16383 rfl (by decide) (by decide)

theorem wit_RecorderCommands :
    ((mk (ph 0)).recUp (some 0) = false ∧ (hb { hubUp with failed := true }).recUp none = false)
    ∧ (let b := raised .provUnmatched
       let c (r : Recorder) : Chan := evc .up { r with input := [b] }
       (mk (c {})).present 0 = true ∧ ((mk (c {})).chan 0).boot.phase ≠ 0 ∧ ((mk (c {})).chan 0).evr.input = b :: []
       ∧ limited b.ev = true ∧ (let l : LimitMark := ⟨evCode b.ev, 0, 4000⟩
         l ∈ (c { limits := [l] }).evr.limits ∧ l.code = evCode b.ev ∧ l.scope = b.scope ∧ (c {}).ms ≤ l.atMs + 1000)
       ∧ ¬((c {}).ms ≤ 3999 + 1000) ∧ limited .codecRecode = false ∧ limited .codecRecodeFail = false ∧ 2 ≤ sevNum (evSev .codecRecodeFail)
       ∧ evCode .codecRecodeFail / 256 ≠ 0x10 ∧ evCode .evrRingFull / 256 = 0x10 ∧ (c {}).histUp = true ∧ (evc .off {}).histUp = false
       ∧ (c {}).evr.ring.length < 16384 ∧ fld ((c {}).reg 0xE00004) 29 28 ≤ sevNum (evSev .codecRecodeFail)
       ∧ sevNum .info < fld ((c {}).reg 0xE00004) 29 28)
    ∧ (let c := evc .up { owed := [6], ring := [(2, rcd 6 .warn)] }
       (mk c).present 0 = true ∧ (c.boot.phase ≠ 0) ∧ (evc .off {}).mem.phase ≠ .up ∧ c.mem.phase = .up ∧ c.evr.owed = [(rcd 6 .warn).rseq]
       ∧ c.evr.ring = [(2, rcd 6 .warn)] ∧ c.evr.winQueue = [] ∧ c.evr.lostQueue = [])
    ∧ (let w : MetricWin := { startS := 3541, count := 2 }
       (mk (winc 1000000 1 w)).present 0 = true ∧ ((mk (winc 1000000 1 w)).chan 0).boot.phase ≠ 0 ∧ (winc 1000000 1 w).due 3 = true
       ∧ (vget (winc 1000000 1 w).time.slots 3).at_ + 1000000 ≤ (winc 1000000 1 w).now
       ∧ ¬((vget (winc 999999 1 w).time.slots 3).at_ + 1000000 ≤ (winc 999999 1 w).now)
       ∧ 0 < (winc 1000000 1 w).evr.closedS ∧ (winc 1000000 1 w).evr.closedS / 3600 < (winc 1000000 1 w).now / 1000000000 / 3600
       ∧ (winc 1000000 1 w).evr.openW = [(1, w)] ∧ (winc 1000000 1 w).evr.closing = [] ∧ w.startS + winLen (1 % 3) ≤ (winc 1000000 1 w).now / 1000000000
       ∧ ¬(1 % 3 = 0 ∨ w.count = 0) ∧ (3 % 3 = 0 ∨ w.count = 0))
    ∧ (let r : Recorder := { rseq := 5, ring := [(0, rcd 4 .fatal)] }
       let chosen (s : State) := (heldFrom (s.chan 0).evr).filter fun e => decide (fld ((s.chan 0).reg 0xE00004) 31 30 ≤ sevNum e.sev) || decide (e.code = retiredCode)
       (seals r none [0] 1).hub.failed = false ∧ (seals r none [0] 1).present 0 = true ∧ ((seals r none [0] 1).chan 0).boot.phase ≠ 0 ∧ ((seals r none [0] 1).chan 0).oldEvr = none
       ∧ (seals r (some 3) [0] 1).hub.sealing ≠ none ∧ (seals r none [1] 1).hub.sealQ.head? ≠ some (0 : Fin 8).val
       ∧ (seals r none [0] 1).hub.sealing = none ∧ (seals r none [0] 1).hub.sealQ = (0 : Fin 8).val :: []
       ∧ ((seals { r with sealStop := true } none [0] 1).chan 0).evr.sealStop = true ∧ ((seals r none [0] 1).chan 0).evr.sealStop = false
       ∧ chosen (seals r none [0] 1) ≠ [] ∧ chosen (seals { rseq := 5, ring := [(0, rcd 4 .info)] } none [0] 1) = [])
    ∧ (let run : SealRun := { todo := [rcd 4 .fatal, rcd 5 .fatal], upto := 6 }
       let last : SealRun := { todo := [rcd 5 .fatal], upto := 6 }
       let wipe : SealRun := { todo := [rcd 5 .fatal], erase := some 1, erasing := true, upto := 6 }
       let s (x : SealRun) (fails pages : Nat) := seals { rseq := 6, sealing := some x, sealFails := fails } (some 0) [] pages
       (hb hubUp).hub.sealing = none
       ∧ (s run 0 253).hub.sealing = some (0 : Fin 8).val ∧ ((s run 0 253).chan 0).oldEvr = none ∧ ((s run 0 253).chan 0).evr.sealing = some run ∧ ((s run 0 253).chan 0).evr.sealReq = false
       ∧ run.erasing = false ∧ run.erase = none ∧ run.todo = rcd 4 .fatal :: [rcd 5 .fatal] ∧ last.todo = rcd 5 .fatal :: []
       ∧ (cget {} (vget (s run 0 253).hub.areas (0 : Fin 8).val).sectors (vget (s run 0 253).hub.areas (0 : Fin 8).val).head).pages.length < 254
       ∧ ((s run 14 253).chan 0).evr.sealFails < 15 ∧ 15 ≤ ((s run 15 253).chan 0).evr.sealFails
       ∧ wipe.erasing = true ∧ wipe.erase = some 1 ∧ 1 ≠ (vget (s wipe 0 254).hub.areas (0 : Fin 8).val).head ∧ wipe.todo ≠ []
       ∧ inHistory (sealAddr (0 : Fin 8) (vget (s run 0 253).hub.areas (0 : Fin 8).val).head (253 + 1)) = true
       ∧ inHistory (sealAddr (0 : Fin 8) 1 0) = true ∧ inHistory (sealAddr (0 : Fin 8) 512 1) = false
       ∧ (let o : OldEvr := ⟨{ sealing := some last }, 0, 0⟩
          let c : Chan := { evc .up {} with oldEvr := some o }
          let x : State := { mk c with hub := { hubUp with sealing := some 0 } }
          x.hub.sealing = some (0 : Fin 8).val ∧ (x.chan 0).oldEvr = some o ∧ o.r.sealing = some last ∧ last.erasing = false ∧ last.erase = none
          ∧ last.todo = [rcd 5 .fatal] ∧ (x.chan 0).evr.sealReq = false
          ∧ inHistory (sealAddr (0 : Fin 8) (vget x.hub.areas (0 : Fin 8).val).head
              ((cget {} (vget x.hub.areas (0 : Fin 8).val).sectors (vget x.hub.areas (0 : Fin 8).val).head).pages.length + 1)) = true)
       ∧ cget? (vget (s wipe 0 254).hub.areas (0 : Fin 8).val).sectors (vget (s wipe 0 254).hub.areas (0 : Fin 8).val).head
          = some { sseq := some 0, pages := List.replicate 254 none })
    ∧ (let s (late : Nat) : State := hb { hubUp with evr := { input := [raised .codecRecodeFail], closedS := 4 }
                                                     gtime := { hubUp.gtime with unit := { hubUp.gtime.unit with now := (5000000000 + late) * 65536 } } }
       (s 0).hub.failed = false ∧ (s 0).hub.evr.input = raised .codecRecodeFail :: [] ∧ limited .codecRecodeFail = false ∧ (s 0).hub.evr.ring.length < 2048
       ∧ 2 ≤ sevNum (evSev .codecRecodeFail) ∧ (s 1000000).hub.evr.closedS < (s 1000000).hub.now / 1000000000
       ∧ (s 1000000).hub.now / 1000000000 * 1000000000 + 1000000 ≤ (s 1000000).hub.now
       ∧ ¬((s 999999).hub.now / 1000000000 * 1000000000 + 1000000 ≤ (s 999999).hub.now)) := by
  and_intros <;> decide +kernel

/-- The sixteenth consecutive page that fails stops the area (R592); the record stays due. -/
theorem test_seal_stop :
    goes (exec (.sealPageProgramDone false) (seals { rseq := 6, sealing := some { todo := [rcd 5 .fatal], upto := 6 }, sealFails := 15 } (some 0) [] 9))
      (fun t => (t.chan 0).evr.sealStop && t.hub.sealing == none && (t.chan 0).evr.sealSeq == 0) = true := by decide +kernel


/-! ### Module -/

/-- The board before power good, with its supply as given; a module under power with a channel. -/
def brd (p : Power) : State := hb { pwr := p }

theorem wit_SupplyTemperatureAndSmbus :
    ((brd { pwrgd := true }).hub.pwr.pwrgd = true ∧ (brd {}).hub.pwr.vinOk = false ∧ (brd { vinOk := true, ovOpen := true }).hub.pwr.ovOpen = true
      ∧ (brd { vinOk := true, latched := true }).hub.pwr.latched = true
      ∧ (let p := (brd { vinOk := true }).hub.pwr
         p.pwrgd = false ∧ p.vinOk = true ∧ p.ovOpen = false ∧ p.latched = false))
    ∧ ((hb { hubUp with caps := 0x210F0F01 }).present 7 = false ∧ (mk svc).present 0 = true ∧ (mk svc).hub.pwr.pwrgd = true)
    ∧ ((hb { hubUp with failed := true }).hub.failed = true ∧ (mk svc).hub.failed = false)
    ∧ ((11 < (12 : BitVec 8).toNat ∧ (12 : BitVec 8).toNat < 16) ∧ 18 < (19 : BitVec 8).toNat ∧ (1 : BitVec 8).toNat = 1
      ∧ (4 : BitVec 8).toNat = 4 + (0 : Fin 8).val ∧ (11 : BitVec 8).toNat = 4 + (7 : Fin 8).val ∧ 16 ≤ (16 : BitVec 8).toNat ∧ (18 : BitVec 8).toNat ≤ 18
      ∧ (0 : BitVec 8).toNat = 0) := by
  and_intros <;> decide +kernel

/-- STAT's latched bits clear over SMBus where a 1 is written, and no others do (R621). -/
theorem test_smb_clear :
    goes (exec (.smbClearStat 0x00001000) (hb { hubUp with regs := [(0x100000, 0x00003000)] })) (fun t => t.hub.reg 0x100000 == 0x00002000) = true := by
  decide +kernel

end Sys2Proof.Tests
end

/-! PROOFS. The statements of the scope chapter (00_scope.md, R1–R16): what absent units answer (R6–R8), how a write of the host is refused
(R557–R559), and that GLB.CAPS is fixed (R2). -/

namespace Sys2Proof.Machine

open Sys2Proof Sys2Proof.Safety

/-! ### Absent units -/

/-- The unit that offset `o` of channel `n`'s window belongs to is absent: the whole window, or its MTX block where the channel has no
matrix engine (R6–R8). -/
def State.unitAbsent (s : State) (n : Fin 8) (o : Nat) : Bool :=
  !s.hasWindow n || (decide (o / 0x100000 = 6) && !s.mtxPresent n)

theorem State.hasWindow_of_absent (s : State) (n : Nat) (h : s.present n = false) : s.hasWindow n = false := by
  simp [State.hasWindow, h]

theorem State.unitAbsent_of_channel (s : State) (n : Fin 8) (o : Nat) (h : s.present n = false) : s.unitAbsent n o = true := by
  simp [State.unitAbsent, s.hasWindow_of_absent n h]

theorem State.unitAbsent_of_mtx (s : State) (n : Fin 8) (o : Nat) (h : s.mtxPresent n = false) (ho : o / 0x100000 = 6) :
    s.unitAbsent n o = true := by
  simp [State.unitAbsent, h, ho]

/-- Window and offset of an address in BAR2: eight windows of 32 MiB (R6). -/
theorem window_div (n : Fin 8) (o : Nat) (h : o < 0x2000000) : (0x2000000 * n.val + o) / 0x2000000 = n := by omega

theorem window_mod (n : Fin 8) (o : Nat) (h : o < 0x2000000) : (0x2000000 * n.val + o) % 0x2000000 = o := by omega

theorem State.readReg_bar2 (s : State) (n : Fin 8) (o : Nat) (meas : Word) (h : o < 0x2000000) :
    s.readReg .bar2 (0x2000000 * n.val + o) meas = if s.unitAbsent n o then 0xFFFFFFFF else s.readWindow n o := by
  have hn : Fin.ofNat 8 n.val = n := Fin.ofNat_val_eq_self n
  simp only [State.readReg, window_div n o h, window_mod n o h, hn, State.unitAbsent]
  rfl

theorem State.writeChan_absent (s : State) (m : Master) (n : Fin 8) (o : Nat) (data : Word) (h : o < 0x2000000)
    (ha : s.unitAbsent n o = true) :
    s.writeChan m (0x2000000 * n.val + o) data = s.regViol m .absentUnit n (0x2000000 * n.val + o) := by
  have hn : n.val % 8 = n := Nat.mod_eq_of_lt n.isLt
  unfold State.unitAbsent at ha
  simp only [State.writeChan, window_div n o h, window_mod n o h, hn, ha, if_true]

/-- Settles O7: a read of BAR2 answers all ones wherever the unit addressed is absent. -/
theorem absentUnitsReadAllOnes : Obligations.AbsentUnitsReadAllOnes := by
  intro s n o meas ho
  rw [s.readReg_bar2 n o meas ho]
  exact ⟨fun h => if_pos (s.unitAbsent_of_channel n o h), fun h hm => if_pos (s.unitAbsent_of_mtx n o h hm)⟩

/-! ### A violation of the host -/

theorem cget?_cput_same {α : Type} (m : Cells α) (k : Nat) (v : α) : cget? (cput m k v) k = some v := by
  induction m with
  | nil => simp [cput, cget?]
  | cons x r ih =>
    obtain ⟨j, w⟩ := x
    simp only [cput]
    split
    · simp [cget?]
    · split
      · simp [cget?]
      · have : j ≠ k := by omega
        simp [cget?, this, ih]

@[simp] theorem signalMsi_aborts (v : Nat) (p : HostPort) : (signalMsi v p).aborts = p.aborts := by unfold signalMsi; split <;> rfl
@[simp] theorem signalMsi_violLog (v : Nat) (p : HostPort) : (signalMsi v p).violLog = p.violLog := by unfold signalMsi; split <;> rfl
@[simp] theorem signalMsi_violWr (v : Nat) (p : HostPort) : (signalMsi v p).violWr = p.violWr := by unfold signalMsi; split <;> rfl

@[simp] theorem Hub.msi_regs (h : Hub) (v : Nat) : (h.msi v).regs = h.regs := by unfold Hub.msi; split <;> rfl
@[simp] theorem Hub.msi_evr (h : Hub) (v : Nat) : (h.msi v).evr = h.evr := by unfold Hub.msi; split <;> rfl
theorem Hub.msi_host (h : Hub) (v : Nat) : (h.msi v).host = h.host ∨ (h.msi v).host = signalMsi v h.host := by
  unfold Hub.msi; split <;> simp

/-- A HOST_ event signals a vector and leaves the log of violations and the count of Completer Aborts. -/
theorem Hub.hostEv_host (h : Hub) (e : Ev) (n : Nat) :
    (h.hostEv e n).host.aborts = h.host.aborts ∧ (h.hostEv e n).host.violLog = h.host.violLog
      ∧ (h.hostEv e n).host.violWr = h.host.violWr := by
  unfold Hub.hostEv
  obtain hm | hm := Hub.msi_host (h.raise { ev := e, plane := .management, scope := n }) 0 <;> simp [hm]

/-- What logging a violation can do: the newest entry counts it again, when it matches, or a new entry holds it. -/
theorem logViol_cases (p : HostPort) (v : Viol) :
    (∃ e, cget? p.violLog ((p.violWr - 1).toNat % 64) = some e
        ∧ (e.viol.source = v.source ∧ e.viol.kind = v.kind ∧ e.viol.addr = v.addr)
        ∧ logViol p v = { p with violLog := cput p.violLog ((p.violWr - 1).toNat % 64) { e with reps := min (e.reps + 1) 0xFFFFFF } })
    ∨ logViol p v = { p with violLog := cput p.violLog (p.violWr.toNat % 64) { viol := v }, violWr := p.violWr + 1 } := by
  cases he : cget? p.violLog ((p.violWr - 1).toNat % 64) with
  | none => right; simp only [logViol, he]
  | some e =>
    by_cases hsame : (decide (p.violWr ≠ 0) && decide (e.viol.source = v.source) && decide (e.viol.ch = v.ch)
        && decide (e.viol.kind = v.kind) && decide (e.viol.addr = v.addr) && decide (v.stamp ≤ e.viol.stamp + 1000000000)) = true
    · left
      refine ⟨e, rfl, ?_, by simp only [logViol, he, hsame]⟩
      simp only [Bool.and_eq_true, decide_eq_true_eq] at hsame
      obtain ⟨⟨⟨⟨⟨-, hsrc⟩, -⟩, hkind⟩, haddr⟩, -⟩ := hsame
      exact ⟨hsrc, hkind, haddr⟩
    · right; simp only [logViol, he, hsame]

@[simp] theorem logViol_aborts (p : HostPort) (v : Viol) : (logViol p v).aborts = p.aborts := by
  obtain ⟨e, -, -, h⟩ | h := logViol_cases p v <;> rw [h]

/-- After a violation is logged the newest entry of GLB.VIOL_LOG is one of its source, kind and address (R558, R559). -/
theorem logViol_newest (p : HostPort) (v : Viol) :
    ∃ e : ViolEntry, cget? (logViol p v).violLog (((logViol p v).violWr - 1).toNat % 64) = some e
      ∧ e.viol.source = v.source ∧ e.viol.kind = v.kind ∧ e.viol.addr = v.addr := by
  obtain ⟨e, -, hv, h⟩ | h := logViol_cases p v <;> rw [h]
  · exact ⟨_, cget?_cput_same .., hv⟩
  · exact ⟨{ viol := v }, by simp only [BitVec.add_sub_cancel, cget?_cput_same], rfl, rfl, rfl⟩

/-- A violation of the host's write answers it with a Completer Abort, hands HOST_VIOL to the recorder, and enters the log. -/
theorem hostWriteRefused_regViol (s : State) (kind : ViolKind) (ch addr : Nat) :
    HostWriteRefused s (s.regViol .host kind ch addr) kind addr := by
  refine ⟨rfl, rfl, ?_, ?_, ?_, ?_⟩
  all_goals simp only [State.regViol, State.modHub_hub, Hub.violate, Hub.hostEv_host]
  · simp [Hub.hostEv]
  · simp
  · simp [Hub.hostEv]
  · exact logViol_newest ..

/-- An aligned 4-byte write of the host reaches the register port while the link is up and the hub runs (R553). -/
theorem exec_hostWrite4 (s : State) (b : Bar) (off : BitVec 28) (data : BitVec 64) (hup : HostUp s) (ho : off.toNat % 4 = 0) :
    exec (.registerWrite .host b off 4 data) s = .next (s.write32 .host b off.toNat (data.setWidth 32)) := by
  obtain ⟨hf, hm⟩ := hup
  have hport : s.masterUp .host = true := by simp [State.masterUp, hf, hm]
  have h4 : ((4 : Fin 65).val = 4 ∧ off.toNat % 4 = 0) := ⟨rfl, ho⟩
  simp only [exec, execRegisterWrite, done, hport, if_pos h4]
  rfl

/-- Settles O8: the write meets an absent unit, and is a violation of the host. -/
theorem writesToAbsentUnitsAreRefused : Obligations.WritesToAbsentUnitsAreRefused := by
  intro s n o off data hup hoff ho halign habs
  have ha : s.unitAbsent n o = true := by
    obtain h | ⟨h, hm⟩ := habs
    · exact s.unitAbsent_of_channel n o h
    · exact s.unitAbsent_of_mtx n o h hm
  refine ⟨_, exec_hostWrite4 s .bar2 off data hup (by omega), ?_⟩
  have hw : s.write32 .host .bar2 off.toNat (data.setWidth 32) = s.regViol .host .absentUnit n off.toNat := by
    rw [hoff]; exact s.writeChan_absent .host n o _ ho ha
  rw [hw]
  exact hostWriteRefused_regViol s .absentUnit n off.toNat

/-! ### Operations of the hub keep GLB.CAPS (R2) -/

/-- A fold keeps what each of its steps keeps. -/
theorem foldl_keeps {α β γ : Type} (p : α → γ) (f : α → β → α) (hf : ∀ a b, p (f a b) = p a) (l : List β) (a : α) :
    p (l.foldl f a) = p a :=
  List.foldlRecOn (motive := fun x => p x = p a) l f rfl fun x hx b _ => (hf x b).trans hx

theorem Hub.ite_caps {h a b : Hub} {p : Prop} [Decidable p] (ha : a.caps = h.caps) (hb : b.caps = h.caps) :
    (if p then a else b).caps = h.caps := by
  split
  · exact ha
  · exact hb

@[simp] theorem Hub.msi_caps (h : Hub) (v : Nat) : (h.msi v).caps = h.caps := by unfold Hub.msi; split <;> rfl
@[simp] theorem Hub.hostEv_caps (h : Hub) (e : Ev) (n : Nat) : (h.hostEv e n).caps = h.caps := by simp [Hub.hostEv]
@[simp] theorem Hub.violate_caps (h : Hub) (v : Viol) : (h.violate v).caps = h.caps := by simp [Hub.violate]
@[simp] theorem Hub.putFx_caps (h : Hub) (f : RecFx) : (h.putFx f).caps = h.caps :=
  foldl_keeps Hub.caps (fun h (n : Nat × Nat) => h.count (0x400000 + n.1) n.2) (fun _ _ => Hub.count_caps ..) f.cnts _
@[simp] theorem askSeal_caps (o : Nat) (h : Hub) : (askSeal o h).caps = h.caps := by unfold askSeal; split <;> rfl
theorem Hub.xspiWrite_caps (h : Hub) (a : Nat) (f : Hub → Hub) (hf : (f h).caps = h.caps) : (h.xspiWrite a f).caps = h.caps := by
  unfold Hub.xspiWrite
  split
  · exact hf
  · exact h.violate_caps _

/-! Module time -/

@[simp] theorem Hub.modUnit_caps (h : Hub) (f : TimeUnit → TimeUnit) : (h.modUnit f).caps = h.caps := rfl
@[simp] theorem Hub.step_caps (h : Hub) (d : Int) : (h.step d).caps = h.caps := by
  unfold Hub.step
  rw [Hub.putFx_caps]
  split
  · simp
  · rw [foldl_keeps Hub.caps _ fun h e => Hub.raise_caps h _]
    simp
@[simp] theorem Hub.unitEv_caps (h : Hub) (e : UnitEv) : (h.unitEv e).caps = h.caps := by cases e <;> simp [Hub.unitEv]
@[simp] theorem Hub.ppsIn_caps (h : Hub) (t : Fine) : (h.ppsIn t).caps = h.caps := by simp [Hub.ppsIn, apply_ite Hub.caps]
@[simp] theorem Hub.ppsEdge_caps (h : Hub) : h.ppsEdge.caps = h.caps := by simp [Hub.ppsEdge, apply_ite Hub.caps]
@[simp] theorem Hub.capEdge_caps (h : Hub) (k : Fin 4) (t : Nat) : (h.capEdge k t).caps = h.caps :=
  Hub.ite_caps rfl (Hub.ite_caps (Hub.raise_caps ..) rfl)
@[simp] theorem Hub.gArm_caps (h : Hub) (j : Fin 8) (data : Word) : (h.gArm j data).caps = h.caps :=
  Hub.ite_caps (h.violate_caps _) (Hub.ite_caps ((Hub.raise_caps ..).trans (Hub.count_caps ..)) rfl)
@[simp] theorem Hub.gFire_caps (h : Hub) (j : Fin 8) : (h.gFire j).caps = h.caps := by simp [Hub.gFire, apply_ite Hub.caps]

/-! The host port -/

@[simp] theorem Hub.linkTrain_caps (h : Hub) (cxl : Bool) (width rate : Nat) (cacheEn memEn : Bool) :
    (h.linkTrain cxl width rate cacheEn memEn).caps = h.caps := by simp [Hub.linkTrain, apply_ite Hub.caps]
@[simp] theorem Hub.portReset_caps (h : Hub) : h.portReset.caps = h.caps := by simp [Hub.portReset, apply_ite Hub.caps]
@[simp] theorem Hub.h2dDrop_caps (h : Hub) (k : Nat) : (h.h2dDrop k).caps = h.caps := by simp [Hub.h2dDrop]
@[simp] theorem Hub.doorbell_caps (h : Hub) (k : Nat) (w : Word) : (h.doorbell k w).caps = h.caps := by
  simp [Hub.doorbell, apply_ite Hub.caps]
@[simp] theorem Hub.take_caps (h : Hub) (k : Nat) : (h.take k).caps = h.caps := by rw [Hub.take, Hub.modHost_caps]
@[simp] theorem Hub.mboxTimeout_caps (h : Hub) (d2h : Bool) (k : Nat) : (h.mboxTimeout d2h k).caps = h.caps := by
  simp [Hub.mboxTimeout, apply_ite Hub.caps]
@[simp] theorem Hub.maskVector_caps (h : Hub) (v : Nat) (m : Bool) : (h.maskVector v m).caps = h.caps := by
  simp [Hub.maskVector, apply_ite Hub.caps]

/-! Register writes -/

@[simp] theorem Hub.writeH2d_caps (h : Hub) (k w : Nat) (data : Word) : (h.writeH2d k w data).caps = h.caps := by
  simp [Hub.writeH2d, apply_ite Hub.caps]
@[simp] theorem Hub.writeSlot_caps (h : Hub) (j : Fin 8) (data : Word) : (h.writeSlot j data).caps = h.caps := by
  simp [Hub.writeSlot, apply_ite Hub.caps]

/-- A register of BAR0 that software writes is never GLB.CAPS itself. -/
theorem Hub.store_caps (h g : Hub) (m : Master) (o : Nat) (data : Word) (hg : h.store m o data = .inr g) : g.caps = h.caps := by
  unfold Hub.store at hg
  split at hg
  · split at hg -- a word of an H2D mailbox
    · cases hg
    · split at hg <;> cases hg <;> simp
  split at hg
  · split at hg -- a word of a D2H mailbox
    · cases hg
    · split at hg <;> cases hg <;> simp
  split at hg
  · cases hg; simp [apply_ite Hub.caps] -- the MSI-X table
  split at hg
  · cases hg; simp -- word 1 of a global slot
  split at hg
  · cases hg; simp -- TOD_SET_HI
  split at hg
  · cases hg; simp [apply_ite Hub.caps] -- STAT of the module's recorder
  split at hg
  · split at hg <;> cases hg; simp -- a register of the table
  · split at hg <;> cases hg; rfl

/-! Start-up -/

@[simp] theorem Hub.applyRecords_caps (h : Hub) (rs : List (BitVec 32 × Word)) : (h.applyRecords rs).caps = h.caps := by
  refine foldl_keeps Hub.caps _ (fun h p => ?_) rs h
  split
  · split
    · exact h.violate_caps _
    · rfl
  · exact h.violate_caps _
@[simp] theorem Hub.sealDirect_caps (h : Hub) (e : EvtRec) : (h.sealDirect e).caps = h.caps := rfl
@[simp] theorem Hub.imageFail_caps (h : Hub) : h.imageFail.caps = h.caps := by simp [Hub.imageFail]

/-! The SPDM responder -/

@[simp] theorem Hub.spdmSay_caps (h : Hub) (f : Spdm → Spdm) (r : SpdmRsp) : (h.spdmSay f r).caps = h.caps := rfl
@[simp] theorem Hub.spdmErr_caps (h : Hub) (code : Nat) : (h.spdmErr code).caps = h.caps := rfl
theorem Hub.spdmReady_caps (h : Hub) (f : Hub → Hub) (hf : (f h).caps = h.caps) : (h.spdmReady f).caps = h.caps := by
  simp [Hub.spdmReady, apply_ite Hub.caps, hf]

/-! ### Operations of the state keep GLB.CAPS -/

theorem onHub_caps (f : Hub → Hub) (s : State) (hf : (f s.hub).caps = s.hub.caps) : (onHub f s).hub.caps = s.hub.caps := by
  unfold onHub
  split
  · rfl
  · exact hf
theorem onSpdm_caps (f : Hub → Hub) (s : State) (hf : (f s.hub).caps = s.hub.caps) : (onSpdm f s).hub.caps = s.hub.caps := by
  unfold onSpdm
  split
  · rfl
  · exact hf
@[simp] theorem onMtx_hub (n : Fin 8) (f : Chan → Chan) (s : State) : (onMtx n f s).hub = s.hub := by
  unfold onMtx
  split
  · exact onLive_hub ..
  · rfl

/-! Register writes -/

@[simp] theorem State.regViol_caps (s : State) (m : Master) (kind : ViolKind) (ch addr : Nat) :
    (s.regViol m kind ch addr).hub.caps = s.hub.caps := by
  cases m <;> simp [State.regViol]
@[simp] theorem onWindow_caps (n : Fin 8) (o : Nat) (f : Chan → Chan) (s : State) : (onWindow n o f s).hub.caps = s.hub.caps := by
  unfold onWindow
  split
  · split <;> rfl
  · split
    · exact s.regViol_caps ..
    · rfl
@[simp] theorem State.writeChan_caps (s : State) (m : Master) (off : Nat) (data : Word) :
    (s.writeChan m off data).hub.caps = s.hub.caps := by
  unfold State.writeChan
  dsimp only
  split
  · exact s.regViol_caps ..
  split
  · exact s.regViol_caps ..
  split
  · rfl
  split
  · rfl
  · exact s.regViol_caps ..
@[simp] theorem State.writeHub_caps (s : State) (m : Master) (off : Nat) (data : Word) :
    (s.writeHub m off data).hub.caps = s.hub.caps := by
  unfold State.writeHub
  split
  · simp
  · split
    · rename_i hg; exact Hub.store_caps _ _ m off data hg
    · simp
@[simp] theorem State.write32_caps (s : State) (m : Master) (b : Bar) (off : Nat) (data : Word) :
    (s.write32 m b off data).hub.caps = s.hub.caps := by
  cases b
  · exact s.writeHub_caps m off data
  · exact s.writeChan_caps m off data

/-! The host port and module time -/

@[simp] theorem State.gtimeUpdate_caps (s : State) : s.gtimeUpdate.hub.caps = s.hub.caps := by
  unfold State.gtimeUpdate
  exact foldl_keeps Hub.caps Hub.unitEv Hub.unitEv_caps _ _
@[simp] theorem State.hdmAccess_caps (s : State) (line : BitVec 30) (data : Option (Vector (Option Byte) 64)) :
    (s.hdmAccess line data).hub.caps = s.hub.caps := by
  cases data <;> simp [State.hdmAccess, apply_ite State.hub, apply_ite Hub.caps]
@[simp] theorem State.h2dTake_caps (s : State) (k : Nat) (pass : Option (Vector Word 4)) :
    (s.h2dTake k pass).hub.caps = s.hub.caps := by
  unfold State.h2dTake
  dsimp only
  split
  · rfl
  · split
    · simp
    · split <;> simp
    · simp
@[simp] theorem State.d2hPost_caps (s : State) (k : Nat) (p : Party) (w : Vector Word 4) :
    (s.d2hPost k p w).hub.caps = s.hub.caps := by
  unfold State.d2hPost
  split
  · rfl
  split
  · exact Hub.violate_caps ..
  split
  · exact Hub.hostEv_caps ..
  · exact Hub.msi_caps ..

/-! Recorders and seals -/

@[simp] theorem State.putRec_caps (s : State) (o : Nat) (f : RecFx) : (s.putRec o f).hub.caps = s.hub.caps := by
  simp [State.putRec, apply_ite State.hub, apply_ite Hub.caps]
@[simp] theorem State.putSeal_caps (s : State) (o : Nat) (f : RecFx) : (s.putSeal o f).hub.caps = s.hub.caps := by
  unfold State.putSeal
  split
  · simp [apply_ite State.hub, apply_ite Hub.caps]
  · simp
@[simp] theorem State.stopSeal_caps (s : State) (o : Nat) : (s.stopSeal o).hub.caps = s.hub.caps := rfl
@[simp] theorem State.sealNext_caps (s : State) (n : Nat) (run : SealRun) (f : RecFx) :
    (s.sealNext n run f).hub.caps = s.hub.caps := by
  unfold State.sealNext
  split
  · exact State.putSeal_caps ..
  · split
    · exact State.putSeal_caps ..
    · exact State.putSeal_caps ..

/-! Start-up, power and cutouts -/

@[simp] theorem State.startChan_hub (s : State) (n : Fin 8) (hold : Bool) (img : ChanImg) (f : StepFacts) :
    (s.startChan n hold img f).hub = s.hub := by
  unfold State.startChan
  split <;> rfl
@[simp] theorem State.latchSeal_caps (s : State) : s.latchSeal.hub.caps = s.hub.caps := by
  unfold State.latchSeal
  dsimp only
  split <;> rfl
@[simp] theorem State.acceptImage_caps (s : State) (f : StartFacts) (primary : Bool) :
    (s.acceptImage f primary).hub.caps = s.hub.caps := by
  unfold State.acceptImage
  rw [State.latchSeal_caps, foldl_keeps (fun s : State => s.hub.caps) _ fun s n => congrArg Hub.caps (s.startChan_hub n _ _ _)]
  simp
@[simp] theorem State.powerGoodStart_caps (s : State) (f : StartFacts) : (s.powerGoodStart f).hub.caps = s.hub.caps := by
  simp [State.powerGoodStart, apply_ite State.hub, apply_ite Hub.caps]
@[simp] theorem State.dropOld_caps (s : State) (ch : Fin 8) : (s.dropOld ch).hub.caps = s.hub.caps := by
  unfold State.dropOld
  split <;> rfl
@[simp] theorem State.powerDown_caps (s : State) : s.powerDown.hub.caps = s.hub.caps := rfl
@[simp] theorem State.cutout_caps (s : State) (ch : Fin 8) : (s.cutout ch).hub.caps = s.hub.caps := by simp [State.cutout]

/-! ### Commands -/

/-- Where the outcome is a next state, it shows the GLB.CAPS of `s`. -/
structure KeepsCaps (s : State) (r : Out) : Prop where
  caps_eq : ∀ t, r = .next t → t.hub.caps = s.hub.caps

theorem KeepsCaps.next {s t : State} {r : Out} (hr : r = .next t) (h : t.hub.caps = s.hub.caps) : KeepsCaps s r where
  caps_eq t' ht := by
    cases hr.symm.trans ht
    exact h
theorem KeepsCaps.hub {s t : State} {r : Out} (hr : r = .next t) (h : t.hub = s.hub) : KeepsCaps s r :=
  .next hr (congrArg Hub.caps h)
theorem KeepsCaps.ite {s : State} {p : Prop} [Decidable p] {a b : Out} (ha : KeepsCaps s a) (hb : KeepsCaps s b) :
    KeepsCaps s (if p then a else b) := by
  split
  · exact ha
  · exact hb

theorem execGlobalTriggerFire_keepsCaps (j : Fin 8) (s : State) : KeepsCaps s (execGlobalTriggerFire j s) := by
  refine .next rfl ?_
  split
  · rfl
  · exact onHub_caps _ s (Hub.gFire_caps ..)

/-! The host port and the pins -/

theorem execLaserEnNChange_keepsCaps (high : Bool) (s : State) : KeepsCaps s (execLaserEnNChange high s) :=
  .next rfl (foldl_keeps (fun s : State => s.hub.caps) _ (fun s ch => congrArg Hub.caps (onChan_hub ch _ s)) _ _)
theorem execViolationDelivery_keepsCaps (ch : Fin 8) (s : State) : KeepsCaps s (execViolationDelivery ch s) := by
  refine .ite (.next rfl rfl) ?_
  dsimp only
  split
  · exact .next rfl (by split <;> simp)
  · exact .next rfl (by simp [apply_ite State.hub, apply_ite Hub.caps])
theorem execRegisterWrite_keepsCaps (m : Master) (b : Bar) (off : BitVec 28) (size : Fin 65) (data : BitVec 64) (s : State) :
    KeepsCaps s (execRegisterWrite m b off size data s) :=
  .next rfl (by simp [apply_ite State.hub, apply_ite Hub.caps])
theorem execRelCntWrite_keepsCaps (ch : Fin 8) (hi : Word) (s : State) : KeepsCaps s (execRelCntWrite ch hi s) := by
  refine .next rfl ?_
  split
  · rfl
  split
  · exact s.regViol_caps ..
  split
  · rfl
  · exact s.regViol_caps ..

/-! Recorders and seals -/

theorem execHistoryCopy_keepsCaps (ch : Fin 8) (s : State) : KeepsCaps s (execHistoryCopy ch s) :=
  .ite (.next rfl (s.putRec_caps ..)) (.next rfl rfl)
theorem execWindowClose_keepsCaps (u : Option (Fin 8)) (s : State) : KeepsCaps s (execWindowClose u s) := by
  refine .ite (.next rfl rfl) ?_
  cases u with
  | some ch => exact .ite (.next rfl (State.putRec_caps ..)) (.next rfl rfl)
  | none => exact .ite (.next rfl (State.putRec_caps ..)) (.next rfl rfl)
theorem execEventRecordTake_keepsCaps (u : Option (Fin 8)) (n : Nat) (s : State) : KeepsCaps s (execEventRecordTake u n s) := by
  refine .next rfl ?_
  split
  · rfl
  · cases u <;> simp
theorem execSealStart_keepsCaps (u : Option (Fin 8)) (s : State) : KeepsCaps s (execSealStart u s) := by
  refine .ite (.next rfl rfl) (.ite (.next rfl (by simp)) ?_)
  -- not `dsimp only`: the kernel would check it by evaluating the sector that `openSector` picks
  simp only
  split
  · exact .ite (.next rfl (by simp)) (.next rfl (by simp))
  · exact .next rfl rfl
theorem execSealPageProgramDone_keepsCaps (ok : Bool) (s : State) : KeepsCaps s (execSealPageProgramDone ok s) := by
  unfold execSealPageProgramDone
  split
  · dsimp only
    split
    · split
      · exact .ite (.next rfl ((State.sealNext_caps ..).trans (Hub.xspiWrite_caps _ _ _ rfl)))
          (.ite (.next rfl ((State.putSeal_caps ..).trans (Hub.xspiWrite_caps _ _ _ rfl)))
            (.next rfl ((State.sealNext_caps ..).trans (Hub.xspiWrite_caps _ _ _ rfl))))
      · exact .next rfl rfl
    · exact .next rfl rfl
  · exact .next rfl rfl
theorem execSectorEraseDone_keepsCaps (s : State) : KeepsCaps s (execSectorEraseDone s) := by
  unfold execSectorEraseDone
  split
  · dsimp only
    split
    · split
      · exact .next rfl ((State.sealNext_caps ..).trans (Hub.xspiWrite_caps _ _ _ rfl))
      · exact .next rfl rfl
    · exact .next rfl rfl
  · exact .next rfl rfl

/-! Start-up -/

theorem execStartupStepLate_keepsCaps (ch : Fin 8) (img : ChanImg) (f : StepFacts) (s : State) :
    KeepsCaps s (execStartupStepLate ch img f s) :=
  .ite (.next rfl rfl) (.ite (.next rfl rfl) (.next rfl (State.latchSeal_caps _)))
theorem execBootRel_keepsCaps (data : Word) (fs : Vector StepFacts 8) (s : State) : KeepsCaps s (execBootRel data fs s) := by
  refine .ite (.next rfl rfl) (.next rfl (foldl_keeps (fun s : State => s.hub.caps) _ (fun s n => ?_) _ _))
  dsimp only
  split <;> rfl
theorem execColdRestart_keepsCaps (ch : Fin 8) (img : ChanImg) (f : StepFacts) (s : State) :
    KeepsCaps s (execColdRestart ch img f s) := by
  refine .ite (.next rfl rfl) (.next rfl ?_)
  simp [apply_ite State.hub]
theorem execDmaAccess_keepsCaps (ch : Fin 8) (q : DmaReq) (s : State) : KeepsCaps s (execDmaAccess ch q s) :=
  .ite (.next rfl rfl) (.ite (.next rfl rfl) (.next rfl rfl))

/-- No command changes GLB.CAPS (R2): commands of one channel leave the hub, and the others go through operations that keep it. -/
theorem exec_keepsCaps (i : Instr) (s : State) : KeepsCaps s (exec i s) := by
  cases i with
  -- the data path and the control sequencer of a channel
  | timeFrame | timeFrameSend | ts | tsSend | nackReceive | heldPacketTimeout | tailRecordExpire | fenceHoldExpire | schedulerSelect |
    systemFifoRoom | tuEncrypt | aisTuSend | cairnWrite | signAgeExpire | signatureRecordWrite | spanHead | sigHead | provPendingExpire |
    codecBind | codecUnbind | codecFlow | colCommOpen | colCommClose | colStart | colExclude | contribReceive | partialReceive | resultReceive |
    demandReceive | abortReceive | lateReceive | endReceive | demandRateSend | pullDelayExpire | alignDelayExpire | lowrankPullSend | colDeadline
    | colDeadlinePeerLate | coordinatorDecision | orphanTimeout | pendingDemandExpire | packerCodeBlock | expanderBlock | tuReceive | tuDeliver |
    nakReportTimer | holeWindowExpire | lineAis | aisLegTimeout | cap | tableWrite | genSwitch | tableAbort | copyForwardDone | jobAdmit |
    jobAdmitForwarded | jobAdmitPeerAnswer | peerTimeout | latePeerAccept | jobRelease | jobReleaseRelayed | slotFree | stepMark | stepMarkRelayed
    | packetReceive | allocationRetry | spillReadback | partEpoch | partMode | partCancel | partRevert | ledgerBind | ledgerUnbind | partSeq |
    reconStart | partReloaded | partDropDrift | partExport | driftTimeLimit | driftOffer | driftAck | driftOfferRepeat | modeMiss |
    sequencerMailboxTake | pwrOffer | pwrOfferSend | pwrOfferLapse | powerStateEntry | wake | timeSync | timeDreq =>
    exact .hub rfl (onPath_hub ..)
  -- a channel out of reset
  | demeritDecay | targetedSelftestDone | heldUnitRetry | sentinelSample | sentinelThirdRun | frameModeEntry | marginEstimate | wrongLockCheck |
    engineTempSample | recalTimer | calibrationAction | burstReq | burstTrialStep | precomp | marginTestTrialStep | mtResult | map |
    marginTestRetry | spareReq | spareAck | spareSwitch | spareDone | spareAbort | margin | marginReportSend | combReq | hlthRequestRepeat |
    spareAckTimeout | spareCopyEnd | coldSpareIn | combTakeoverStart | combWarmLocked | coldCombSwitch | safetyTrip | ringLocked | kaHelloB |
    kaFinish | kaStart | kaRekeyB | kaRekeyFin | kaAbort | kaRepeat | kaTimeout | rollLimitStop | rngTestFail | rngMaskExpire | rngTestPass |
    flitReceive | replayTimeout | ackIdleDue | flitSend | portRetrain | retrainAttemptEnd | portTrainRetry | rtxRecordWindowEnd | lineAisSend |
    capSendPeriodic | frameSend | laneUnitReceive | lossOfLight | lightReturn | losDetect | lofClrExpire | lofSetExpire | frameDecode |
    genSwitchInstant | genSaddleClose | epochInstant | epochSaddleClose | modeActInstant | modeSaddleClose | modeRevInstant | kaResume |
    resumeTimeout | coreCheckpoint | kaResumeAck | unitFence | fenceRetest =>
    exact .hub rfl (onLive_hub ..)
  -- a channel in any PHASE
  | keySaddleClose | memRereadDone | unitPatternTestDone | unitRemapCopyDone | selfRefreshEntry | selfRefreshEntryTimeout | selfRefreshExit |
    scrubDone | referenceLoss | referenceReturn | fullTrainingDone | stageHang | sequencerHang | lpddr6Hang | tickMissHang | recoveryStepLate |
    coreWatchdog | coresLost | firmwareRecoverRequest | channelRecovery | recoveryTimeout | rateMonUpdate | capNowUpdate =>
    exact .hub rfl (onChan_hub ..)
  | kaHelloA | kaRekey | kaRestart | rekeyStart => exact .hub rfl (onLiveFree_hub ..)
  | tileTaskDispatch | tileTaskComplete | noTileWaitExpire | factorUnitComplete => exact .hub rfl (onMtx_hub ..)
  | mapChangeInstant => exact .next rfl ((State.latchSeal_caps _).trans (congrArg Hub.caps (onLive_hub ..)))
  | keyRolloverInstant => exact .next rfl ((State.latchSeal_caps _).trans (congrArg Hub.caps (onLiveFree_hub ..)))
  -- keyed writes in a channel's window
  | recover | cold | returnCmd | wakeTolWrite | acceptJump => exact .next rfl (onWindow_caps ..)
  -- the hub die
  | ppsInEdge => exact .next rfl (onHub_caps _ s (Hub.ppsIn_caps ..))
  | ppsOutEdge => exact .next rfl (onHub_caps _ s (Hub.ppsEdge_caps _))
  | timeCapEdge => exact .next rfl (onHub_caps _ s (Hub.capEdge_caps ..))
  | globalSlotArm => exact .next rfl (onHub_caps _ s (Hub.gArm_caps ..))
  | hostPortReset => exact .next rfl (onHub_caps _ s (Hub.portReset_caps _))
  | doorbell => exact .next rfl (onHub_caps _ s (Hub.doorbell_caps ..))
  | take => exact .next rfl (onHub_caps _ s (Hub.take_caps ..))
  | mailboxTimeout => exact .next rfl (onHub_caps _ s (Hub.mboxTimeout_caps ..))
  | msixUnmask => exact .next rfl (onHub_caps _ s (Hub.maskVector_caps ..))
  | ideCheckFail => exact .next rfl (onHub_caps _ s (Hub.hostEv_caps ..))
  | hubWatchdog => exact .next rfl (onHub_caps _ s (Hub.portReset_caps _))
  | todSet | capEntryRemove => exact .next rfl (onHub_caps _ s rfl)
  | ppsInLoss | cdatRead | hostLinkTrain | ideKmRequest | svnFuseAdvance =>
    exact .next rfl (onHub_caps _ s (by simp [apply_ite Hub.caps]))
  -- the SPDM responder
  | getVersion | spdmUnsupported => exact .next rfl (onSpdm_caps _ s rfl)
  | getCapabilities | negotiateAlgorithms | finish | heartbeat | endSession =>
    exact .next rfl (onSpdm_caps _ s (by simp [apply_ite Hub.caps]))
  | getDigests => exact .next rfl (onSpdm_caps _ s (Hub.spdmReady_caps _ _ rfl))
  | getCertificate | challenge => exact .next rfl (onSpdm_caps _ s (Hub.spdmReady_caps _ _ (by split <;> rfl)))
  | getMeasurements | keyExchange => exact .next rfl (onSpdm_caps _ s (Hub.spdmReady_caps _ _ (by simp [apply_ite Hub.caps])))
  -- supply, temperature and SMBus
  | vinRise | powerGood | overvoltageClear | dieCooled | undervoltageLockout | overvoltage | inputCurrentLatch | inputSwitchReset | powerDown =>
    exact .next rfl rfl
  | undervoltageWarn | thermThreshold | smbReadPwr | smbReadCaps | smbClearStat => exact .next rfl (by simp [apply_ite Hub.caps])
  | converterCutout | dieOverTemp | powerGoodStart => exact .next rfl (by split <;> simp)
  | hubFail => exact .next rfl (by split <;> rfl)
  -- the rest of the host port
  | hdmAccess => exact .next rfl (s.hdmAccess_caps ..)
  | h2dTake => exact .next rfl (s.h2dTake_caps ..)
  | d2hPost => exact .next rfl (s.d2hPost_caps ..)
  -- a channel, or the hub
  | timeUpdate u =>
    cases u with
    | some ch => exact .hub rfl (onChan_hub ..)
    | none => exact .next rfl (by split <;> simp)
  | tick1us u | tick1ms u | nowLatch u =>
    cases u with
    | some ch => exact .hub rfl (onChan_hub ..)
    | none => exact .next rfl (onHub_caps _ s rfl)
  -- commands with a lemma of their own
  | globalTriggerFire => exact execGlobalTriggerFire_keepsCaps ..
  | laserEnNChange => exact execLaserEnNChange_keepsCaps ..
  | violationDelivery => exact execViolationDelivery_keepsCaps ..
  | registerWrite => exact execRegisterWrite_keepsCaps ..
  | relCntWrite => exact execRelCntWrite_keepsCaps ..
  | historyCopy => exact execHistoryCopy_keepsCaps ..
  | windowClose => exact execWindowClose_keepsCaps ..
  | sealStart => exact execSealStart_keepsCaps ..
  | sealPageProgramDone => exact execSealPageProgramDone_keepsCaps ..
  | sectorEraseDone => exact execSectorEraseDone_keepsCaps ..
  | eventRecordTake => exact execEventRecordTake_keepsCaps ..
  | startupStepLate => exact execStartupStepLate_keepsCaps ..
  | bootRel => exact execBootRel_keepsCaps ..
  | coldRestart => exact execColdRestart_keepsCaps ..
  | dmaAccess => exact execDmaAccess_keepsCaps ..

/-- Settles O4. Address 0 of BAR0 reads GLB.CAPS. -/
theorem capsNeverChange : Obligations.CapsNeverChange := by
  intro i s t h
  have hcaps : t.hub.caps = s.hub.caps := (exec_keepsCaps i s).caps_eq t h
  exact ⟨hcaps, hcaps⟩

end Sys2Proof.Machine

/-! PROOFS. A command to one channel reaches no other (01_architecture.md, R18). -/

/-! ### What keeps every other channel -/

namespace Sys2Proof.Safety

open Sys2Proof Sys2Proof.Machine

variable {n : Fin 8} {s t : State}

theorem OthersKept.refl (n : Fin 8) (s : State) : OthersKept n s s := fun _ _ => rfl

theorem OthersKept.trans {u : State} (h : OthersKept n s t) (h' : OthersKept n t u) : OthersKept n s u :=
  fun m hm => (h' m hm).trans (h m hm)

theorem OthersKept.of_chans_eq (h : t.chans = s.chans) : OthersKept n s t := fun _ _ => by simp only [State.chan, h]

/-- Whatever becomes of channel `n` itself. -/
theorem OthersKept.setChan (h : OthersKept n s t) (c : Chan) : OthersKept n s (t.setChan n c) :=
  h.trans fun m hm => State.setChan_other t n m c hm

/-- Whatever becomes of the hub. -/
theorem OthersKept.modHub (h : OthersKept n s t) (f : Hub → Hub) : OthersKept n s (t.modHub f) := h

theorem OthersKept.ite {p : Prop} [Decidable p] {a b : State} (ha : OthersKept n s a) (hb : OthersKept n s b) :
    OthersKept n s (if p then a else b) := by
  split
  · exact ha
  · exact hb

end Sys2Proof.Safety

namespace Sys2Proof.Machine

open Sys2Proof Sys2Proof.Safety

/-! ### Operations of the state on one channel -/

theorem onMtx_othersKept (n : Fin 8) (f : Chan → Chan) (s : State) : OthersKept n s (onMtx n f s) :=
  .ite (fun m hm => onLive_other n m f s hm) (.refl n s)

/-- The end of start-up is latched in the hub. -/
@[simp] theorem State.latchSeal_chans (s : State) : s.latchSeal.chans = s.chans := by
  unfold State.latchSeal
  dsimp only
  split <;> rfl

theorem latchSeal_othersKept {n : Fin 8} {s t : State} (h : OthersKept n s t) : OthersKept n s t.latchSeal :=
  h.trans (.of_chans_eq t.latchSeal_chans)

theorem State.startChan_othersKept (s : State) (n : Fin 8) (hold : Bool) (img : ChanImg) (f : StepFacts) :
    OthersKept n s (s.startChan n hold img f) :=
  .ite (.refl n s) ((OthersKept.refl n s).setChan _)

theorem State.dropOld_othersKept (s : State) (n : Fin 8) : OthersKept n s (s.dropOld n) :=
  .ite (.refl n s) (((OthersKept.refl n s).setChan _).modHub _)

theorem State.cutout_othersKept (s : State) (n : Fin 8) : OthersKept n s (s.cutout n) :=
  (((OthersKept.refl n s).setChan _).modHub _).modHub _

/-! Recorders: owner `n` below 8 is channel `n` (R588, R593) -/

/-- A channel replaced under its owner's number. -/
theorem chans_vset_eq_setChan (s : State) (n : Fin 8) (c : Chan) : { s with chans := vset s.chans n c } = s.setChan n c := by
  simp [vset, State.setChan, Vector.setIfInBounds, Vector.set, Array.setIfInBounds]

theorem State.putRec_othersKept (s : State) (n : Fin 8) (f : RecFx) : OthersKept n s (s.putRec n f) := by
  have hput : OthersKept n s (s.setChan n ((vget s.chans n).putFx f)) := (OthersKept.refl n s).setChan _
  simp only [State.putRec, n.isLt, if_true, chans_vset_eq_setChan]
  exact .ite (OthersKept.modHub (.ite (hput.modHub _) hput) _) (.ite (hput.modHub _) hput)

theorem State.putSeal_othersKept (s : State) (n : Fin 8) (f : RecFx) : OthersKept n s (s.putSeal n f) := by
  unfold State.putSeal
  split
  · have hown (c : Chan) : OthersKept n s (s.setChan n c) := (OthersKept.refl n s).setChan c
    simp only [chans_vset_eq_setChan]
    exact .ite (s.putRec_othersKept n f) (.ite (hown _) (.ite ((hown _).modHub _) (hown _)))
  · exact s.putRec_othersKept n f

/-! ### Commands -/

/-- Where a command of one channel ends in a next state, every other channel is as it was in `s`; `o` is none for a command that is not
one channel's, of which nothing is said. -/
structure Confined (o : Option (Fin 8)) (s : State) (r : Out) : Prop where
  othersKept : ∀ n t, o = some n → r = .next t → OthersKept n s t

theorem Confined.none (s : State) (r : Out) : Confined none s r where
  othersKept _ _ h := nomatch h

theorem Confined.next {n : Fin 8} {s t : State} {r : Out} (hr : r = .next t) (h : OthersKept n s t) : Confined (some n) s r where
  othersKept n' t' hn ht := by
    cases hn
    cases hr.symm.trans ht
    exact h

theorem Confined.unchanged {n : Fin 8} {s : State} {r : Out} (hr : r = .next s) : Confined (some n) s r := .next hr (.refl n s)

theorem Confined.setChan {n : Fin 8} {s : State} {c : Chan} {r : Out} (hr : r = .next (s.setChan n c)) : Confined (some n) s r :=
  .next hr ((OthersKept.refl n s).setChan c)

/-- Also for `onPath` and `onLive`, which are `onChan` with a test of the channel's PHASE. -/
theorem Confined.onChan {n : Fin 8} {f : Chan → Chan} {s : State} {r : Out} (hr : r = .next (onChan n f s)) : Confined (some n) s r :=
  .next hr fun m hm => onChan_other n m f s hm

/-- Also for `onPathFree` and `onLiveFree`. -/
theorem Confined.onChanFree {n : Fin 8} {k : Nat} {f : Nat → Chan → Chan} {s : State} {r : Out} (hr : r = .next (onChanFree n k f s)) :
    Confined (some n) s r :=
  .next hr fun m hm => onChanFree_other n m k f s hm

theorem Confined.onMtx {n : Fin 8} {f : Chan → Chan} {s : State} {r : Out} (hr : r = .next (onMtx n f s)) : Confined (some n) s r :=
  .next hr (onMtx_othersKept n f s)

theorem Confined.onWindow {n : Fin 8} {o : Nat} {f : Chan → Chan} {s : State} {r : Out} (hr : r = .next (onWindow n o f s)) :
    Confined (some n) s r :=
  .next hr fun m hm => onWindow_other n m o f s hm

theorem Confined.ite {o : Option (Fin 8)} {s : State} {p : Prop} [Decidable p] {a b : Out} (ha : Confined o s a) (hb : Confined o s b) :
    Confined o s (if p then a else b) := by
  split
  · exact ha
  · exact hb

/-! Instants that may end start-up -/

theorem execMapChangeInstant_confined (n : Fin 8) (s : State) : Confined (some n) s (execMapChangeInstant n s) :=
  .next rfl (latchSeal_othersKept fun m hm => onLive_other n m _ s hm)

theorem execKeyRolloverInstant_confined (n : Fin 8) (s : State) : Confined (some n) s (execKeyRolloverInstant n s) :=
  .next rfl (latchSeal_othersKept fun m hm => onLiveFree_other n m 1 _ s hm)

theorem execStartupStepLate_confined (n : Fin 8) (img : ChanImg) (f : StepFacts) (s : State) :
    Confined (some n) s (execStartupStepLate n img f s) :=
  .ite (.unchanged rfl) (.ite (.setChan rfl) (.next rfl (latchSeal_othersKept ((OthersKept.refl n s).setChan _))))

theorem execColdRestart_confined (n : Fin 8) (img : ChanImg) (f : StepFacts) (s : State) :
    Confined (some n) s (execColdRestart n img f s) := by
  refine .ite (.unchanged rfl) (.next rfl (latchSeal_othersKept (OthersKept.setChan ?_ _)))
  have hold : OthersKept n s (s.dropOld n) := s.dropOld_othersKept n
  exact (OthersKept.ite (hold.setChan _) hold).trans (State.startChan_othersKept _ n false img f)

/-! Cutouts, and the channel's accesses -/

theorem execConverterCutout_confined (n : Fin 8) (s : State) : Confined (some n) s (execConverterCutout n s) :=
  .next rfl (.ite (s.cutout_othersKept n) (.refl n s))

theorem execDieOverTemp_confined (n : Fin 8) (s : State) : Confined (some n) s (execDieOverTemp n s) :=
  .next rfl (.ite ((s.cutout_othersKept n).modHub _) (.refl n s))

theorem execDmaAccess_confined (n : Fin 8) (q : DmaReq) (s : State) : Confined (some n) s (execDmaAccess n q s) :=
  .ite (.unchanged rfl) (.ite (.setChan rfl) (.setChan rfl))

/-- Violations and lost counts leave the channel for the hub. -/
theorem execViolationDelivery_confined (n : Fin 8) (s : State) : Confined (some n) s (execViolationDelivery n s) := by
  have hlost : OthersKept n s (if (s.chan n).violLost = 0 then s
      else (s.setChan n { s.chan n with violLost := 0 }).modHub fun h => (h.count 0x24 (s.chan n).violLost).hostEv .hostViolLost) :=
    .ite (.refl n s) (((OthersKept.refl n s).setChan _).modHub _)
  refine .ite (.unchanged rfl) ?_
  dsimp only
  split
  · exact .next rfl hlost
  · exact .next rfl ((hlost.setChan _).modHub _)

/-- A refused write is the host's violation, which the hub logs. -/
theorem execRelCntWrite_confined (n : Fin 8) (hi : Word) (s : State) : Confined (some n) s (execRelCntWrite n hi s) := by
  refine .next rfl (.ite (.refl n s) (.ite (.of_chans_eq rfl) ?_))
  split
  · exact (OthersKept.refl n s).setChan _
  · exact .of_chans_eq rfl

/-! The channel's recorder -/

theorem execHistoryCopy_confined (n : Fin 8) (s : State) : Confined (some n) s (execHistoryCopy n s) :=
  .ite (.next rfl (s.putRec_othersKept n _)) (.unchanged rfl)

theorem execWindowClose_confined (u : Option (Fin 8)) (s : State) : Confined u s (execWindowClose u s) := by
  cases u with
  | none => exact .none ..
  | some n =>
    exact .ite (.unchanged rfl)
      (.ite (.next rfl (((OthersKept.refl n s).setChan _).trans (State.putRec_othersKept _ n _))) (.unchanged rfl))

theorem execEventRecordTake_confined (u : Option (Fin 8)) (k : Nat) (s : State) : Confined u s (execEventRecordTake u k s) := by
  cases u with
  | none => exact .none ..
  | some n => exact .next rfl (.ite (.refl n s) ((s.putRec_othersKept n _).setChan _))

/-- A seal of the channel's recorder changes that recorder and the hub. -/
theorem execSealStart_confined (u : Option (Fin 8)) (s : State) : Confined u s (execSealStart u s) := by
  cases u with
  | none => exact .none ..
  | some n =>
    have hseal (f : Hub → Hub) (g : RecFx) : OthersKept n s ((s.modHub f).putSeal n g) := State.putSeal_othersKept (s.modHub f) n g
    refine .ite (.unchanged rfl) (.ite (.next rfl (hseal _ _)) ?_)
    -- not `dsimp only`: the kernel would check it by evaluating the sector that `openSector` picks
    simp only
    split
    · exact .ite (.next rfl (hseal _ _)) (.next rfl ((hseal _ _).modHub _))
    · exact .next rfl ((OthersKept.refl n s).modHub _)

/-- Every command is confined to its channel (R18): most are a function of that channel alone, and the others change the hub beside it. -/
theorem exec_confined (i : Instr) (s : State) : Confined i.channel s (exec i s) := by
  cases i with
  -- of no one channel: the module as a whole, and a register write, whose address names its channel
  | registerWrite | hubFail | laserEnNChange | powerGoodStart | bootRel | svnFuseAdvance | hubWatchdog | getVersion | getCapabilities |
    negotiateAlgorithms | getDigests | getCertificate | challenge | getMeasurements | keyExchange | finish | heartbeat | endSession |
    spdmUnsupported | ppsInEdge | ppsInLoss | todSet | ppsOutEdge | timeCapEdge | capEntryRemove | globalSlotArm | globalTriggerFire |
    hostLinkTrain | hostPortReset | hdmAccess | doorbell | h2dTake | d2hPost | take | mailboxTimeout | sealPageProgramDone |
    sectorEraseDone | vinRise | powerGood | undervoltageLockout | undervoltageWarn | overvoltage | overvoltageClear | inputCurrentLatch |
    inputSwitchReset | powerDown | thermThreshold | smbReadPwr | smbReadCaps | smbClearStat | msixUnmask | ideKmRequest | ideCheckFail |
    cdatRead =>
    exact .none ..
  -- a channel, or the hub
  | tick1us u | tick1ms u | timeUpdate u | nowLatch u =>
    cases u with
    | none => exact .none ..
    | some n => exact .onChan rfl
  | windowClose => exact execWindowClose_confined ..
  | eventRecordTake => exact execEventRecordTake_confined ..
  | sealStart => exact execSealStart_confined ..
  -- a channel and the hub
  | dieCooled => exact .next rfl (.of_chans_eq rfl)
  | converterCutout => exact execConverterCutout_confined ..
  | dieOverTemp => exact execDieOverTemp_confined ..
  | mapChangeInstant => exact execMapChangeInstant_confined ..
  | keyRolloverInstant => exact execKeyRolloverInstant_confined ..
  | startupStepLate => exact execStartupStepLate_confined ..
  | coldRestart => exact execColdRestart_confined ..
  | violationDelivery => exact execViolationDelivery_confined ..
  | relCntWrite => exact execRelCntWrite_confined ..
  | historyCopy => exact execHistoryCopy_confined ..
  -- a channel alone
  | dmaAccess => exact execDmaAccess_confined ..
  | recover | cold | returnCmd | wakeTolWrite | acceptJump => exact .onWindow rfl
  | tileTaskDispatch | tileTaskComplete | noTileWaitExpire | factorUnitComplete => exact .onMtx rfl
  | kaHelloA | kaRekey | kaRestart | rekeyStart => exact .onChanFree rfl
  | _ => exact .onChan rfl

/-- Settles O5: the command is confined to its channel. -/
theorem channelsAreIsolated : Obligations.ChannelsAreIsolated := by
  intro i ch s t hch h
  exact (exec_confined i s).othersKept ch t hch h

end Sys2Proof.Machine

/-! PROOFS. The checks of a JOB_ADMIT and the order in which they run (02_multisite_jobs.md, R53). -/

namespace Sys2Proof.Machine

open Sys2Proof Sys2Proof.Safety

/-! ### A privileged request -/

/-- Of a listed coordinate, at a sequencer whose output has room (R49, R265). -/
theorem Chan.onRequest_listed (c : Chan) (opcode : Nat) (e : CtlEnv) (f : Chan → Chan) (hfree : c.seqFree = true)
    (hlisted : c.cfg.cpList.contains e.src = true) : c.onRequest opcode e f = f (c.takeReq opcode e) := by
  have hcfg : (c.takeReq opcode e).cfg = c.cfg := rfl
  simp only [Chan.onRequest, hfree, hcfg, hlisted, Bool.not_true, Bool.false_eq_true, if_false, if_true]

/-! ### The checks -/

/-- The slots that a JOB_ADMIT may take, the lowest first: the free one that it names, or any free one; a request that the peer forwarded
names none (R624). -/
def Chan.admitSlots (c : Chan) (own : Bool) (b : AdmitBody) : List Nat :=
  let free := (List.range 16).filter c.slotFree
  if own && decide (b.slot ≠ 0xFF) then free.filter fun k => k == b.slot.toNat else free

theorem Chan.mem_admitSlots_own (c : Chan) (b : AdmitBody) (k : Nat) :
    k ∈ c.admitSlots true b ↔ k < 16 ∧ c.slotFree k = true ∧ (b.slot = 0xFF ∨ b.slot.toNat = k) := by
  by_cases hany : b.slot = 0xFF
  · simp only [Chan.admitSlots, hany, ne_eq, not_true_eq_false, decide_false, Bool.and_false, Bool.false_eq_true, if_false,
      List.mem_filter, List.mem_range, true_or, and_true]
  · simp only [Chan.admitSlots, hany, ne_eq, not_false_eq_true, decide_true, Bool.and_self, if_true, List.mem_filter, List.mem_range,
      beq_iff_eq, false_or, and_assoc, eq_comm (a := k)]

/-- The slot check of a request of this end's fabric passes. -/
theorem Chan.admitSlots_own_ne_nil (c : Chan) (b : AdmitBody) :
    c.admitSlots true b ≠ [] ↔ ∃ k : Nat, k < 16 ∧ c.slotFree k = true ∧ (b.slot = 0xFF ∨ b.slot.toNat = k) := by
  simp only [ne_eq, List.eq_nil_iff_forall_not_mem, Classical.not_forall, Classical.not_not, Chan.mem_admitSlots_own]

/-- The chain of checks in the order of R53, the slot check as one condition. -/
theorem Chan.admitCheck_eq (c : Chan) (mtx own : Bool) (job : BitVec 32) (b : AdmitBody) :
    c.admitCheck mtx own job b =
      if c.notReady then .error stNotReady
      else if ¬(b.mode = 1 ∨ b.mode = 2) then .error stBadMode
      else if ¬(c.admitFields b = true ∧ b.jobId = job) then .error stBadField
      else if c.jobHeld b.jobId then .error stDupJob
      else if c.admitSlots own b = [] then .error stNoSlot
      else if 512 < c.fab.blocks.length + blocksFor b then .error stNoTableSpace
      else if c.unitCheck mtx b.opts = stOk then .ok ((c.admitSlots own b).headD 0)
      else .error (c.unitCheck mtx b.opts) := by
  have hfields : (!c.admitFields b || decide (b.jobId ≠ job)) = true ↔ ¬(c.admitFields b = true ∧ b.jobId = job) := by
    simp only [Bool.or_eq_true, Bool.not_eq_true', decide_eq_true_eq, ne_eq, Classical.not_and_iff_not_or_not, Bool.not_eq_true]
  cases hslots : c.admitSlots own b with
  | nil =>
    simp only [Chan.admitSlots] at hslots
    simp only [Chan.admitCheck, hslots, hfields, not_or, if_true, ne_eq]
  | cons k ks =>
    simp only [Chan.admitSlots] at hslots
    simp only [Chan.admitCheck, hslots, hfields, not_or, if_false, ne_eq, reduceCtorEq, List.headD_cons]

/-- The checks look at no request that waits. -/
@[simp] theorem Chan.admitCheck_takeReq (c : Chan) (opcode : Nat) (e : CtlEnv) (mtx own : Bool) (job : BitVec 32) (b : AdmitBody) :
    (c.takeReq opcode e).admitCheck mtx own job b = c.admitCheck mtx own job b := rfl

/-! ### The command -/

/-- A check that fails gives its status to the coordinate that asked: the request leaves the queue, and nothing else of the machine changes
but what the answer takes. -/
theorem jobAdmit_refused {s : State} {ch : Fin 8} {e : CtlEnv} {b : AdmitBody} {st : Nat} (hasks : Asks s ch e)
    (hturn : (s.chan ch).admitTurn false e = true) (hcheck : (s.chan ch).admitCheck (s.mtxPresent ch) true e.job b = .error st) :
    Changes (.jobAdmit ch e b) s ch fun c d => d = (c.takeReq 1 e).answer 1 e st := by
  obtain ⟨⟨hpresent, hpath⟩, hfree, hlisted⟩ := hasks
  refine ⟨_, ?_, rfl⟩
  change execJobAdmit ch e b s = _
  rw [execJobAdmit, onPath_present _ _ _ hpresent hpath, if_pos hturn, Chan.onRequest_listed _ _ _ _ hfree hlisted, Chan.jobAdmit,
    Chan.admitCheck_takeReq, hcheck]
  rfl

/-- Settles O17: a clause's check ends the chain, and a check that passes is peeled off it for all the clauses that remain. -/
theorem jobAdmitChecksInOrder : Obligations.JobAdmitChecksInOrder := by
  intro s ch e b hasks hturn
  have hrefused {st : Nat} := jobAdmit_refused (b := b) (st := st) hasks hturn
  simp only [← Chan.admitSlots_own_ne_nil, ne_eq, Classical.not_not, Bool.not_eq_false, Nat.not_le]
  refine ⟨fun hr => hrefused ?_, fun hr hm => hrefused ?_, fun hr hm hf => hrefused ?_, fun hr hm hf hd => hrefused ?_,
    fun hr hm hf hd hs => hrefused ?_, fun hr hm hf hd hs ht => hrefused ?_, fun hr hm hf hd hs ht hu => hrefused ?_⟩ <;>
    rw [Chan.admitCheck_eq]
  · rw [if_pos hr, stNotReady]
  all_goals rw [if_neg (ne_true_of_eq_false hr)]
  · rw [if_pos hm, stBadMode]
  all_goals rw [if_neg (not_not_intro hm)]
  · rw [if_pos hf, stBadField]
  all_goals rw [if_neg (not_not_intro hf)]
  · rw [if_pos hd, stDupJob]
  all_goals rw [if_neg (ne_true_of_eq_false hd)]
  · rw [if_pos hs, stNoSlot]
  all_goals rw [if_neg hs]
  · rw [if_pos ht, stNoTableSpace]
  · rw [if_neg (Nat.not_lt.2 ht), stOk, if_neg hu]

end Sys2Proof.Machine

/-! PROOFS. Link retry of the fabric port (03_local_fabric.md, R74): replays on NAKs and timeouts, and the retrain that they lead to. -/

/-! ### Parts that a chain of updates leaves as they were -/

namespace Sys2Proof.Safety

open Sys2Proof Sys2Proof.Machine

variable {c d e : Chan} {l l' : List Blk}

theorem SameBlk.trans {b : Blk} (h : SameBlk c d b) (h' : SameBlk d e b) : SameBlk c e b := by
  cases b with
  | ticks | viols =>
    obtain ⟨h1, h2, h3, h4⟩ := h
    obtain ⟨h1', h2', h3', h4'⟩ := h'
    exact ⟨h1'.trans h1, h2'.trans h2, h3'.trans h3, h4'.trans h4⟩
  | _ => exact Eq.trans h' h

theorem Kept.refl (l : List Blk) (c : Chan) : Kept l c c := by
  intro b _
  cases b with
  | ticks | viols => exact ⟨rfl, rfl, rfl, rfl⟩
  | _ => rfl

theorem Kept.trans (h : Kept l c d) (h' : Kept l d e) : Kept l c e := fun b hb => (h b hb).trans (h' b hb)

theorem Kept.mono (h : Kept l c d) (hl : l ⊆ l') : Kept l' c d := fun b hb => h b fun hm => hb (hl hm)

theorem Kept.setPort (c : Chan) (p : Nat) (x : Port) : Kept [.fab] c (c.setPort p x) := by
  intro b hb
  cases b with
  | fab => exact absurd (List.mem_singleton_self _) hb
  | ticks | viols => exact ⟨rfl, rfl, rfl, rfl⟩
  | _ => rfl

theorem Kept.setReg (c : Chan) (o : Nat) (w : Word) : Kept [.regs] c (c.setReg o w) := by
  intro b hb
  cases b with
  | regs => exact absurd (List.mem_singleton_self _) hb
  | ticks | viols => exact ⟨rfl, rfl, rfl, rfl⟩
  | _ => rfl

theorem Kept.raise (c : Chan) (r : Raised) : Kept [.evr] c (c.raise r) := by
  intro b hb
  cases b with
  | evr => exact absurd (List.mem_singleton_self _) hb
  | ticks | viols => exact ⟨rfl, rfl, rfl, rfl⟩
  | _ => rfl

theorem Kept.count (c : Chan) (o n : Nat) : Kept [.regs] c (c.count o n) := by
  unfold Chan.count
  split
  · exact .refl _ c
  · exact .setReg c o _

/-- A command that applies a function to its channel changes it so, where the channel is in life. -/
theorem Changes.of_onLive {i : Instr} {s : State} {ch : Fin 8} {f : Chan → Chan} {P : Chan → Chan → Prop} (hlife : InLife s ch)
    (hexec : exec i s = .next (onLive ch f s)) (h : P (s.chan ch) (f (s.chan ch))) : Changes i s ch P := by
  obtain ⟨hpresent, hlive⟩ := hlife
  exact ⟨_, by rw [hexec, onLive_present _ _ _ hpresent hlive], h⟩

end Sys2Proof.Safety

namespace Sys2Proof.Machine

open Sys2Proof Sys2Proof.Safety

/-! ### A port and the updates of its channel -/

@[simp] theorem Chan.port_setPort (c : Chan) (p : Fin 4) (x : Port) : (c.setPort p x).port p = x := by
  simp [Chan.port, vget, vset]

@[simp] theorem Chan.port_setReg (c : Chan) (o p : Nat) (w : Word) : (c.setReg o w).port p = c.port p := rfl
@[simp] theorem Chan.port_raise (c : Chan) (p : Nat) (r : Raised) : (c.raise r).port p = c.port p := rfl
@[simp] theorem Chan.port_count (c : Chan) (o n p : Nat) : (c.count o n).port p = c.port p := by rw [Chan.port, Chan.count_fab, Chan.port]

/-! ### A replay and a retrain -/

@[simp] theorem Chan.port_retrain (c : Chan) (p : Fin 4) (lane : Option (Nat × Nat)) :
    (c.retrain p lane).port p =
      { c.port p with state := .retraining, attempt := 1, trainDue := true, resend := none, nakRun := 0, timeouts := 0 } := by
  simp only [Chan.retrain, Chan.port_raise, Chan.port_setReg, Chan.port_setPort]

theorem Chan.retrain_kept (c : Chan) (p : Nat) (lane : Option (Nat × Nat)) : Kept [.regs, .fab, .evr] c (c.retrain p lane) :=
  ((Kept.setPort c p _).mono (by simp)).trans (((Kept.setReg _ _ _).mono (by simp)).trans ((Kept.raise _ _).mono (by simp)))

theorem Chan.replay_of_nil (c : Chan) (p : Nat) (h : (c.port p).replay = []) : c.replay p = c := by
  simp only [Chan.replay, h, List.isEmpty_nil, if_true]

theorem Chan.replay_of_ne_nil (c : Chan) (p : Nat) (h : (c.port p).replay ≠ []) :
    c.replay p = (c.setPort p { c.port p with resend := some 0 }).count (0x100040 + 4 * p) := by
  simp only [Chan.replay, List.isEmpty_iff, h, if_false]

/-- A replay starts at the oldest flit that waits for its ACK; where none waits, nothing changes. -/
theorem Chan.port_replay (c : Chan) (p : Fin 4) :
    (c.replay p).port p = { c.port p with resend := if (c.port p).replay = [] then (c.port p).resend else some 0 } := by
  by_cases h : (c.port p).replay = []
  · rw [c.replay_of_nil p h, if_pos h]
  · simp only [c.replay_of_ne_nil p h, h, if_false, Chan.port_count, Chan.port_setPort]

theorem Chan.replay_kept (c : Chan) (p : Nat) : Kept [.regs, .fab, .evr] c (c.replay p) := by
  by_cases h : (c.port p).replay = []
  · rw [c.replay_of_nil p h]
    exact .refl _ c
  · rw [c.replay_of_ne_nil p h]
    exact ((Kept.setPort c p _).mono (by simp)).trans ((Kept.count _ _ _).mono (by simp))

/-! ### A NAK -/

/-- A port after an ACK of the `n` oldest flits of its replay buffer, with the credits that came with it. -/
def ackedPort (x : Port) (n : Nat) (credits : List Nat) : Port :=
  { x with replay := x.replay.drop n, resend := x.resend.map fun r => r - n, credits := credits }

/-- An ACK makes progress where it takes a flit from the replay buffer. -/
theorem Chan.takeAck_eq (c : Chan) (p : Nat) (f : Flit) : ∃ (n : Nat) (credits : List Nat),
    c.takeAck p f = if n = 0 then (false, c.setPort p (ackedPort (c.port p) n credits))
      else (true, c.setPort p { ackedPort (c.port p) n credits with progressUs := c.us, nakRun := 0, timeouts := 0 }) :=
  ⟨_, _, rfl⟩

/-- What an ACK does to a port: flits leave the front of the replay buffer, and the run of NAKs ends where it makes progress (R72, R74). -/
theorem Chan.port_takeAck (c : Chan) (p : Fin 4) (f : Flit) :
    ((c.takeAck p f).2.port p).state = (c.port p).state
    ∧ ((c.takeAck p f).2.port p).replay <:+ (c.port p).replay
    ∧ ((c.takeAck p f).1 = false → ((c.takeAck p f).2.port p).nakRun = (c.port p).nakRun) := by
  obtain ⟨n, credits, hack⟩ := c.takeAck_eq p f
  rw [hack]
  split <;> rw [Chan.port_setPort]
  · exact ⟨rfl, List.drop_suffix .., fun _ => rfl⟩
  · exact ⟨rfl, List.drop_suffix .., Bool.noConfusion⟩

/-- NAKs without acknowledgement progress, the NAK `f` included. -/
def Chan.nakRunAfter (c : Chan) (p : Nat) (f : Flit) : Nat := if (c.takeAck p f).1 then 0 else (c.port p).nakRun + 1

/-- The ACK of the NAK `f` taken, and the NAK counted. -/
def Chan.takeNak (c : Chan) (p : Nat) (f : Flit) : Chan :=
  (c.takeAck p f).2.setPort p { (c.takeAck p f).2.port p with nakRun := c.nakRunAfter p f }

@[simp] theorem Chan.port_takeNak (c : Chan) (p : Fin 4) (f : Flit) :
    (c.takeNak p f).port p = { (c.takeAck p f).2.port p with nakRun := c.nakRunAfter p f } := Chan.port_setPort ..

/-- On a port that is up, a sound NAK starts a retrain where it is the eighth of a run, and a replay otherwise. -/
theorem Chan.flitReceive_nak (c : Chan) (p : Fin 4) (f : Flit) (hup : (c.port p).state = .up) (hcrc : f.crc = crc32c (flitBody f))
    (hnak : f.type = 2) :
    c.flitReceive p f = if 8 ≤ c.nakRunAfter p f then (c.takeNak p f).retrain p none else (c.takeNak p f).replay p := by
  obtain ⟨hstate, -, hrun⟩ := c.port_takeAck p f
  have hcount : (if (c.takeAck p f).1 then 0 else ((c.takeAck p f).2.port p).nakRun + 1) = c.nakRunAfter p f := by
    unfold Chan.nakRunAfter
    split
    · rfl
    · next hno => rw [hrun (eq_false_of_ne_true hno)]
  have htype : f.type.toNat = 2 := by rw [hnak]; rfl
  have hsound : ¬(f.crc ≠ crc32c (flitBody f) ∨ 4 ≤ f.type.toNat) := by simp [hcrc, htype]
  rw [Chan.flitReceive, if_neg (by simp [hup]), if_neg hsound]
  simp only [htype, hcount]
  exact ite_congr (by rw [Chan.port_setPort, hstate, hup, eq_self, and_true]) (fun _ => rfl) fun _ => rfl

/-! ### A timeout -/

/-- 20 µs after the last progress, a port that is up with flits outstanding starts a retrain where this is the fourth timeout of a run, and
counts the timeout and replays otherwise. -/
theorem Chan.replayTimeout_due (c : Chan) (p : Fin 4) (hup : (c.port p).state = .up) (hout : (c.port p).replay ≠ [])
    (hlate : (c.port p).progressUs + 20 < c.us) :
    c.replayTimeout p = if 3 ≤ (c.port p).timeouts then c.retrain p none
      else (c.setPort p { c.port p with timeouts := (c.port p).timeouts + 1, progressUs := c.us }).replay p := by
  simp only [Chan.replayTimeout, hup, hlate, List.isEmpty_iff, hout, not_false_eq_true, and_self, if_true, Nat.reduceLeDiff]

/-! ### Flits sent again -/

/-- The next flit of a replay goes out ahead of new ones; `resend` moves on to the one behind it. -/
theorem Chan.flitSend_resend (c : Chan) (p : Fin 4) (r : Nat) (f : Flit) (hup : (c.port p).state = .up) (hnak : (c.port p).nakDue = false)
    (htrain : (c.port p).trainDue = false) (hresend : (c.port p).resend = some r) (hflit : (c.port p).replay[r]? = some f) :
    c.flitSend p = c.setPort p
      (putFlit { c.port p with resend := if r + 1 < (c.port p).replay.length then some (r + 1) else none } f) := by
  simp [Chan.flitSend, hup, hnak, htrain, hresend, hflit]

/-! ### The statement -/

/-- A NAK at a port that is up: the eighth of a run starts a retrain, any other a replay of what its ACK leaves. -/
theorem nak_changes (s : State) (ch : Fin 8) (p : Fin 4) (f : Flit) (hlife : InLife s ch) (hup : ((s.chan ch).port p).state = .up)
    (hcrc : f.crc = crc32c (flitBody f)) (hnak : f.type = 2) :
    Changes (.flitReceive ch p f) s ch fun c d =>
      (8 ≤ c.nakRunAfter p f → (d.port p).state = .retraining)
      ∧ (c.nakRunAfter p f < 8 → (d.port p).state = .up ∧ (d.port p).replay = ((c.takeAck p f).2.port p).replay
          ∧ (d.port p).replay <:+ (c.port p).replay ∧ (d.port p).nakRun = c.nakRunAfter p f
          ∧ (((c.takeAck p f).2.port p).replay ≠ [] → (d.port p).resend = some 0)) := by
  refine .of_onLive hlife rfl ?_
  rw [Chan.flitReceive_nak _ p f hup hcrc hnak]
  generalize s.chan ch = c at hup ⊢
  refine ⟨fun hrun => ?_, fun hrun => ?_⟩
  · rw [if_pos hrun, Chan.port_retrain]
  · obtain ⟨hstate, hsuffix, -⟩ := c.port_takeAck p f
    rw [if_neg (Nat.not_le.2 hrun), Chan.port_replay, Chan.port_takeNak]
    exact ⟨hstate.trans hup, rfl, hsuffix, rfl, fun hne => if_neg hne⟩

/-- 20 µs without progress at a port that is up: the fourth timeout of a run starts a retrain, any other a replay. -/
theorem replayTimeout_changes (s : State) (ch : Fin 8) (p : Fin 4) (hlife : InLife s ch) (hup : ((s.chan ch).port p).state = .up)
    (hout : ((s.chan ch).port p).replay ≠ []) (hlate : ((s.chan ch).port p).progressUs + 20 < (s.chan ch).us) :
    Changes (.replayTimeout ch p) s ch fun c d =>
      (3 ≤ (c.port p).timeouts → (d.port p).state = .retraining)
      ∧ ((c.port p).timeouts < 3 → (d.port p).state = .up ∧ (d.port p).resend = some 0 ∧ (d.port p).timeouts = (c.port p).timeouts + 1
          ∧ d.reg (0x100040 + 4 * p.val) = satAdd (c.reg (0x100040 + 4 * p.val)) 1)
      ∧ (d.port p).replay = (c.port p).replay ∧ Kept [.regs, .fab, .evr] c d := by
  refine .of_onLive hlife rfl ?_
  rw [Chan.replayTimeout_due _ p hup hout hlate]
  generalize s.chan ch = c at hup hout ⊢
  by_cases hrun : 3 ≤ (c.port p).timeouts
  · rw [if_pos hrun, Chan.port_retrain]
    exact ⟨fun _ => rfl, fun h => absurd hrun (Nat.not_le.2 h), rfl, c.retrain_kept p none⟩
  · rw [if_neg hrun]
    generalize hx : { c.port p with timeouts := (c.port p).timeouts + 1, progressUs := c.us } = x
    have hne : ((c.setPort p x).port p).replay ≠ [] := by rwa [Chan.port_setPort, ← hx]
    refine ⟨fun h => absurd h hrun, fun _ => ?_, ?_, ((Kept.setPort c p x).mono (by simp)).trans (Chan.replay_kept _ p)⟩
    · rw [Chan.port_replay, if_neg hne, Chan.port_setPort, Chan.replay_of_ne_nil _ p hne, Chan.reg_count, if_pos rfl, ← hx]
      exact ⟨hup, rfl, rfl, rfl⟩
    · rw [Chan.port_replay, Chan.port_setPort, ← hx]

/-- While a replay runs, FLIT_SEND sends the flit that it has reached, unchanged but for ACK, credits and CRC. -/
theorem flitSend_resend_changes (s : State) (ch : Fin 8) (p : Fin 4) (r : Nat) (f : Flit) (hlife : InLife s ch)
    (hup : ((s.chan ch).port p).state = .up) (hnak : ((s.chan ch).port p).nakDue = false) (htrain : ((s.chan ch).port p).trainDue = false)
    (hresend : ((s.chan ch).port p).resend = some r) (hflit : ((s.chan ch).port p).replay[r]? = some f) :
    Changes (.flitSend ch p) s ch fun c d =>
      (∃ g : Flit, (d.port p).wire = (c.port p).wire ++ [g] ∧ g.type = f.type ∧ g.tc = f.tc ∧ g.seq = f.seq ∧ g.sop = f.sop
        ∧ g.payload = f.payload)
      ∧ (d.port p).resend = (if r + 1 < (c.port p).replay.length then some (r + 1) else none)
      ∧ (d.port p).replay = (c.port p).replay ∧ (d.port p).credits = (c.port p).credits := by
  refine .of_onLive hlife rfl ?_
  rw [Chan.flitSend_resend _ p r f hup hnak htrain hresend hflit, Chan.port_setPort]
  exact ⟨⟨_, rfl, rfl, rfl, rfl, rfl, rfl⟩, rfl, rfl, rfl⟩

/-- Settles O25: a NAK, a timeout, and the flits that the replay sends. -/
theorem replayAndRetrainThresholds : Obligations.ReplayAndRetrainThresholds :=
  ⟨nak_changes, replayTimeout_changes, flitSend_resend_changes⟩

end Sys2Proof.Machine
